-- ==== Sys2Proof/Word.lean ====
section
/-! DEFINITION. Word types of the LS1M model: bytes, words, planes, identifiers of the agents and sparse tables. -/
namespace Sys2Proof

/-- A byte (R10). -/
abbrev Byte := BitVec 8
/-- A word of 32 bits (R10). -/
abbrev Word := BitVec 32
/-- A double-word of 64 bits (R10). -/
abbrev Dword := BitVec 64

/-- The number of PEs of a device (R18). -/
abbrev peCount : Nat := 1048576

/-- One bit of every PE of the device: bit y × 1,024 + x belongs to PE (x, y) (R18). -/
abbrev Plane := BitVec peCount

/-- One bit per logical cluster of the device: bit (y div 16) × 64 + (x div 16) (R19). -/
abbrev ClusterSet := BitVec 4096

/-- A sparse table: key and value pairs, keys strictly rising, no value equal to the table's default. -/
abbrev Table (α : Type) := List (Nat × α)

/-- Byte memory: address and byte pairs; what an unlisted address reads as is `memDefault` (log entry 3). -/
abbrev Mem := List Host.Cell

/-- A quadrant, and the partition whose lowest quadrant it is (R19, R22). -/
abbrev Quad := Fin 4
/-- A sequencer S0–S4 (Table SYS-7). -/
abbrev SeqId := Fin 5
/-- A Decley core: 0–4 the scalar cores of S0–S4, 5 the management core (R192). -/
abbrev CoreId := Fin 6
/-- A seam edge: 0 north, 1 east, 2 south, 3 west (R296). -/
abbrev EdgeId := Fin 4
/-- A half-edge of an edge (R121). -/
abbrev HalfId := Fin 2
/-- A general register of a Decley core (Table DCY-1). -/
abbrev Reg := Fin 16
/-- A PCIe function (R276). -/
abbrev FnId := Fin 256
/-- A work queue (R276). -/
abbrev QueueId := Fin 65536
/-- A scratchpad bank (R240). -/
abbrev BankId := Fin 64
/-- A power domain: the index d of Table PWR-1. -/
abbrev DomId := Fin 33
/-- A ring stop position (Table RING-2). -/
abbrev StopId := Fin 16

/-- Who makes an access inside the device (Tables BANK-1, MIC-1, Table SYS-4). -/
inductive Initiator where
  | core (c : CoreId)
  | engine (k : Quad)
  | hostBlock
  | fabric
  | probe
  | pilot
  | lamplighter
  deriving DecidableEq, Repr

/-- The management core as an initiator. -/
abbrev Initiator.mgmt : Initiator := .core 5

/-- Size of a narrow access in bytes, as a power of two: 1, 2, 4 or 8 (Table RING-3). -/
inductive Size where
  | b1 | b2 | b4 | b8
  deriving DecidableEq, Repr

/-- The size in bytes. -/
def Size.bytes : Size → Nat
  | .b1 => 1 | .b2 => 2 | .b4 => 4 | .b8 => 8

/-- Length of a scalar instruction's encoding: one parcel or two (R202). -/
inductive Form where
  | p16 | p32
  deriving DecidableEq, Repr

/-- The length in bytes. -/
def Form.bytes : Form → Nat
  | .p16 => 2 | .p32 => 4

/-- A segment of a Decley core (Table DCY-1). -/
inductive Seg where
  | cs | ds | ss | xs
  deriving DecidableEq, Repr

/-- The three reduction trees (R126). -/
inductive Tree where
  | wick | count | first
  deriving DecidableEq, Repr

/-- Ring networks (Table RING-1). -/
inductive Net where
  | req | rsp | snp | dat
  deriving DecidableEq, Repr

/-- CAN frame formats: CAN FD with bit-rate switching, CAN FD without it, classic CAN 2.0B (R419). -/
inductive CanKind where
  | brs | fd | classic
  deriving DecidableEq, Repr

/-- The frame of a CAN message: its format, whether it is ISO CAN FD where it is CAN FD, whether its identifier has 29 bits, and the fields of that identifier but the
source: priority, service, destination node and segment (R418, R419, Table DICT-6). -/
structure CanFrame where
  kind : CanKind
  iso : Bool
  ext : Bool
  prio : Fin 8
  service : BitVec 6
  dest : BitVec 7
  segment : BitVec 6
  deriving DecidableEq, Repr

/-- A request to node 1 whose format does not matter. -/
def CanFrame.any : CanFrame := ⟨.brs, true, true, 0, 1, 1, 0⟩

/-- What frames of the MGE carry other than Nazen datagrams: the protocols that the device answers (R421), PTP event and general messages over UDP, and PTP over
IEEE 802.3 (R369). -/
inductive NetKind where
  | arp | icmp | icmp6 | ptpEvent | ptpGeneral | ptpEther
  deriving DecidableEq, Repr

/-- A session of the dictionary (R410): a mailbox slot, a CAN node, or a UDP source; with a CAN node the frame of the message, with a UDP source the tag of
the datagram (R421), which do not name the session. No session, but a destination of frames: an address that other frames of the MGE go to. -/
inductive Session where
  | mailbox (f : FnId)
  | can (node : BitVec 7) (frame : CanFrame)
  | udp (addr : BitVec 128) (port tag : BitVec 16)
  | net (kind : NetKind) (addr : BitVec 128)
  deriving DecidableEq, Repr

/-- A request of the network (R421): an ARP request of a station for an IPv4 address, a neighbour solicitation for an IPv6 address, or an echo request to an address,
IPv4 ones as IPv4-mapped, with what follows its checksum: identifier, sequence number and data. -/
inductive NetProbe where
  | arp (mac : BitVec 48) (ip target : BitVec 32)
  | nd (ip target : BitVec 128)
  | echo (ip target : BitVec 128) (body : List Byte)
  deriving DecidableEq, Repr, Inhabited

end Sys2Proof
end

