-- ==== Sys2Proof/Syntax.lean ====
section
/-! DEFINITION. The commands of the LS1M: one constructor per row of spec/opcode_table.json, with its operands.
A command is one whole step of the part (spec/95_what_each_step_holds.md). -/
namespace Sys2Proof

/-- An immediate of a CI format (6 bits) or of an RI format (16 bits) (Tables DCY-4, DCY-5). -/
inductive Imm where
  | i6 (v : BitVec 6)
  | i16 (v : BitVec 16)
  deriving DecidableEq, Repr

/-- The address operand of LD and ST: the CR form DS:[rs], or the M format (Tables DCY-7, DCY-8). -/
inductive MemOperand where
  | cr (s : Reg)
  | m (size : Size) (seg : Seg) (base : Reg) (disp : BitVec 13)
  deriving DecidableEq, Repr

/-- The offset of a Bcc: the CB form (9 bits) or the B format (22 bits). -/
inductive BranchOff where
  | o9 (v : BitVec 9)
  | o22 (v : BitVec 22)
  deriving DecidableEq, Repr

/-- One scratchpad access: byte offset in the bank, size, and the value of a write (R242, R251). -/
structure BankReq where
  /-- the initiator; the host block on port B -/
  init : Initiator
  off : BitVec 16
  /-- a window access of this size -/
  size : Size
  /-- or a rotate-alias access of one byte more than this number, at any byte offset -/
  rot : Option (Fin 8)
  /-- `some v` writes v, `none` reads -/
  write : Option Dword
  deriving DecidableEq, Repr

/-- What a start-up finds outside the part: straps as sampled (SYS_STRAP bits 7:0, R377), the stacks that fail training
(Table BOOT-3, B4), TESTMODE (R448), an OTP parity error (R388), and firmware that starts and does not reach B9 (R380). -/
structure BootEnv where
  straps : BitVec 8
  stackFail : BitVec 4
  testMode : Bool
  otpFault : Bool
  hang : Bool
  deriving DecidableEq, Repr

/-- A board without straps, on which nothing fails. -/
def BootEnv.plain : BootEnv := ⟨0, 0, false, false, false⟩

/-- The fault of a rail: whether it is VIO18 that is outside its window (R455), and what the start-up to come finds. -/
structure RailFault where
  vio18 : Bool
  env : BootEnv
  deriving DecidableEq, Repr

/-- How a host answers a request of the device (R284, Table HOST-6). -/
inductive HostReply where
  | ok
  /-- a failed or poisoned completion, or a 50 ms timeout, after `bytes` bytes have moved -/
  | failed (bytes : Nat)
  deriving DecidableEq, Repr

/-- Reading of a domain's critical-path margin (R358). -/
inductive Margin where
  | low | inside | high
  deriving DecidableEq, Repr

/-- PTP event messages of the MGE (R369). -/
inductive PtpKind where
  | sync | followUp | delayResp | announce | delayReq | peerDelay
  deriving DecidableEq, Repr

/-- The transports of PTP messages: UDP on IPv4 and on IPv6, and IEEE 802.3 with Ethertype 0x88F7 (R369). -/
inductive PtpOver where
  | ip4 | ip6 | ether
  deriving DecidableEq, Repr

/-- A PTP message at the MGE: its direction, its transport, and its bytes from the PTP header on. -/
structure PtpFrame where
  outgoing : Bool
  carrier : PtpOver
  bytes : List Byte
  deriving DecidableEq, Repr

/-- Events that end pilot-only sleep (R385). -/
inductive PilotWake where
  | timeAlarm | perstN | canRxd | sysrstN
  deriving DecidableEq, Repr

/-- Events that end a nap (R385). -/
inductive NapWake where
  | doorbell | pcieRequest | dictionary | icu5 | sysrstN
  deriving DecidableEq, Repr

/-- The instruction in the TAP: IDCODE, as after a reset of the TAP, BYPASS, SAMPLE/PRELOAD, and the three that disturb the part (R454). -/
inductive TapMode where
  | idcode | bypass | sample | extest | extestPulse | extestTrain
  deriving DecidableEq, Repr

/-- A mode in which the part ignores its PCIe link and keeps its half-edges DOWN (R454). -/
def TapMode.disturbs : TapMode → Bool
  | .idcode | .bypass | .sample => false
  | .extest | .extestPulse | .extestTrain => true

/-- State of the PCIe link (Table HOST-1). -/
inductive LinkState where
  | down | l0 | l1 | l2
  deriving DecidableEq, Repr

/-- What a configuration write of a function sets (Table HOST-1, R292): MSI-X Enable, VF Enable, D0 or D3hot, and the sizes 128 × 2 ^ code bytes of a
payload and of a read request. -/
inductive ConfigWrite where
  | msix (enable : Bool)
  | vf (enable : Bool)
  | power (d3hot : Bool)
  | payload (code : Fin 3)
  | readRequest (code : Fin 6)
  deriving DecidableEq, Repr

/-- What a received PCIe request asked for that the part does not have (R275). -/
inductive UnsupportedKind where
  | ats | pri | pasid | peerToPeer | cxl
  deriving DecidableEq, Repr

/-- Transports with a port of their own (R413). -/
inductive Port where
  | mailbox | can | mge
  deriving DecidableEq, Repr

/-- A message at a port as it came, on the MGE the payload of its datagram, and whether that was fragmented (R413, R421). -/
structure PortMessage where
  port : Port
  bytes : List Byte
  fragment : Bool
  deriving DecidableEq, Repr

/-- The part of a RUN_PROGRAM, plane or key job that a command carries out: its start, or its completion once its work has ended. -/
inductive JobPart where
  | start | finish
  deriving DecidableEq, Repr

/-- The routing header of a seam message (Table SEAM-6), with its data. -/
structure SeamMsg where
  dest : BitVec 16
  src : BitVec 16
  eseq : BitVec 16
  epoch : BitVec 8
  kind : BitVec 8
  len : BitVec 16
  ttl : BitVec 16
  /-- 0 DATA, 1 DACK, 2 RETRY -/
  mt : BitVec 8
  st : BitVec 8
  data : List Byte
  deriving DecidableEq, Repr

/-- A RED flit's contents (R300): tree, direction, index and value. -/
structure RedFlit where
  /-- 0 wick, 1 count -/
  isCount : Bool
  /-- false up, true down -/
  down : Bool
  k : BitVec 8
  value : BitVec 37
  deriving DecidableEq, Repr

/-- A CTL flit's contents (R300): acknowledged SEQ, NAK, freed counts and epoch. -/
structure CtlFlit where
  ack : BitVec 9
  nak : Option (BitVec 9)
  freedEv : BitVec 8
  freedRed : BitVec 8
  freedMsg0 : BitVec 8
  freedMsg1 : BitVec 8
  epoch : BitVec 8
  deriving DecidableEq, Repr

/-- A lane-steering LMF (R308): lane, spare, whether traffic goes to the spare or back, and whether for good (a retirement). -/
structure LmfSteer where
  lane : Fin 34
  spare : Fin 34
  toSpare : Bool
  retire : Bool
  deriving DecidableEq, Repr

/-- A seam flit as received: what its type carries (Table SEAM-2). -/
inductive FlitBody where
  | ctl (c : CtlFlit)
  | ev (vec : BitVec 512)
  | red (r : RedFlit)
  | msg (vc1 : Bool) (head tail : Bool) (payload : BitVec 512)
  | lmf (l : LmfSteer)
  deriving DecidableEq, Repr

/-- HASH.KR in a partition: how many rows to write before stopping at a resumption point; none runs to the end (R80). -/
structure HashRun where
  p : Quad
  steps : Option Nat
  deriving DecidableEq, Repr

/-- The lines of a DAT write packet, and whether its source issues it posted (R259, R260). -/
structure LineWrite where
  lines : List (BitVec 512)
  posted : Bool
  deriving DecidableEq, Repr

/-- A flit fails its CRC on a segment and is replayed: whether for the third time, and the packets that hold the segment (R269, R270). -/
structure SegReplay where
  third : Bool
  cut : List Nat
  deriving DecidableEq, Repr

/-- A move of a COPY: the k-th running COPY of its queue or the one that starts, the bytes that move now, and the host's reply (R290). -/
structure CopyMove where
  k : Nat
  n : Nat
  reply : HostReply
  deriving DecidableEq, Repr

/-- The rate in GT/s and the width of a PCIe link (Table HOST-1). -/
structure LinkRate where
  gts : Byte
  width : BitVec 5
  deriving DecidableEq, Repr

/-- Framing of a UART: 5 to 8 data bits as 5 + `more`, an even or odd parity bit, 2 stop bits, and the rate in bit/s (R333). -/
structure UartMode where
  more : Fin 4
  parity : Option Bool
  stop2 : Bool
  rate : Nat
  deriving DecidableEq, Repr

/-- An SPI controller: target or controller, mode 0–3, and its clock in Hz (R333). -/
structure SpiMode where
  target : Bool
  mode : Fin 4
  rate : Nat
  deriving DecidableEq, Repr

/-- The rates of an I²C controller: 100 kHz, 400 kHz, 1 MHz (R333). -/
inductive I2cRate where
  | k100 | k400 | m1
  deriving DecidableEq, Repr

/-- An I²C controller: target or controller, 10-bit addresses, rate (R333). -/
structure I2cMode where
  target : Bool
  ten : Bool
  rate : I2cRate
  deriving DecidableEq, Repr

/-- What the fabric design does with a hard block in one tick, for which the table has no row (R331, R333). -/
inductive HardAct where
  | idle
  | trim (v : Byte)
  | uartSet (k : Fin 2) (m : UartMode)
  /-- the design writes the transmit FIFO; the line takes its oldest character -/
  | uartWrite (k : Fin 2) (v : Byte)
  | uartSent (k : Fin 2)
  /-- a character comes from the line; the design reads the receive FIFO -/
  | uartGot (k : Fin 2) (v : Byte)
  | uartRead (k : Fin 2)
  | spiSet (k : Fin 2) (m : SpiMode)
  /-- a byte shifted out, and the one shifted in -/
  | spiByte (k : Fin 2) (out got : Byte)
  /-- settings, and the address that a target answers -/
  | i2cSet (k : Fin 2) (m : I2cMode) (own : BitVec 10)
  /-- a byte to or from an address: the controller's transfer, or the one that reaches a target -/
  | i2cByte (k : Fin 2) (addr : BitVec 10) (read : Bool) (v : Byte)
  /-- the design reads a sector's erase counter (R332) -/
  | wearRead (k : Fin 64)
  deriving DecidableEq, Repr, Inhabited

/-- What a clock spine carries (R327). -/
inductive SpineSource where
  | fc | fcHalf | fcQuarter | osc400 | osc40 | pilot
  /-- FIO0, FIO1, FIO32 or FIO33 -/
  | pin (n : Fin 4)
  | wire
  deriving DecidableEq, Repr, Inhabited

/-- What clocks a flip-flop or a RAM port: a spine, or a wire that reaches its block, by its number among them (R323, R327). -/
inductive FfClock where
  | spine (k : Fin 16)
  | wire (n : Nat)
  deriving DecidableEq, Repr, Inhabited

/-- An edge of a clock. -/
structure ClockEdge where
  clock : FfClock
  rising : Bool
  deriving DecidableEq, Repr, Inhabited

/-- The set/reset of a flip-flop (Table FAB-2). -/
inductive SrKind where
  | none | sync | async
  deriving DecidableEq, Repr, Inhabited

/-- The settings of a flip-flop but for INIT (Table FAB-2): its clock edge, whether its CE is an input or constant 1, its set/reset and SRVAL. -/
structure FfSetting where
  edge : ClockEdge
  ce : Bool
  sr : SrKind
  srval : Bool
  deriving DecidableEq, Repr, Inhabited

/-- The settings of a cell (R322): its table, split mode, the bypass inputs as the D of QA and QB, and which of its two outputs are flip-flop outputs. -/
structure CellSetting where
  table : BitVec 64
  split : Bool
  bypassA : Bool
  bypassB : Bool
  outQa : Bool
  outQb : Bool
  qa : FfSetting
  qb : FfSetting
  deriving DecidableEq, Repr, Inhabited

/-- The settings of a RAM port (R324): its width as a row of 1, 2, 4, 9, 18, 36, WRITE_FIRST, and its clock edge. -/
structure RamPort where
  width : Fin 6
  writeFirst : Bool
  edge : ClockEdge
  deriving DecidableEq, Repr, Inhabited

/-- What a RAM port is given at an edge: an address, and data where it writes. -/
structure RamInput where
  addr : BitVec 14
  data : Option (BitVec 36)
  deriving DecidableEq, Repr, Inhabited

/-- The direction of an FIO pin (Table FAB-3). -/
inductive PinDir where
  | input | output | both
  deriving DecidableEq, Repr, Inhabited

/-- An I/O cell (Table FAB-3): direction; weak pull, as a safe pull is coded: 0 none, 1 up, 2 down, 3 keeper; slow slew; drive, 4 mA a step from 0; level, 0 1.8 V,
1 2.5 V, 2 3.3 V. -/
structure IoCell where
  dir : PinDir
  pull : Fin 4
  slow : Bool
  drive : Nat
  level : Nat
  deriving DecidableEq, Repr, Inhabited

/-- What an input of a multiplexer of the routing carries (R325): routing wire n, output i of logic block b, bit i of a RAM block's outputs, the level at a pin,
or an output of the hard blocks and ports. -/
inductive Driver where
  | wire (n : Nat)
  | block (b : Nat) (i : Fin 32)
  | ram (b : Nat) (i : Fin 72)
  | pin (k : Fin 64)
  | hard (n : Nat)
  deriving DecidableEq, Repr, Inhabited

/-- What clocks are made from: a source of the spines, or a routing wire (R327). -/
inductive ClockSignal where
  | source (x : SpineSource)
  | wire (n : Nat)
  deriving DecidableEq, Repr, Inhabited

/-- The commands. -/
inductive Instr where
  -- array instructions, chapter 03
  | arrayInstruction (c : CoreId) (w : Dword)
  | arrayPushResume (c : CoreId)
  | anop (p : Quad)
  | arrayMov (p : Quad)
  | movb (p : Quad)
  | arrayNot (p : Quad)
  | arrayAnd (p : Quad)
  | arrayOr (p : Quad)
  | arrayXor (p : Quad)
  | arrayAndn (p : Quad)
  | andb (p : Quad)
  | orb (p : Quad)
  | xorb (p : Quad)
  | emov (p : Quad)
  | kpush (p : Quad)
  | kelse (p : Quad)
  | kpop (p : Quad)
  | eclr (p : Quad)
  | arrayAdd (p : Quad)
  | arraySub (p : Quad)
  | addb (p : Quad)
  | subb (p : Quad)
  | rsubb (p : Quad)
  | arrayNeg (p : Quad)
  | arrayAbs (p : Quad)
  -- `steps`: how many steps and passes to run before stopping at a resumption point; none runs to the end (R79)
  | mul (p : Quad) (steps : Option Nat)
  | mulw (p : Quad) (steps : Option Nat)
  | div (p : Quad) (steps : Option Nat)
  | cmpeq (p : Quad)
  | cmpne (p : Quad)
  | cmplt (p : Quad)
  | cmple (p : Quad)
  | cmpgt (p : Quad)
  | cmpge (p : Quad)
  | testz (p : Quad)
  | testnz (p : Quad)
  | cmpeqb (p : Quad)
  | cmpneb (p : Quad)
  | cmpltb (p : Quad)
  | cmpleb (p : Quad)
  | cmpgtb (p : Quad)
  | cmpgeb (p : Quad)
  | find (p : Quad)
  | matchMasked (p : Quad)
  | selfirst (p : Quad)
  | any (p : Quad)
  | count (p : Quad)
  | readout (p : Quad)
  | arrayShl (p : Quad)
  | arrayShr (p : Quad)
  | arraySar (p : Quad)
  | arrayRol (p : Quad)
  | arrayRor (p : Quad)
  | nmov (p : Quad)
  | hashKr (h : HashRun)
  -- `issue`: how many microwords issue before the command ends (R98)
  | fabricPlaneFunction (p : Quad) (issue : Nat)
  -- micro-routines, chapter 04
  | parityReload (p : Quad)
  | waitLimit (p : Quad)
  | runLimit (p : Quad)
  | heldMicrowordRelease (p : Quad) (issue : Nat)
  | microstoreWrite (i : Initiator) (s : SeqId) (off : BitVec 24) (v : Dword)
  | autoSwap (p : Quad)
  | apre (c : CoreId) (d : Reg)
  | suspension (p : Quad)
  | apreNoRp (p : Quad)
  | ares (c : CoreId)
  | resumeRestore (p : Quad)
  | resume (i : Initiator) (s : SeqId)
  | flush (i : Initiator) (s : SeqId)
  | shapeWrite (i : Initiator) (v : Word)
  | shapeTakesEffect
  | edgeModeWrite (i : Initiator) (p : Quad) (v : Word)
  | keysegWrite (i : Initiator) (p : Quad) (v : Word)
  | fopWrite (i : Initiator) (j : Fin 32) (v : Word)
  | takeover (q : Quad)
  -- reach, chapter 05
  | wickLanding (p : Quad)
  | countLanding (p : Quad)
  | firstResponderLanding (p : Quad)
  | deviceScopeMatch (t : Tree)
  | reductionFlitReceive (e : EdgeId) (r : RedFlit)
  | edgeVectorReceive (e : EdgeId) (h : HalfId) (v : BitVec 512)
  -- plane I/O, chapter 06
  | go (i : Initiator) (k : Quad)
  | cancel (i : Initiator) (k : Quad)
  -- `recs`: the records the fabric design returns when FAB = 1, each as its beats' bytes
  | enginePass (k : Quad) (recs : List (List Byte))
  | fill (k : Quad)
  | capture (k : Quad)
  | fabricTimeout (k : Quad)
  | stagingScrub (k : Quad)
  | stackRefreshAdjust (k : Quad) (temp : Int)
  -- array integrity, chapter 07
  | scrubPassStart
  | scrubStep (p : Quad)
  | counterWindowEnd (d : Fin 16)
  | columnMigration (t : Fin 64) (cl : Fin 66)
  | migrationCopyStep (p : Quad)
  | forcedSteal (p : Quad)
  | columnSwitch (p : Quad)
  | clusterSubstitution (t : Fin 64) (cl : Fin 64)
  | clusterSubstitutionSwitch (p : Quad)
  | repairMapWrite
  -- scalar instructions, chapter 08
  | nop (c : CoreId)
  | mov (c : CoreId) (d s : Reg)
  | add (c : CoreId) (f : Form) (d s t : Reg)
  | adc (c : CoreId) (d s t : Reg)
  | sub (c : CoreId) (f : Form) (d s t : Reg)
  | sbc (c : CoreId) (d s t : Reg)
  | and (c : CoreId) (f : Form) (d s t : Reg)
  | or (c : CoreId) (f : Form) (d s t : Reg)
  | xor (c : CoreId) (f : Form) (d s t : Reg)
  | andn (c : CoreId) (d s t : Reg)
  | cmp (c : CoreId) (f : Form) (s t : Reg)
  | tst (c : CoreId) (s t : Reg)
  | not (c : CoreId) (d s : Reg)
  | neg (c : CoreId) (d s : Reg)
  | abs (c : CoreId) (d s : Reg)
  | shl (c : CoreId) (f : Form) (d s t : Reg)
  | shr (c : CoreId) (f : Form) (d s t : Reg)
  | sar (c : CoreId) (f : Form) (d s t : Reg)
  | sal (c : CoreId) (f : Form) (d s t : Reg)
  | rol (c : CoreId) (f : Form) (d s t : Reg)
  | ror (c : CoreId) (f : Form) (d s t : Reg)
  | movi (c : CoreId) (d : Reg) (imm : BitVec 6)
  | addi (c : CoreId) (d s : Reg) (imm : Imm)
  | cmpi (c : CoreId) (s : Reg) (imm : Imm)
  | andi (c : CoreId) (d s : Reg) (imm : BitVec 16)
  | ori (c : CoreId) (d s : Reg) (imm : BitVec 16)
  | xori (c : CoreId) (d s : Reg) (imm : BitVec 16)
  | tsti (c : CoreId) (s : Reg) (imm : BitVec 16)
  | lui (c : CoreId) (d : Reg) (imm : BitVec 16)
  | shli (c : CoreId) (d : Reg) (n : BitVec 6)
  | shri (c : CoreId) (d : Reg) (n : BitVec 6)
  | sari (c : CoreId) (d : Reg) (n : BitVec 6)
  -- `sel`: 0 SHL, 1 SHR, 2 SAR, 3 SAL, 4 ROL, 5 ROR (Table DCY-8)
  | shifti (c : CoreId) (d s : Reg) (sel : Fin 6) (n : Byte)
  | ld (c : CoreId) (d : Reg) (a : MemOperand)
  | st (c : CoreId) (d : Reg) (a : MemOperand)
  | lds (c : CoreId) (d : Reg) (imm : BitVec 6)
  | sts (c : CoreId) (d : Reg) (imm : BitVec 6)
  | push (c : CoreId) (s : Reg)
  | pop (c : CoreId) (d : Reg)
  | jr (c : CoreId) (s : Reg)
  | callr (c : CoreId) (s : Reg)
  | call (c : CoreId) (off : BitVec 26)
  | ret (c : CoreId)
  | reti (c : CoreId)
  | bcc (c : CoreId) (cond : Fin 16) (off : BranchOff)
  | loop (c : CoreId) (off : BitVec 22)
  | mfx (c : CoreId) (d : Reg) (sel : Fin 16)
  | mfs (c : CoreId) (d : Reg) (sel : BitVec 12)
  | mts (c : CoreId) (s : Reg) (sel : BitVec 12)
  | pushs (c : CoreId) (sel : BitVec 12)
  | pops (c : CoreId) (sel : BitVec 12)
  | mulu (c : CoreId) (s t : Reg)
  | muls (c : CoreId) (s t : Reg)
  | divu (c : CoreId) (s t : Reg)
  | divs (c : CoreId) (s t : Reg)
  | multiplyLanding (c : CoreId)
  | divideLanding (c : CoreId)
  | sync (c : CoreId) (mask : BitVec 4)
  | syncComplete (c : CoreId)
  -- `iters`: how many iterations complete before an interrupt stops a REP; none runs them all (R220)
  | rep (c : CoreId) (iters : Option Nat)
  | repn (c : CoreId)
  | trap (c : CoreId) (imm : BitVec 12)
  | wfi (c : CoreId)
  | wfiComplete (c : CoreId)
  | copn (c : CoreId) (func : BitVec 6) (d s t : Reg) (imm : Byte)
  -- `flags`: N Z C V when the valid bit is 1
  | copReply (c : CoreId) (tag : BitVec 4) (v : Word) (flags : Option (BitVec 4))
  | copTimeout (c : CoreId)
  | slockWrite (i : Initiator) (s : SeqId) (v : Word)
  | runProgramTimeout (p : Quad)
  -- interrupt controllers, chapter 09
  -- `level`: the level of the line as sampled, read for lines whose level the state does not fix
  | lineEvent (n : Fin 6) (j : Fin 1024) (level : Bool)
  | coalescingTimer (n : Fin 6) (j : Fin 1024)
  | interruptEntry (c : CoreId)
  | send (i : Initiator) (n : Fin 6) (v : Word)
  | pendingWrite (i : Initiator) (n : Fin 6) (k : Fin 32) (v : Word)
  | countWrite (i : Initiator) (n : Fin 6) (j : Fin 1024) (v : Word)
  | cfgWrite (i : Initiator) (n : Fin 6) (j : Fin 1024) (v : Word)
  | machineCheckEntry
  | mcctlPop (i : Initiator)
  -- scratchpad banks, chapter 10
  -- the accesses of ports A and B that reach the bank in one nc
  | bankAccess (b : BankId) (portA portB : Option BankReq)
  | rotateAliasAccess (i : Initiator) (a : BitVec 22) (bytes : Fin 9) (write : Option Dword)
  | ownerWrite (i : Initiator) (b : BankId) (v : Word)
  | handoverComplete (b : BankId)
  | bankIdleRetention (b : BankId)
  | bankRetentionCmd (i : Initiator) (b : BankId)
  | bankOffCmd (i : Initiator) (b : BankId)
  | bankWakeCmd (i : Initiator) (b : BankId)
  | bankWakeComplete (b : BankId)
  | rowTestStart (b : BankId)
  -- `faulty`: what the march test found
  | rowTestRestore (b : BankId) (faulty : Bool)
  -- rings, chapter 11
  | rd (i : Initiator) (a : BitVec 40) (size : Size)
  | wr (i : Initiator) (a : BitVec 40) (size : Size) (v : Dword)
  | wrp (i : Initiator) (a : BitVec 40) (size : Size) (v : Dword)
  | rdl (i : Initiator) (a : BitVec 40) (lines : Size)
  | wrl (i : Initiator) (a : BitVec 40) (d : LineWrite)
  | rds (c : CoreId) (a : BitVec 40)
  | rdx (c : CoreId) (a : BitVec 40)
  | upg (c : CoreId) (a : BitVec 40)
  | wbk (c : CoreId) (a : BitVec 40) (v : BitVec 512)
  | evs (c : CoreId) (a : BitVec 40)
  | snoopResponse (c : CoreId) (a : BitVec 40)
  | packetEjection (tag : Nat)
  | isolationTimeout (tag : Nat)
  | isoReadmit (i : Initiator) (s : StopId) (v : Word)
  | ringFlip (i : Initiator) (mask : BitVec 4)
  | stopRouteSwitch (n : Net) (s : StopId)
  | routeTableWrite (i : Initiator) (v : Word)
  | ringSegmentRetirement (n : Net) (ring : Fin 4) (seg : StopId) (r : SegReplay)
  | retryNotice (tag : Nat)
  -- `nc`: ring cycles that have passed
  | tokenRefill (s : StopId) (dat : Bool) (nc : Nat)
  -- host interface, chapter 12
  | doorbell (f : FnId) (q : QueueId) (size : Size) (v : Dword)
  | wqdbDoorbell (i : Initiator) (q : QueueId) (size : Size) (v : Dword)
  | descriptorFetch (q : QueueId) (r : HostReply)
  | queueEnable (f : FnId) (v : Dword)
  | queueDisable (f : FnId) (v : Dword)
  | queueDrainComplete (q : QueueId)
  | queueAssign (f : FnId) (v : Word)
  | queueRelease (f : FnId) (v : Word)
  | fcfgWrite (f : FnId) (v : Word)
  | fselWrite (f : FnId) (v : Word)
  | bar0Access (f : FnId) (off : BitVec 16) (size : Size) (write : Option Dword)
  | bar4Access (f : FnId) (off : BitVec 17) (bytes : Nat) (write : Option (List Byte))
  | unsupportedRequest (f : FnId) (k : UnsupportedKind)
  | runProgram (q : QueueId) (part : JobPart)
  | loadPlanes (q : QueueId) (part : JobPart)
  | storePlanes (q : QueueId) (part : JobPart)
  | copy (q : QueueId) (m : CopyMove)
  | fabricLoad (q : QueueId)
  | keyLoad (q : QueueId) (part : JobPart)
  | fence (q : QueueId)
  | completionQueueRoom (q : QueueId)
  | eventOverflow (q : QueueId)
  | msixCoalesceTimeout (q : QueueId)
  | functionLevelReset (f : FnId)
  -- seams, chapter 13
  | halfEdgeEnable (i : Initiator) (e : EdgeId) (v : Word)
  | seamCtlWrite (i : Initiator) (e : EdgeId) (v : Word)
  | partnerDetected (e : EdgeId) (h : HalfId)
  | trainingComplete (e : EdgeId) (h : HalfId) (lanes : Nat) (epoch : Byte)
  | linkDown (e : EdgeId) (h : HalfId)
  | autoRetrain (e : EdgeId) (h : HalfId)
  -- `raw`: the flit, where the half-edge has no code; `symbols`: else those of the codewords that hold it, by working lane in lane order (R298, R302)
  | flitReceive (e : EdgeId) (h : HalfId) (raw : BitVec 560) (symbols : List (List (BitVec 10)))
  | nakReceive (e : EdgeId) (h : HalfId) (seq : BitVec 9)
  | creditUpdate (e : EdgeId) (h : HalfId) (c : CtlFlit)
  -- `ber`: the window's rate as −10 × log10, 255 no errors; `sym`: FEC symbol errors of the window
  | laneBerWindow (e : EdgeId) (lane : Fin 34) (ber : Byte) (sym : Word)
  | laneRetrain (e : EdgeId) (lane : Fin 34)
  | laneRetrainEnd (e : EdgeId) (lane : Fin 34)
  | lmfReceive (e : EdgeId) (h : HalfId) (l : LmfSteer)
  -- departures and arrivals in units of 2^−16 ns
  | timeExchange (e : EdgeId) (t1 t2 t3 t4 : Int)
  | srtAddrWrite (i : Initiator) (v : Word)
  | messageSend
  -- `e`: the edge the head came from; none at injection
  | headFlitRoute (e : Option EdgeId) (m : SeamMsg)
  | messageDelivery (m : SeamMsg)
  | dackReceive (m : SeamMsg)
  | messageRetryReceive (dest : BitVec 16)
  | messageResendTimeout (dest : BitVec 16)
  | srtFlip (i : Initiator)
  | rete (i : Initiator) (edges : BitVec 4)
  | edgeRoutingTimeout (e : EdgeId)
  | readm (i : Initiator) (edges : BitVec 4)
  -- fabric, chapter 14
  | load (i : Initiator) (region : BitVec 16)
  | clear (i : Initiator)
  | clocksStart (r : Option (Fin 16))
  | internalPortsOpen (r : Option (Fin 16))
  | ioEnable (r : Option (Fin 16))
  | fabricScrubPass
  | flashRead (a : BitVec 15)
  | flashProgram (a : BitVec 15) (v : Dword)
  | flashErase (s : Fin 64)
  -- `reply`: what the design answers to a request it accepts; none while it has not answered
  | ringTargetRequest (i : Initiator) (a : BitVec 32) (size : Size) (write : Option Dword) (reply : Option Dword)
  -- power, clocks, time, chapter 15
  | clockGate (d : DomId)
  | clockResume (d : DomId)
  | domainDrain (d : DomId)
  | sleep (i : Initiator) (d : DomId)
  | wake (i : Initiator) (d : DomId)
  | powerDownComplete (d : DomId)
  | domainWake (d : DomId)
  | domainWakeComplete (d : DomId)
  | aclkWrite (i : Initiator) (v : Word)
  | aclkChange
  | avfsStep (d : DomId) (m : Margin)
  -- `uv`: the droop sensor's reading in microvolts
  | droopStretch (d : DomId) (uv : BitVec 20)
  | avsRequest (rail : Fin 2) (acked : Bool)
  -- the hottest reading of each listed domain in milli-degrees, and the pilot's own sensor
  | thermalReading (tj : List (DomId × Int)) (pilot : Int)
  | thermalDecay
  -- `amps`: the package current estimate over the interval; `us`: its length
  | currentLimitStep (amps : Nat) (us : Nat)
  | limitWrite (i : Initiator) (v : Word)
  | smbTemperature
  | smbPackagePower (mw : Word)
  | smbDeviceState
  | smbThrottleLevel
  | smbSerialNumber
  | smbRefused
  | timeSet (i : Initiator) (v : Dword)
  | timeStep (i : Initiator) (v : Dword)
  | timeAdjWrite (i : Initiator) (v : Word)
  | timeAlarm
  | ppsOut
  | ppsIn
  -- `ppb`: the crystal's measured rate against device time, in units of 2^−8 ppb
  | holdCalibration (ppb : Word)
  | ptpEventMessage (k : PtpKind) (f : PtpFrame)
  -- reset, start-up, sleep, chapter 16
  | pilotPowerUp (env : BootEnv)
  | sysrstN (env : BootEnv)
  | railFault (f : RailFault)
  | railTimeout
  | watchdogExpiry (env : BootEnv)
  | watchdogWarning
  | kick (i : Initiator) (v : Word)
  | softwareReset (i : Initiator) (v : Word) (env : BootEnv)
  | sequencerReset (i : Initiator) (v : Word)
  | sequencerRun (i : Initiator) (v : Word)
  | sequencerStartTimeout (s : SeqId)
  | perstN (low : Bool)
  | trstN
  | pilotWakeEvent (w : PilotWake) (env : BootEnv)
  | napWake (w : NapWake)
  -- security, chapter 17
  | mantleSample (level : Bool)
  | vglitchPilot
  | vglitchCore
  | clkglitch
  | light
  | tlow
  | erasureComplete
  | erase (i : Initiator) (v : Word)
  | policyWrite (i : Initiator) (v : Word)
  | kwinWrite (i : Initiator) (k : Fin 4) (v : Dword)
  | grantNonce (s : Session)
  | grantSession (s : Session) (blob : List Byte)
  | grantReenrolment (s : Session) (blob : List Byte)
  | reenrolmentComplete
  | grantLifecycle (s : Session) (blob : List Byte)
  | grantPolicy (s : Session) (blob : List Byte)
  | attestation (s : Session) (nonce : List Byte)
  | svnCommit (s : Session) (arg : Word)
  | fwInstall (s : Session) (arg : Word)
  -- the dictionary, chapter 18
  | read (s : Session) (index : BitVec 16) (sub : Byte)
  | write (s : Session) (index : BitVec 16) (sub : Byte) (v : List Byte)
  | uploadReq (s : Session) (segno : BitVec 16)
  | downloadInit (s : Session) (index : BitVec 16) (sub : Byte) (len : Word)
  | downloadSeg (s : Session) (segno : BitVec 16) (data : List Byte)
  | abort (s : Session) (code : BitVec 16)
  | transferTimeout (s : Session)
  | mailboxPoll (f : FnId)
  | heartbeat
  | store (s : Session) (v : Word)
  | restoreDefaults (s : Session) (v : Word)
  | reset (s : Session) (arg : Word) (env : BootEnv)
  | nap (s : Session) (arg : Word)
  | pilotSleep (s : Session) (arg : Word)
  | seqReset (s : Session) (arg : Word)
  | logout (s : Session) (arg : Word)
  | fabClear (s : Session) (arg : Word)
  | registerDataRead (s : Session)
  | maintColumnMigration (s : Session) (arg : Word)
  | maintClusterSubstitution (s : Session) (arg : Word)
  | maintLaneRetrain (s : Session) (arg : Word)
  | maintLaneRetirement (s : Session) (arg : Word)
  | maintRingSegmentRetirement (s : Session) (arg : Word)
  | maintBankRowTest (s : Session) (arg : Word)
  -- service life, chapter 19, and events outside
  | errlogPop (i : Initiator) (v : Word)
  | faultLogWrite
  | nvmSliceBoundary
  | registerWrite (i : Initiator) (a : BitVec 40) (size : Size) (v : Dword)
  | pilotPowerLoss
  | railsInWindow (env : BootEnv)
  | pcieLinkChange (port : Fin 2) (l : LinkState) (r : LinkRate)
  -- `mask`: the function mask, which stands beside MSI-X Enable
  | configurationRequest (f : FnId) (w : ConfigWrite) (mask : Bool)
  | snoop (c : CoreId) (a : BitVec 40)
  | ctlFlitDue (e : EdgeId) (h : HalfId)
  | receiveRingHeadWrite (i : Initiator) (v : BitVec 16)
  | transmitCeilingRelease (port : Port)
  | busOff
  | mgeLinkChange (up : Bool)
  | malformedMessage (m : PortMessage)
  | arpNdIcmpEcho
  | extest (m : TapMode)
  | probeEnable (i : Initiator) (k : Fin 32) (v : Word)
  deriving DecidableEq, Repr

end Sys2Proof
end

