-- ==== Sys2Proof/Decode.lean ====
section
/-! DEFINITION. The decoder of command words: spec/opcode_table.json gives bits to no row, so no word spells a command. -/
namespace Sys2Proof

/-- The command a word spells by the table's bits: none. -/
def decodeTableWord (_nbits _w : Nat) : Option Instr := none

end Sys2Proof
end

