-- ==== Sys2Proof/Machine/Map.lean ====
section
/-! DEFINITION. Sparse tables in one canonical form, bit fields and saturating counters. -/
namespace Sys2Proof

/-- The value a table holds for key k: the first listed one, else the default `d k`. -/
def tget {α : Type} (d : Nat → α) : Table α → Nat → α
  | [], k => d k
  | (a, v) :: t, k => if a = k then v else tget d t k

/-- The table without key k. -/
def tdel {α : Type} : Table α → Nat → Table α
  | [], _ => []
  | (a, v) :: t, k => if a = k then tdel t k else (a, v) :: tdel t k

/-- The table with (k, v) placed before the first larger key. -/
def tput {α : Type} : Table α → Nat → α → Table α
  | [], k, v => [(k, v)]
  | (a, w) :: t, k, v => if k < a then (k, v) :: (a, w) :: t else (a, w) :: tput t k v

/-- The table with key k holding v. An entry equal to the default is not listed, so equal tables are equal data. -/
def tset {α : Type} [DecidableEq α] (d : Nat → α) (t : Table α) (k : Nat) (v : α) : Table α :=
  if v = d k then tdel t k else tput (tdel t k) k v

/-- The table with the value of key k changed by f. -/
def tmod {α : Type} [DecidableEq α] (d : Nat → α) (t : Table α) (k : Nat) (f : α → α) : Table α :=
  tset d t k (f (tget d t k))

/-- Keys strictly rising, all above `lo` when one is given, and no entry equal to the default. -/
def twfFrom {α : Type} [DecidableEq α] (d : Nat → α) : Option Nat → Table α → Bool
  | _, [] => true
  | lo, (a, v) :: t => (match lo with | none => true | some l => decide (l < a)) && decide (v ≠ d a) && twfFrom d (some a) t

/-- The canonical form of a table. -/
def twf {α : Type} [DecidableEq α] (d : Nat → α) (t : Table α) : Bool := twfFrom d none t

/-- The default of a table whose unlisted entries are all alike. -/
def konst {α : Type} (a : α) : Nat → α := fun _ => a

/-- Bits hi..lo of v, as a number (R9). -/
def bits (v lo len : Nat) : Nat := v / 2 ^ lo % 2 ^ len

/-- v with bits lo .. lo+len−1 replaced by the low len bits of x (R9). -/
def setBits (v lo len x : Nat) : Nat := v - bits v lo len * 2 ^ lo + x % 2 ^ len * 2 ^ lo

/-- v as 0 or 1. -/
def b2n (b : Bool) : Nat := if b then 1 else 0

/-- n + k, saturating at 2^w − 1. -/
def satAdd (w n k : Nat) : Nat := min (n + k) (2 ^ w - 1)

/-- v read as a two's-complement number of w bits. -/
def signed (w v : Nat) : Int := (BitVec.ofNat w v).toInt

/-- The little-endian bytes of v, n of them (R9). -/
def toBytes : Nat → Nat → List Byte
  | 0, _ => []
  | n + 1, v => BitVec.ofNat 8 v :: toBytes n (v / 256)

/-- The number whose little-endian bytes are bs (R9). -/
def ofBytes : List Byte → Nat
  | [] => 0
  | b :: bs => b.toNat + 256 * ofBytes bs

/-- Apply f for each element of a list, in order. -/
def each {α σ : Type} (l : List α) (f : α → σ → σ) (s : σ) : σ := l.foldl (fun s a => f a s) s

/-- Apply f n times, with the index. -/
def times {σ : Type} : Nat → (Nat → σ → σ) → σ → σ
  | 0, _, s => s
  | n + 1, f, s => f n (times n f s)

/-- f applied when c holds, else nothing. -/
def when {σ : Type} (c : Bool) (f : σ → σ) (s : σ) : σ := if c then f s else s

end Sys2Proof
end

