-- ==== Sys2Proof/Machine/Crc.lean ====
section
/-! DEFINITION. The CRC-32 of IEEE 802.3, polynomial 0x04C11DB7: bytes least significant bit first, register preset to ones and inverted at
the end (R300, R334, R425). -/
namespace Sys2Proof.Machine

/-- The register after n bits of v, least significant first. -/
def crcBits : Nat → Nat → Nat → Nat
  | 0, _, c => c
  | n + 1, v, c => crcBits n (v / 2) (if (c + v) % 2 = 1 then (c / 2) ^^^ 0xEDB88320 else c / 2)

/-- CRC-32 of a string of bytes. -/
def crc32 (bs : List Byte) : Nat := (bs.foldl (fun c b => crcBits 8 b.toNat c) 0xFFFFFFFF) ^^^ 0xFFFFFFFF

/-- CRC-32 of the low n bits of v, sent in bit order. -/
def crc32Bits (n v : Nat) : Nat := crcBits n v 0xFFFFFFFF ^^^ 0xFFFFFFFF

end Sys2Proof.Machine
end

