-- ==== Sys2Proof/Config.lean ====
section
/-! DEFINITION. What an implementation fixes, and the free values: constants without a body, of which nothing can be proved. -/
namespace Sys2Proof.Config

/-- The part is a ZLS1M-30T, else a ZLS1M-30E (R1); log entry 1. -/
opaque is30T : Bool

/-- A plane the spec gives no contents: X, C and N after a vendor routine (R67); log entry 2. -/
opaque freePlane : Nat → Plane

/-- A word the spec gives no value; log entry 2. -/
opaque freeWord : Nat → BitVec 64

/-- CODE of an error-log report of a class for which no rule names a code; log entry 4. -/
opaque errCode : Nat → BitVec 32

/-- The μPC of a microword of the vendor routine of an opcode and n, by the number of microwords issued before it, of which the spec gives no layout (Table
MIC-1); the entry is that of 0, 0; log entry 2. -/
opaque vendorUpc : Nat → Nat → Nat → BitVec 15

/-- Function bits of the words of the vendor region that a load of the firmware image places, by the load and the μPC, and of the ROM words, of which the
spec gives no contents (Table MIC-1); log entry 2. -/
opaque vendorWord : Nat → Nat → BitVec 160
@[inherit_doc vendorWord] opaque romWord : Nat → BitVec 160

/-- Whether the routine of an opcode and length holds a μPC of the vendor region or of the ROM, of which the spec gives no layout (R86); log entry 2. -/
opaque inRoutine : Nat → Nat → Nat → Bool

/-- The micro-state of a vendor routine at a resumption point inside it, by opcode, n, A, B, D and the part before which it stands: 0 the μPC, 1–3 LC1–LC3,
4–11 AR0–AR7, 12 LC0, of which the spec gives no values (R105); log entry 2. -/
opaque vendorFrame : List Nat → Nat → BitVec 16

/-- What the fabric design offers on a micro channel after a POST: port, and AR0, AR1, AR2, β and the opcode (R347); log entry 2. -/
opaque designOffer : Nat → List Nat → Option (BitVec 64)

/-- A byte of the firmware images and of the reserved remainder of the NVM as the part left the factory (Table SYS-5); log entry 2. -/
opaque nvmByte : Nat → Byte

/-- The serial number (Table SEC-1). -/
opaque serial : BitVec 64

/-- The fused ceilings: array clock in MHz, domain voltage in mV, seam lanes, seam swing and rate, FIO drive code, MGE frames per second in
thousands (Tables SEC-4, PWR); IMAX is 720 A (R449). -/
opaque fmaxFuse : BitVec 12
@[inherit_doc fmaxFuse] opaque vmax : BitVec 12
@[inherit_doc fmaxFuse] opaque lanes : Byte
@[inherit_doc fmaxFuse] opaque swing : BitVec 4
@[inherit_doc fmaxFuse] opaque rate : BitVec 2
@[inherit_doc fmaxFuse] opaque fioDrive : BitVec 2
@[inherit_doc fmaxFuse] opaque etx : Byte

/-- The fused FMAX: at most 3,000 MHz on both ordering codes (Tables SCO-1, PWR-2). -/
def fmax : BitVec 12 := if 3000 < fmaxFuse.toNat then 3000 else fmaxFuse

/-- What OTP holds for the monitor alone (Table SEC-1): the vendor key hash, and the device wrapping secret. -/
opaque vendorKeyHash : BitVec 256
@[inherit_doc vendorKeyHash] opaque wrapSecret : BitVec 256

/-- Whether the signature of a signed byte string verifies under a public key that meets a hash. -/
opaque verifies : BitVec 256 → List Byte → Bool

/-- A byte string is signed under the vendor key (R390, R395). -/
def vendorSigned (b : List Byte) : Bool := verifies vendorKeyHash b

/-- Seeds wrapped under a secret, of which the spec gives no form (R392). -/
opaque wrap : BitVec 256 → List Byte → List Byte

/-- The private seeds of the identity with which the part left the factory (R392). -/
opaque factorySeeds : List Byte

/-- The fields of a grant of the vendor: KIND, its argument, serial, nonce and NOTAFTER, of which the spec gives no offsets (R395). -/
opaque grantFields : List Byte → Nat × Nat × Nat × List Byte × Nat

/-- SHAKE256 with 32 bytes of output (Table SEC-4A). -/
opaque shake256 : List Byte → List Byte

/-- The bytes of a dictionary store copy and of the repair maps, of which the spec gives no layout (Table SEC-4A). -/
opaque storeBytes : Nat → List (Nat × BitVec 64) → List Byte
@[inherit_doc storeBytes] opaque mapBytes : List (List Nat) → List Byte

/-- The identity's signature of a byte string with an index, for the n-th enrolment: 9,893 bytes (R392, R394). -/
opaque identitySign : Nat → Nat → List Byte → Vector Byte 9893

/-- The identity public key, 68 bytes, and the vendor's certificate of the n-th enrolment (R392). -/
opaque identityKey : Nat → Vector Byte 68
@[inherit_doc identityKey] opaque identityCert : Nat → List Byte

/-- Bytes of the pilot's random source (R395, R398); log entry 2. -/
opaque random : Nat → List Byte

/-- The select fields in the contents of a frame, by its TYPE and minor number, of which the spec gives no layout (R325). -/
opaque selectFields : Nat → Nat → BitVec 512 → List (BitVec 64)

/-- The select fields of a frame: the contents of a RAM block are none (Table FAB-6). -/
def selects (type minor : Nat) (v : BitVec 512) : List (BitVec 64) := if type = 1 ∧ minor ≠ 0 then [] else selectFields type minor v

/-- Every select field of a frame is one-hot or all zeros (R325, R336). -/
def selectsOk (type minor : Nat) (v : BitVec 512) : Bool := (selects type minor v).all (fun x => x &&& (x - 1) == 0)

/-- The I/O cells of its 4 pins that an I/O frame configures, of which the spec gives no layout (Table FAB-3). -/
opaque ioCells : BitVec 512 → List IoCell

/-- The supply of an FIO bank as measured, in mV, by the place among the free values (R460); log entry 2. -/
opaque bankSupply : Nat → Nat → Nat

/-- The decoder of a frame's codeword RS(68,64): contents, and the number of symbols corrected; none when uncorrectable (R336). -/
opaque frameDecode : List Byte → Option (BitVec 512 × Nat)

/-- The INIT values of a logic block's 32 flip-flops in the contents of its 24 frames, of which the spec gives no layout (R323). -/
opaque ffInit : List (BitVec 512) → BitVec 32

/-- The copies of the lifecycle field, one a bit, that fail to program and fail both retries (R396); log entry 2. -/
opaque otpFails : Nat → BitVec 3

/-- Whether the verification of a store copy fails (R425); log entry 2. -/
opaque storeFails : Nat → Bool

/-- The source that the global frames give a clock spine, of which the spec gives no layout (R327). -/
opaque spineSource : List (BitVec 512) → Fin 16 → SpineSource

/-- The rates in Hz of the part's ring oscillators, the trimmable one at trim 0x80, before their tolerance bounds them (Table FAB-4). -/
opaque fixedOsc : Nat
@[inherit_doc fixedOsc] opaque trimOsc : Nat

/-- What the fabric design does with a hard block in a tick (R331, R333); log entries 2, 41. -/
opaque hardAct : Nat → HardAct

/-- Whether a logic frame placed in a physical column fails its read-back twice (R343); log entry 2. -/
opaque readBack : Nat → Nat → Nat → Bool

/-- The settings of a logic block's cell in the contents of the block's frames, of which the spec gives no layout (R322). -/
opaque cellSetting : List (BitVec 512) → Fin 16 → CellSetting

/-- Where the select field of input n of a cell stands: the minor of its frame, and the field's number there (R325). The inputs are 0–5 I0–I5, 6 and 7 BA and BB,
8 and 9 CE and SR of QA, 10 and 11 those of QB. -/
opaque cellPlace : Fin 16 → Nat → Nat × Nat

/-- The settings of a RAM block's ports in its frame 0: A, and B (R324). -/
opaque ramSetting : BitVec 512 → RamPort × RamPort

/-- The routing wires, of which the spec gives no map (R325): how many there are; the inputs of a wire's multiplexer, by number; the frame address and the number of
its select field; and the region it lies in, none for one of no region. Log entry 41. -/
opaque wireCount : Nat
@[inherit_doc wireCount] opaque wireInputs : Nat → List Driver
@[inherit_doc wireCount] opaque wirePlace : Nat → Nat × Nat
@[inherit_doc wireCount] opaque wireRegion : Nat → Option (Fin 16)

/-- The wires that reach a logic block's crossbar, by number; a RAM block's ports (0–13 address, 14–49 data, 50 write, from 51 on clocks); the I/O cells as level and output enable; and
the spine drivers (R325, R327); log entry 41. -/
opaque blockWire : Nat → Nat → Nat
@[inherit_doc blockWire] opaque ramWire : Nat → Fin 2 → Nat → Nat
@[inherit_doc blockWire] opaque pinWire : Nat → Nat × Nat
@[inherit_doc blockWire] opaque spineWire : Fin 16 → Nat

/-- The moment of a free-running oscillator's edges, as a part of 10^9 of its half period (R331); log entry 2. -/
opaque oscPhase : SpineSource → Nat

/-- What the outside and the design bring to the fabric in a tick: the levels at its pins, those of the hard blocks' outputs to the routing, and the frame bits that
an upset turns over, with the check symbols at 543:512 (R326); log entries 2, 41. -/
opaque pinLevels : Nat → BitVec 64
@[inherit_doc pinLevels] opaque hardLevel : Nat → Nat → Bool
@[inherit_doc pinLevels] opaque upset : Nat → Option (BitVec 32 × BitVec 544)

/-- The error counters of the CAN controller where the bus moves them in a tick: transmit and receive (R418, R431); log entry 2. -/
opaque canErrors : Nat → Option (BitVec 8 × BitVec 8)

/-- The request that a station of the MGE's network sends: ARP, neighbour solicitation or echo (R421); log entry 2. -/
opaque netProbe : Nat → NetProbe

/-- UP_RDY, CQ_RDY and a value offered with UF_V on a coprocessor port, as the design drives them (Table FAB-9, R346, R347); log entries 2, 41. -/
opaque portSignals : Nat → Nat → Bool × Bool × Option (BitVec 64)

/-- What the fabric design answers to a request it decodes: its data; none where it does not decode the address (R33); log entry 2. -/
opaque designReply : Nat → Nat → Option (BitVec 64)

/-- Whether the fabric design leaves a request that it accepted unanswered (R349); log entry 2. -/
opaque designSilent : Nat → Bool

/-- A contiguous choice the spec leaves to a race: whether it falls the first way (R264); log entry 2. -/
opaque raceFirst : Nat → Bool

/-- The directory set of a line, and the way reused when a set is full, of which the spec gives no rule (R271). -/
opaque dirSet : Nat → Nat
@[inherit_doc dirSet] opaque dirVictim : Nat → Nat

/-- Fields of a CTL payload, of which the spec gives no layout (R300): 0 acknowledged SEQ, 1 the NAK bit, 2 its SEQ, 3–6 the freed counts of EV,
RED, MSG VC0 and VC1, 7 the epoch. -/
opaque ctlField : Nat → Nat → Nat

/-- Fields of an LMF payload, of which the spec gives no layout (R308): 0 whether it steers a lane, 1 the lane, 2 the spare, 3 to the spare or
back, 4 for good. -/
opaque lmfField : Nat → Nat → Nat

/-- The payloads of a CTL and of an LMF flit, of which the spec gives no layout (R300, R308). -/
opaque ctlPayload : CtlFlit → BitVec 512
@[inherit_doc ctlPayload] opaque lmfPayload : LmfSteer → BitVec 512

/-- The payload of a time LMF, by its place among the free values (R319). -/
opaque timeLmf : Nat → BitVec 512

/-- The symbols of the alignment codeword of a code, of which the spec gives no contents (R298). -/
opaque alignWord : Nat → List Nat

end Sys2Proof.Config
end

