-- ==== Sys2Proof/Machine/Regs.lean ====
section
/-! DEFINITION. The control-register maps: where each register lies, its reset value, its RW and its W1C bits (R15, R17, R32).
Fields whose value the state fixes elsewhere (computed RO fields) are formed when the register is read. -/
namespace Sys2Proof.Machine

/-- A register or an array of registers of one page. -/
structure RegDef where
  off : Nat
  /-- how many, and how far apart -/
  cnt : Nat := 1
  stride : Nat := 8
  /-- 64-bit register -/
  wide : Bool := false
  reset : Nat := 0
  rw : Nat := 0
  w1c : Nat := 0

/-- Pages of an array of pages: its first page and their number (Table SYS-6). -/
def pageIn (page first n : Nat) : Bool := decide (first ≤ page) && decide (page < first + n)

/-- SEQs registers (R119, R138, R224). -/
def seqRegs : List RegDef :=
  [ { off := 0x20, rw := 0x3f }, { off := 0x28, reset := 8, rw := 0xf }, { off := 0x30, rw := 0xffffffff }
  , { off := 0x34, rw := 0xffffffff }, { off := 0x38, w1c := 0x40000000 }, { off := 0x3c }
  , { off := 0x800, cnt := 12, stride := 4 }, { off := 0x840, reset := 0xf0, rw := 0xff }, { off := 0x848, rw := 0xffffffc1 }
  , { off := 0x84c, rw := 0xff }, { off := 0x850, w1c := 0xc0000000 }, { off := 0x854 }, { off := 0x858 }
  , { off := 0x860, reset := 0x1000000, w1c := 0x80000000 } ]

/-- ICUn registers; the machine-check queue is ICU5's alone (R239). -/
def icuRegs (n : Nat) : List RegDef :=
  (if n = 5 then [ { off := 0x20, wide := true }, { off := 0x28, w1c := 0x80000000 } ] else [])
  ++ [ { off := 0, reset := 4, rw := 7, w1c := 0x80000000 }, { off := 8 }, { off := 0x10 }, { off := 0x18 }
  , { off := 0x100, cnt := 32, stride := 4, rw := 0xffffffff }, { off := 0x200, cnt := 32, stride := 4, rw := 0xffffffff }
  , { off := 0x300, cnt := 32, stride := 4 }, { off := 0x1000, cnt := 1022, stride := 4, reset := 0x10000, rw := 0x87ff00ff }
  , { off := 0x2000, cnt := 1022, stride := 4, rw := 0xff }, { off := 0x3000, cnt := 1022, stride := 4, rw := 0xffff } ]

/-- The maps of the pages below 0x0010. -/
def lowRegs (page : Nat) : List RegDef :=
  match page with
  | 0x0 => [ { off := 0x10 }, { off := 0x18, reset := 2 }, { off := 0x20 } ]
  | 0x1 => [ { off := 0, reset := 1 }, { off := 8, reset := 0xf, rw := 0x1f }, { off := 0x10, reset := 7, rw := 7 } ]
  | 0x2 => [ { off := 0, wide := true }, { off := 8 }, { off := 0x10, reset := 0x3e8, rw := 0x3ffffff }, { off := 0x14, w1c := 0x18000000 }
           , { off := 0x18, rw := 0xffffffff }, { off := 0x1c }, { off := 0x20, wide := true }
           , { off := 0x28, wide := true, rw := 0xffffffffffffffff }
           , { off := 0x30, wide := true, reset := 0x61a800000000, rw := 0xc003ffffffffffff }
           , { off := 0x38, wide := true, w1c := 0x8000000000000000 } ]
  | 0x3 => [ { off := 0 }, { off := 8, wide := true }, { off := 0x10, w1c := 0x7ff }, { off := 0x18, reset := 0x8055a, rw := 0x3cffff }
           , { off := 0x20, w1c := 0x80000000 }, { off := 0x30, w1c := 0x80000000 }, { off := 0x38 }, { off := 0x40, wide := true }
           , { off := 0x100, cnt := 4, wide := true, rw := 0x800fffff000fffff } ]
  | 0x4 => [ { off := 0 }, { off := 8, wide := true } ]
  | 0x5 => [ { off := 0 }, { off := 8 }, { off := 0x100, cnt := 8, stride := 4 }, { off := 0x200, cnt := 16, stride := 4 }
           , { off := 0x400, cnt := 128, stride := 4 } ]
  | 0x6 => [ { off := 0, reset := 0x47, rw := 0xf7 }, { off := 8, reset := 0xc0808040, rw := 0xffffffff }
           , { off := 0x10, reset := 0xe10, rw := 0xffff }, { off := 0x18, rw := 0x1fff1ff }, { off := 0x1c, reset := 0x1ff0000 }
           , { off := 0x20, reset := 0x800000, w1c := 0xc0000000 }, { off := 0x24, reset := 0x10800 }, { off := 0x28, w1c := 0xc0000000 } ]
  | 0x7 => [ { off := 0 }, { off := 8, wide := true, w1c := 0x8000000000000000 }, { off := 0x10 }
           , { off := 0x18, reset := 0x80000003, rw := 0x8000000f } ]
  | 0x8 => [ { off := 8, w1c := 0xf0000000 }, { off := 0x10 }, { off := 0x18, reset := 720, rw := 0xffff }, { off := 0x20, reset := 0xbb8, rw := 0xfff }
           , { off := 0x28, wide := true }, { off := 0x100, cnt := 33, rw := 0x2000ffff, reset := 0x3e8 }
           , { off := 0x300, cnt := 33, wide := true } ]
  | 0x9 => [ { off := 0, rw := 0xff, w1c := 0x200 }, { off := 0x100, cnt := 4, reset := 0x55, rw := 0xff }
           , { off := 0x200, cnt := 4, rw := 0x1fff0fff, w1c := 0x80000000 }, { off := 0x300, cnt := 4, w1c := 4 }
           , { off := 0x400, cnt := 32, rw := 0x80000fff } ]
  | _ => []

/-- The maps of the pages from 0x0010 upwards. SEAMe_LANE32 and SEAMe_LANE33 would lie at 0x0200 and 0x0208, where SEAMe_CNT and SEAMe_TSD lie: those
offsets are CNT and TSD, and the two lanes' registers are kept under page 0x2030 + e, which no address reaches (R320; log entry 33). -/
def highRegs (page : Nat) : List RegDef :=
  if pageIn page 0x10 5 then { off := 0 } :: seqRegs ++ [ { off := 0x880 }, { off := 0x888 } ]
  else if pageIn page 0x18 6 then icuRegs (page - 0x18)
  else if pageIn page 0x20 4 then
    [ { off := 0, rw := 0xffffffc0 }, { off := 4, rw := 0xff }, { off := 8 }, { off := 0x10, w1c := 0xc0000000 }, { off := 0x14 }
    , { off := 0x18, reset := 0x4a, rw := 0xff } ]
  else if pageIn page 0x24 4 then
    [ { off := 0 }, { off := 4 }, { off := 8, wide := true, w1c := 0x8000000000000000 }, { off := 0x10, reset := 0x18, rw := 0xffff } ]
  else if pageIn page 0x30 4 then
    [ { off := 0, reset := 0x8380, rw := 0xf3c3 }, { off := 8, reset := 0x3c, rw := 0xfff }, { off := 0x10, w1c := 0xfc000000 }
    , { off := 0x100, cnt := 32, wide := true }, { off := 0x200, wide := true }, { off := 0x208 } ]
  else if pageIn page 0x2030 4 then [ { off := 0x100, cnt := 2, wide := true } ]
  else if page = 0x34 then
    [ { off := 0, rw := 0xffff }, { off := 8, reset := 0x12c000c, rw := 0x81ff000f }, { off := 0x10, rw := 0xff007 }
    , { off := 0x18, rw := 0x1ff0003 }, { off := 0x20 }, { off := 0x28, w1c := 0xe0000000 }
    , { off := 0x30, wide := true, rw := 0xfffff0fffffff000 }, { off := 0x38, wide := true, rw := 0xfffff0fffffff000 }
    , { off := 0x40 }, { off := 0x48, wide := true, w1c := 0x8000000000000000 } ]
  else if page = 0x38 then
    [ { off := 0x10, rw := 0xffff }, { off := 0x1000, rw := 0xff }, { off := 0x1100, w1c := 0xf }, { off := 0x1108 } ]
  else if page = 0x40 then
    [ { off := 0, reset := 0x203e8, rw := 0x33fff }, { off := 8 }, { off := 0xc, w1c := 0xe0000000 }, { off := 0x10, rw := 0x3ff }
    , { off := 0x14, rw := 0xb }, { off := 0x18, reset := 0x10, rw := 0xff }, { off := 0x40, cnt := 4, wide := true }
    , { off := 0x100, cnt := 16, stride := 4, w1c := 0xff }, { off := 0x140 }
    , { off := 0x200, cnt := 16, wide := true, rw := 0xffffffffffff0000 } ]
  else if page = 0x41 then
    [ { off := 0, cnt := 32, stride := 0x40, rw := 0xffff8000, w1c := 0x4000 }, { off := 4, cnt := 32, stride := 0x40, rw := 0xffffffff }
    , { off := 8, cnt := 32, stride := 0x40, reset := 0xffff, rw := 0xffff }
    , { off := 0x10, cnt := 32, stride := 0x40, wide := true, rw := 0xffffffffff }
    , { off := 0x18, cnt := 32, stride := 0x40, wide := true, reset := 0xffffffffff, rw := 0xffffffffff }
    , { off := 0x20, cnt := 32, stride := 0x40, wide := true }, { off := 0x28, cnt := 32, stride := 0x40 } ]
  else if page = 0x48 then
    [ { off := 0, reset := 2, rw := 3 }, { off := 8 }, { off := 0x10, wide := true, rw := 0xffffffffc0 }, { off := 0x20, w1c := 0xfc000000 }
    , { off := 0x28 }, { off := 0x30, wide := true }, { off := 0x38, reset := 0xa, rw := 0xffff }, { off := 0x40 }, { off := 0x48 }
    , { off := 0x50, reset := 0xc8 } ]
  else if page = 0x4c then
    [ { off := 0, rw := 0xff00ff00 }, { off := 8, w1c := 0x60000000 }, { off := 0x10 }, { off := 0x18, wide := true } ]
  else if page = 0x4d then [ { off := 0, rw := 0x8000ff7f }, { off := 8, w1c := 0xc0000000 }, { off := 0x10 } ]
  else if page = 0x4e then
    [ { off := 0, cnt := 2, wide := true, reset := 0x320035202ee00050, rw := 0xffffffffffff }, { off := 0x10, w1c := 0xc0000000 } ]
  else if pageIn page 0x100 64 then
    [ { off := 0, reset := 6, rw := 0x3f }, { off := 8, reset := 0x3e800, rw := 0xffff00 }, { off := 0x10, reset := 0x80, w1c := 0xfc000000 }
    , { off := 0x18 }, { off := 0x20, reset := 0x80000e10, rw := 0x8000ffff } ]
  else []

/-- The registers of a page; the pages of the host block and its doorbells have maps of their own (R295). -/
def pageRegs (page : Nat) : List RegDef := if page < 0x10 then lowRegs page else highRegs page

/-- Whether offset off falls on word 0 or word 1 of a register of the definition. -/
def RegDef.word (d : RegDef) (off : Nat) : Option Nat :=
  if d.off ≤ off ∧ (off - d.off) / d.stride < d.cnt then
    let o := (off - d.off) % d.stride
    if o = 0 then some 0 else if d.wide ∧ o = 4 then some 1 else none
  else none

/-- The definition and word at an offset, if a register occupies it. -/
def findReg : List RegDef → Nat → Option (RegDef × Nat)
  | [], _ => none
  | d :: ds, off => match d.word off with
    | some w => some (d, w)
    | none => findReg ds off

/-- The register word at a control-space offset (page × 65,536 + offset). -/
def regAt (a : Nat) : Option (RegDef × Nat) := findReg (pageRegs (a / 65536)) (a % 65536)

/-- Reset of SEAMe_LANEk: SERVES = k for k ≤ 31, 0x7F for the spares, BERX 255, STATE active or spare (R320). -/
def laneReset (k w : Nat) : Nat :=
  if w = 0 then 0 else (if k < 32 then k * 2 ^ 24 else 0x7f000000) + 0xff00

/-- The reset value of the control-register word at a control-space offset. -/
def regReset (a : Nat) : Word :=
  match regAt a with
  | none => 0
  | some (d, w) =>
    if (pageIn (a / 65536) 0x30 4 ∨ pageIn (a / 65536) 0x2030 4) ∧ d.off = 0x100 then
      BitVec.ofNat 32 (laneReset (if a / 65536 < 0x2030 then (a % 65536 - 0x100) / 8 else a % 65536 / 8) w)
    else if a / 65536 = 8 ∧ d.off = 0x100 then
      -- PGEN is 1 in S0–S4, H0–H3, L0–L3 and F (Table PWR-1)
      let dom := (a % 65536 - 0x100) / 8
      BitVec.ofNat 32 (d.reset + (if (16 ≤ dom ∧ dom ≤ 28) ∨ dom = 30 then 2 ^ 29 else 0))
    else BitVec.ofNat 32 (d.reset / 2 ^ (32 * w))

end Sys2Proof.Machine
end

