-- ==== Sys2Proof/Machine/StCore.lean ====
section
/-! DEFINITION. State of the Decley cores, interrupt timers, scratchpad banks, rings and directory (chapters 08–11, 19). -/
namespace Sys2Proof.Machine

/-- Ring response status, in the order of the codes 0x0–0x8 (Table RING-4). -/
inductive RStat where
  | ok | unmapped | notReady | notOwner | bankOff | dataError | collision | targetIsolated | retryExhausted
  deriving DecidableEq, Repr

/-- The code of a status (Table RING-4). -/
def RStat.code : RStat → Nat
  | .ok => 0 | .unmapped => 1 | .notReady => 2 | .notOwner => 3 | .bankOff => 4 | .dataError => 5
  | .collision => 6 | .targetIsolated => 7 | .retryExhausted => 8

/-- A memory segment register (Table DCY-1): base, limit and rights. -/
structure Segment where
  base : BitVec 40
  lim : BitVec 33
  r : Bool
  w : Bool
  x : Bool
  deriving DecidableEq, Repr

/-- A segment at reset. -/
def Segment.zero : Segment := ⟨0, 0, false, false, false⟩

/-- A divide in flight: its results and the offset of the divide (R198, R209). -/
structure DivFlight where
  quo : Word
  rem : Word
  d : Bool
  v : Bool
  off : Word
  deriving DecidableEq, Repr

/-- An array instruction as pushed: absolute addresses and captured values (R62, R64, R92). -/
structure QEntry where
  op : Byte
  /-- n − 1 -/
  len : BitVec 6
  a : BitVec 12
  b : BitVec 12
  d : BitVec 12
  mode : BitVec 4
  mod : Byte
  /-- 0 partition, 1 device, 2 system (R75) -/
  scope : BitVec 2
  beta : Dword
  /-- the care mask of MATCH.MASKED (R70, R101) -/
  care : Dword
  /-- entry μPC of a fabric plane function (R82, R85) -/
  entry : BitVec 15
  lo : BitVec 13
  hi : BitVec 13
  klen : BitVec 13
  kbase : BitVec 12
  deriving DecidableEq, Repr

/-- n. -/
def QEntry.n (q : QEntry) : Nat := q.len.toNat + 1

/-- How far a coprocessor request is: it waits for CQ_RDY, it is outstanding at the port, or the port has closed on it (R346). -/
inductive CopStage where
  | waiting | sent | dropped
  deriving DecidableEq, Repr

/-- What a core waits for at the instruction its PC names (R104, R198, R201, R205, R222, R62 step 5). -/
inductive CoreWait where
  /-- SYNC with its mask -/
  | sync (mask : BitVec 4)
  /-- APRE with its destination -/
  | apre (d : Reg)
  | wfi
  /-- a divide issued while DB = 1: whether signed, and its operands' registers -/
  | divider (sgn : Bool) (a b : Reg)
  /-- an array push stalled on a full queue or lane, with what it pushes -/
  | push (q : QEntry)
  /-- a coprocessor request: tag, destination, what the port sends: FUNC, A, B, IMM, and how far it is (R222, R346) -/
  | cop (tag : BitVec 4) (d : Reg) (func : BitVec 6) (a b : Word) (imm : Byte) (at_ : CopStage)
  deriving DecidableEq, Repr

/-- Whether a core runs. -/
inductive CoreRun where
  /-- held in reset until SYS_RST.RUN (R376) -/
  | held
  | running
  | waiting (w : CoreWait)
  /-- after a double fault (R218) -/
  | halted
  deriving DecidableEq, Repr

/-- A repeat prefix in progress (R220): REPN takes no interrupt; the repeated instruction, first parcel highest, and its length in bytes. -/
structure Repeat where
  noInt : Bool
  word : Dword
  len : Nat
  /-- iterations that may still begin before an interrupt stops the prefix, where one is to (R220) -/
  limit : Option Nat
  deriving DecidableEq, Repr

/-- Registers of a Decley core (Table DCY-1), with its results in flight. -/
structure Core where
  /-- g0–g15; g0 is never written (R193) -/
  g : Table Word
  pc : Word
  sp : Word
  rc : Word
  ri : Word
  /-- SEQs_SR: the stored fields; MB, DB, RB and AB are computed (R199) -/
  sr : Word
  vb : Word
  plo : Word
  phi : Word
  quo : Word
  rem : Word
  w : Dword
  t : Dword
  f : Word
  /-- hold registers of the pairs P, QR, W, T (R197) -/
  holdP : Word
  holdQR : Word
  holdW : Word
  holdT : Word
  cs : Segment
  ds : Segment
  ss : Segment
  xs : Segment
  asBase : BitVec 12
  asLim : BitVec 13
  asR : Bool
  asW : Bool
  bkey : Table Dword
  bcare : Table Dword
  /-- products in flight, oldest first (R198) -/
  muls : List Dword
  /-- the divide in flight (R198) -/
  div : Option DivFlight
  /-- divides' traps not yet taken, oldest first: vector and offset of the divide (R209) -/
  traps : List (Nat × Word)
  run : CoreRun
  /-- a repeat prefix stands at the PC and its iterations are in progress: whether it is REPN, and the repeated instruction -/
  rep : Option Repeat
  /-- TAG counter of the coprocessor port (R346) -/
  copTag : BitVec 4
  /-- times of the double faults recorded, newest first (R433) -/
  dfTimes : List Nat
  /-- the first instruction after a reset has issued (R433) -/
  started : Bool
  deriving DecidableEq, Repr

/-- A core at reset (Table DCY-1). -/
def Core.reset : Core :=
  { g := [], pc := 0, sp := 0, rc := 0, ri := 0, sr := 0, vb := 0, plo := 0, phi := 0, quo := 0, rem := 0, w := 0, t := 0
    f := 0, holdP := 0, holdQR := 0, holdW := 0, holdT := 0, cs := .zero, ds := .zero, ss := .zero, xs := .zero
    asBase := 0, asLim := 0, asR := false, asW := false, bkey := [], bcare := [], muls := [], div := none, traps := []
    run := .held, rep := none, copTag := 0, dfTimes := [], started := false }

/-- A coalescing timer (R230): when it runs, the time in nanoseconds at which it started. -/
abbrev Timer := Option Nat

/-- An entry of the error log (Table LIFE-4). -/
structure ErrEntry where
  time : Dword
  cls : Byte
  sev : Byte
  block : BitVec 16
  code : Word
  d0 : Dword
  d1 : Dword
  deriving DecidableEq, Repr

/-- The all-zero entry. -/
def ErrEntry.zero : ErrEntry := ⟨0, 0, 0, 0, 0, 0, 0⟩

/-- The entry as a 32-byte number (Table LIFE-4). -/
def ErrEntry.word (e : ErrEntry) : Nat :=
  e.time.toNat + e.cls.toNat * 2 ^ 64 + e.sev.toNat * 2 ^ 72 + e.block.toNat * 2 ^ 80 + e.code.toNat * 2 ^ 96
    + e.d0.toNat * 2 ^ 128 + e.d1.toNat * 2 ^ 192

/-- The error state of a stored word or frame: correctable or not (R254, R336). -/
inductive Flaw where
  | none | correctable | uncorrectable
  deriving DecidableEq, Repr

/-- A power command of a bank that waits (R248). -/
inductive BankCmd where
  | retention | off | on
  deriving DecidableEq, Repr

/-- A row test in progress (R252): the row, its eight words, which of them are poisoned. -/
structure RowTest where
  row : Nat
  buf : List (Dword × Bool)
  deriving DecidableEq, Repr

/-- A scratchpad bank beside its registers and contents. -/
structure Bank where
  /-- code of the handover in progress (R245) -/
  newOwner : Option (BitVec 6)
  /-- port-A requests held by a handover, oldest first (R245) -/
  held : List BankReq
  /-- accesses stalled for a wake or a restore, oldest first; true on port B (R247, R252) -/
  stalled : List (Bool × BankReq)
  /-- commands that act after a row test or a wake, in the order in which they were written (R248) -/
  cmds : List BankCmd
  /-- wake from RETENTION in progress -/
  waking : Bool
  test : Option RowTest
  /-- redirections in the order they were made: row, spare row (R255) -/
  redir : List (Nat × Nat)
  /-- rows in which an uncorrectable word was found, at the front of the test order (R253) -/
  first : List Nat
  deriving DecidableEq, Repr

/-- A bank at reset. -/
def Bank.reset : Bank :=
  { newOwner := none, held := [], stalled := [], cmds := [], waking := false, test := none, redir := [], first := [] }

/-- A memory stack beside its contents (R144, R361, R383): refresh rate in quarters of the nominal interval (4, 2, 1), half its line slots
granted, failed training at B4, ECS results last read. -/
structure Stack where
  interval : Nat
  slow : Bool
  failed : Bool
  ecs : Dword
  /-- the stack is in self-refresh, where it sets its own interval (R353, R361) -/
  refresh : Bool
  /-- the line at which its scrub goes on (R144, R353) -/
  scrub : Nat
  deriving DecidableEq, Repr

/-- A stack at reset. -/
def Stack.reset : Stack := ⟨4, false, false, 0, false, 0⟩

/-- What a ring packet asks for (Table RING-3, R259). -/
inductive RingOp where
  | rd (size : Size)
  | wr (size : Size) (v : Dword)
  | wrp (size : Size) (v : Dword)
  | rdl (lines : Size)
  | wrl (data : List (BitVec 512)) (posted : Bool)
  | rds | rdx | upg
  | wbk (v : BitVec 512)
  | evs
  deriving DecidableEq, Repr

/-- What a packet carries: a request, or what answers one (R257, R259, R260, R270, R271). -/
inductive Cargo where
  | req (op : RingOp)
  /-- a response on RSP, with up to 8 bytes of narrow read data -/
  | rsp (st : RStat) (data : List Byte)
  /-- line read data on DAT -/
  | lines (data : List Byte)
  /-- the notices of RSP VC1 -/
  | dlv | retry
  /-- a snoop, invalidating or downgrading, and its response -/
  | snoop (inval : Bool)
  | snoopRsp
  deriving DecidableEq, Repr

/-- Where a packet is. -/
inductive Stage where
  /-- at its source port, not injected -/
  | waiting
  /-- injected -/
  | flying
  /-- cut by a retirement; its source has not received RETRY (R270) -/
  | cut
  /-- at a destination stop whose wake buffer is full (R264) -/
  | parked
  /-- in the wake buffer of its port (R264) -/
  | held
  /-- delivered; its response or DLV has not reached the source -/
  | served
  deriving DecidableEq, Repr

/-- A packet of which its source port keeps a copy (R270). -/
structure Packet where
  tag : Nat
  /-- the request that it answers or concerns; a request's own tag -/
  ref : Nat
  /-- the initiator of the request; the agent, on SNP -/
  init : Initiator
  net : Net
  sstop : StopId
  sport : Nat
  dstop : StopId
  dport : Nat
  addr : BitVec 40
  cargo : Cargo
  prio : Nat
  /-- the ring it was injected on -/
  ring : Nat
  /-- resends so far (R270) -/
  resends : Nat
  /-- flits not yet injected (R263) -/
  left : Nat
  stage : Stage
  /-- a request that has been answered, or whose DLV has been received -/
  answered : Bool
  /-- the parts of its response that have arrived: status, and data -/
  status : Option RStat
  data : Option (List Byte)
  /-- its response is discarded (R342) -/
  discard : Bool
  deriving DecidableEq, Repr

/-- A response as its source port received it (R260). -/
structure Response where
  tag : Nat
  status : RStat
  data : List Byte
  deriving DecidableEq, Repr

/-- State of a line in the directory (R271): the holders, whether one holds it alone, and of a dirty line (M) what memory holds in its stead, the contents last
written back (R376). -/
structure DirLine where
  holders : BitVec 6
  excl : Bool
  old : Option (BitVec 512)
  deriving DecidableEq, Repr

/-- A line no agent holds. -/
def DirLine.none : DirLine := ⟨0, false, .none⟩

/-- A line that its holder holds dirty (M). -/
def DirLine.dirty (l : DirLine) : Bool := l.old.isSome

/-- The transaction in which the directory holds a line: its request and the agents whose snoop responses are awaited. -/
structure DirTxn where
  req : Packet
  await : BitVec 6
  deriving DecidableEq, Repr

/-- A line's transaction in progress and the requests that wait for it, oldest first (R271). -/
structure DirBusy where
  now : Option DirTxn
  queue : List Packet
  deriving DecidableEq, Repr

/-- A route-table entry (R266). -/
structure Route where
  v : Bool
  ring : Nat
  deriving DecidableEq, Repr

/-- An activity of Table LIFE-2 running or asking to start: its kind, resource and argument. -/
structure Activity where
  kind : Nat
  /-- cluster, bank, edge, network, quadrant: the unit it concerns (tile × 64 + cluster for a cluster) -/
  unit : Nat
  /-- further units: the edges of a seam flip -/
  units : List Nat
  arg : Word
  deriving DecidableEq, Repr

end Sys2Proof.Machine
end

