-- ==== Sys2Proof/Machine/StArray.lean ====
section
/-! DEFINITION. State of the array, its sequencing, the corner-turn engines and the lamplighter (chapters 02–07). -/
namespace Sys2Proof.Machine

/-- Micro-state of an executing or suspended instruction (R92). -/
structure Routine where
  q : QEntry
  /-- from the preemption lane -/
  lane : Bool
  upc : BitVec 15
  ar : Table (BitVec 12)
  lc : Table (BitVec 16)
  beta : Dword
  /-- microwords issued (R99) -/
  issued : Nat
  /-- parts of a vendor routine already run: the steps and passes of MUL, MULW and DIV, the rows of HASH.KR, the microwords of NMOV; a routine of
  one part that waits with its offering microword has run 1 (R79, R97) -/
  steps : Nat
  /-- microwords of the present part that issued before a word of it failed its parity, and the planes that they read, oldest first (R114) -/
  inPart : Nat := 0
  reads : List Plane := []
  /-- the routine runs word by word from the microstore: a user routine, or a vendor routine of which the management core has replaced words -/
  byWord : Bool
  deriving DecidableEq, Repr

/-- What suspension left (R105): a routine, or a boundary. -/
inductive Frame where
  | boundary
  | routine (r : Routine)
  deriving DecidableEq, Repr

/-- A sequencer's array side. -/
structure Seq where
  /-- the array queue, oldest first (R62, R66) -/
  queue : List QEntry
  qHalt : Bool
  /-- the preemption lane (R106) -/
  lane : List QEntry
  lHalt : Bool
  run : Option Routine
  /-- the suspended frame: ARR_PSTATp.SUSP is 1 while there is one and ARES has not executed (R105) -/
  frame : Option Frame
  /-- ARES has executed, and the frame is restored once the lane has emptied (R108) -/
  resuming : Bool
  /-- a fetched microword failed its parity: the routine stalls until its reload (R114, R115) -/
  badWord : Bool
  /-- that error is a repeat (R116) -/
  again : Bool
  /-- the array queue is flushed once the instruction that executes has completed (R294) -/
  flush : Bool
  /-- readout assembly register (R127) -/
  asm : Dword
  /-- per initiator code: slot and words stored in the assembly buffers (R88) -/
  buf0 : Table (Nat × Dword)
  buf1 : Table (Nat × Dword)
  /-- a user-region word is not used before the next instruction boundary after its commit (R88) -/
  newWords : Table (BitVec 165)
  /-- spare rows in use: μPC, row (R116) -/
  redir : List (Nat × Nat)
  /-- μPCs that have had a parity error since reset (R116) -/
  hadError : List Nat
  deriving DecidableEq, Repr

/-- An instruction is suspended inside. -/
def Seq.inside (x : Seq) : Bool := match x.frame with | some (.routine _) => true | _ => false

/-- A sequencer's array side at reset. -/
def Seq.reset : Seq :=
  { queue := [], qHalt := false, lane := [], lHalt := false, run := none, frame := none, resuming := false, badWord := false, again := false, flush := false, asm := 0
    buf0 := [], buf1 := [], newWords := [], redir := [], hadError := [] }

/-- A tree offer that has not landed (R126–R136). -/
structure Offer where
  scope : BitVec 2
  /-- exception class: RSRC = E (R127) -/
  exc : Bool
  pos : BitVec 6
  fin : Bool
  fclr : Bool
  /-- the PEs offering 1 -/
  bits : Plane
  /-- the matched result of a device or system offer (R132, R136): wick 0 or 1, count, or F -/
  got : Option Nat
  /-- part of the device result that a combination at system scope takes in: the combination's result is its own (R136, R311) -/
  joined : Bool
  deriving DecidableEq, Repr

/-- Tree offers of a partition in flight, oldest first. -/
structure Trees where
  wick : List Offer
  count : List Offer
  first : List Offer
  deriving DecidableEq, Repr

/-- No offer. -/
def Trees.none : Trees := ⟨[], [], []⟩

/-- A map entry of a plane transfer descriptor (Table PIO-3). -/
structure MapEntry where
  ord : BitVec 2
  sx : Bool
  daddr : BitVec 12
  /-- bits -/
  dlen : Nat
  slen : Nat
  srcbit : Nat
  deriving DecidableEq, Repr

/-- A line of an OUT transfer: the bits that the captured planes give, and which they are. -/
structure OutLine where
  addr : Nat
  mask : BitVec 512
  data : BitVec 512
  deriving DecidableEq, Repr

/-- A transfer in progress in a partition (R152–R160). -/
structure Transfer where
  base : Table (BitVec 40)
  cnt : Table Nat
  stride : Nat
  sstride : Nat
  out : Bool
  manual : Bool
  pad : Bool
  keep : Bool
  merge : Bool
  fab : Bool
  map : List MapEntry
  /-- presentations swapped (IN) or captured (OUT) -/
  pres : Nat
  /-- passes that each engine has sent to its turn stores (IN) or written (OUT), by engine (R154) -/
  sent : Table Nat
  /-- the line buffer of each engine: the lines read of the pass after those (IN), or the lines drained and not yet written (OUT) (R139, R154) -/
  buf : Table (List (BitVec 512))
  out_ : Table (List OutLine)
  /-- passes whose captured planes each engine has drained from its turn stores (OUT, R154) -/
  drained : Table Nat
  /-- the planes in the turn store, by presentation number -/
  turn : Table Plane
  /-- quadrants that have still to capture the plane swapped out (R156) -/
  capture : BitVec 4
  /-- the next swap restores the row at this address (R156) -/
  restore : Option (BitVec 12)
  /-- quadrants whose ready marking after a restore swap is due (R156) -/
  mark : BitVec 4
  /-- quadrants whose zeroing at GO waits for an unstalled ac (R51, R156) -/
  zero : BitVec 4
  /-- cancelled while the captured planes of its present pass, FAB = 1, still pass through the fabric (R160) -/
  ending : Bool
  /-- a held failure: the failing pass and its code (R160) -/
  fail : Option (Nat × Nat)
  /-- key load: the map may enter the key segment (R404) -/
  key : Bool
  /-- the queue whose job started it -/
  job : Option Nat
  deriving DecidableEq, Repr

/-- A column migration in progress (R178). -/
structure Migration where
  /-- physical cluster: tile × 66 + number -/
  pc : Nat
  lcol : Nat
  p : Nat
  q : Nat
  /-- rows read -/
  row : Nat
  /-- the row read and not yet written to Q -/
  copy : Option Nat
  ended : Bool
  deriving DecidableEq, Repr

/-- A cluster substitution in progress (R184). -/
structure Substitution where
  tile : Nat
  cl : Nat
  target : Nat
  row : Nat
  copy : Option Nat
  ended : Bool
  deriving DecidableEq, Repr

/-- A record of the repair maps (R442). -/
inductive RepairRec where
  | column (pc lcol q p : Nat)
  | cluster (tile cl target : Nat)
  | microRow (s upc row : Nat)
  | bankRow (b row spare : Nat)
  | lane (e lane spare : Nat)
  | fabColumn (region col spare : Nat)
  deriving DecidableEq, Repr

/-- The array and the lamplighter. -/
structure ArrState where
  /-- PE registers, bit y × 1,024 + x (Table PE-1) -/
  x : Plane
  c : Plane
  k : Plane
  e : Plane
  n : Plane
  /-- shadow bits and readiness per logical cluster (R36, R55) -/
  sh : Plane
  ready : ClusterSet
  /-- array memory: bit address to plane -/
  mem : Table Plane
  /-- error vectors of stored rows: (physical cluster × 4,096 + row) to the columns stored wrong (R165, R166) -/
  rowErr : Table (BitVec 288)
  /-- the shape that takes effect (R23) -/
  newShape : Option Byte
  /-- a mode written and not yet in effect, by partition (R84) -/
  newEdge : Table (Option Byte)
  /-- edge modes in effect, by partition (R84) -/
  edge : Table Byte
  /-- the sequencer S4 stands in for (R25) -/
  takeover : Option Quad
  /-- sequencers that failed while S4 stood in for another (R25) -/
  failed : BitVec 4
  /-- tree offers by partition -/
  trees : Table Trees
  /-- PEs whose K a landed FCLR clears in the first cycle in which their partition is not stalled, by partition (R131) -/
  clr : Table Plane
  /-- transfers by partition (its lowest quadrant) -/
  transfers : Table (Option Transfer)
  /-- correction counters: physical cluster × 304 + column (R174) -/
  colCnt : Table (BitVec 16)
  /-- physical column of a logical one: physical cluster × 288 + column -/
  colMap : Table Nat
  /-- retired physical columns: physical cluster × 304 + column -/
  colRet : Table Bool
  /-- physical cluster that answers for a logical one: tile × 64 + number (R185) -/
  subst : Table Nat
  candidates : List (Nat × Nat)
  migrations : List Migration
  substs : List Substitution
  /-- pending write-backs: physical cluster, row (R173) -/
  writeBacks : List (Nat × Nat)
  /-- next row of the scrub pass by quadrant, and of clusters a copy has delayed; 4,096 when none runs (R172) -/
  scrubRow : Table Nat
  scrubLate : Table Nat
  /-- uncorrectable rows of a physical cluster in the present window (R183) -/
  ueWin : Table (List Nat)
  /-- needs for which no spare was found: physical cluster, and the column, or 304 for the cluster itself (R186) -/
  exh : List (Nat × Nat)
  deriving DecidableEq, Repr

/-- The default of `colMap`: a logical column's own physical column. -/
def colMap0 (k : Nat) : Nat := k % 288

/-- The default of `subst`: a cluster's own number. -/
def subst0 (k : Nat) : Nat := k % 64

/-- The array at reset (R36). -/
def ArrState.reset : ArrState :=
  { x := 0, c := 0, k := BitVec.allOnes _, e := 0, n := 0, sh := 0, ready := 0, mem := [], rowErr := [], newShape := none
    newEdge := [], edge := [], takeover := none, failed := 0, trees := [], clr := [], transfers := [], colCnt := [], colMap := []
    colRet := [], subst := [], candidates := [], migrations := [], substs := [], writeBacks := [], scrubRow := []
    scrubLate := [], ueWin := [], exh := [] }

end Sys2Proof.Machine
end

