-- ==== Sys2Proof/Machine/StFab.lean ====
section
/-! DEFINITION. State of the Yunaene fabric, its loader, flash and ports (chapter 14). -/
namespace Sys2Proof.Machine

/-- What the design drives at a coprocessor port (Table FAB-9, R346, R347). -/
structure MicroPort where
  /-- UP_RDY, and CQ_RDY -/
  rdy : Bool
  cq : Bool
  /-- values the design offers with UF_V, oldest first -/
  offered : List Dword
  deriving DecidableEq, Repr

/-- A port with no design behind it. -/
def MicroPort.none : MicroPort := ⟨false, false, []⟩

/-- A configuration frame: 512 data bits as they were written, and the bits of its codeword of 68 bytes that upsets have turned over, the data's low (R326, R344). -/
structure Frame512 where
  data : BitVec 512
  upset : BitVec 544
  deriving DecidableEq, Repr

/-- A frame of zeros. -/
def Frame512.zero : Frame512 := ⟨0, 0⟩
/-- A frame's data as the fabric has them now. -/
def Frame512.now (f : Frame512) : BitVec 512 := f.data ^^^ f.upset.setWidth 512
/-- What the code finds of it: RS(68,64) corrects 2 symbols; more are found uncorrectable (R344; log entry 41). -/
def Frame512.flaw (f : Frame512) : Flaw :=
  match ((List.range 68).filter (fun i => f.upset.toNat / 256 ^ i % 256 != 0)).length with
  | 0 => .none
  | 1 => .correctable
  | 2 => .correctable
  | _ => .uncorrectable

/-- A load: image address, REGION and, for a job, its queue and the length it gives (R340); or a reload after an uncorrectable frame (R344). -/
structure FabLoad where
  image : Dword
  region : BitVec 16
  job : Option (Nat × Nat)
  reload : Bool
  deriving DecidableEq, Repr

/-- A UART: framing, and the transmit and receive FIFOs, of at most 64 bytes, oldest first (R333). -/
structure Uart where
  mode : UartMode
  tx : List Byte
  rx : List Byte
  deriving DecidableEq, Repr

/-- A UART with its state cleared: 5 data bits, no parity, one stop bit. DESIGN CHOICE (log entry 41). -/
def Uart.cleared : Uart := ⟨⟨0, none, false, 0⟩, [], []⟩

/-- An SPI controller: settings, and the bytes last shifted out and in (R333). -/
structure SpiPort where
  mode : SpiMode
  out : Byte
  got : Byte
  deriving DecidableEq, Repr

/-- An I²C controller: settings, the address that it answers as a target, the address and direction of the transfer last made, its byte, and whether the
transfer was acknowledged (R333). -/
structure I2cPort where
  mode : I2cMode
  own : BitVec 10
  addr : BitVec 10
  read : Bool
  data : Byte
  acked : Bool
  deriving DecidableEq, Repr

/-- The hard blocks beside the flash: the trim of the 400 MHz oscillator, and the serial controllers (R331, R333). -/
structure HardBlocks where
  trim : Byte
  uart : Table Uart
  spi : Table SpiPort
  i2c : Table I2cPort
  deriving DecidableEq, Repr

/-- The hard-block state that a full load clears (R339). The trim is 0x80 then, its nominal value, and the serial controllers have zero settings.
DESIGN CHOICE (log entry 41). -/
def HardBlocks.cleared : HardBlocks := ⟨0x80, [], [], []⟩

/-- An SPI or I²C controller with its state cleared. -/
def spiCleared : SpiPort := ⟨⟨false, 0, 0⟩, 0, 0⟩
@[inherit_doc spiCleared] def i2cCleared : I2cPort := ⟨⟨false, false, .k100⟩, 0, 0, false, 0, false⟩

/-- An erase or program of the flash that may be under way: the bytes from `base` on, until a time at the latest (R332). -/
structure FlashOp where
  base : Nat
  len : Nat
  stop : Nat
  deriving DecidableEq, Repr

/-- A beat of a record at a stream port, with the signals beside it (Table FAB-9). -/
structure StreamBeat where
  data : BitVec 512
  last : Bool
  first : Bool
  record : BitVec 18
  pass : BitVec 4
  /-- DIR: the record leaves the array -/
  dir : Bool
  deriving DecidableEq, Repr

/-- The fabric. FAB_STAT.STATE and FAB_RSTATE hold its states. -/
structure FabState where
  /-- configuration frames by frame address (Table FAB-6) -/
  frames : Table Frame512
  /-- flip-flops of a logic block, by region × 384 + row × 6 + column: 16 QA and, above them, 16 QB (R322, R323) -/
  ff : Table (BitVec 32)
  /-- contents and outputs of a RAM block, by region × 16 + block: port A's 36 bits and, above them, port B's (R324) -/
  ram : Table (BitVec 18432)
  ramOut : Table (BitVec 72)
  /-- the outputs into other regions that the isolation latches hold at 1; the others of a region before phase 3 are held at 0 (R337, R341) -/
  latch : List Driver
  /-- the routing wires at 1, rising, and the levels that the design saw at the pins last: where they change, what they clock takes an edge (R327) -/
  wires : List Nat
  pinsWere : BitVec 64
  /-- the levels of FIRQ0–FIRQ63 as the design drives them or the latches hold them (R337, R341) -/
  firq : BitVec 64
  /-- the levels and output enables that the design gives the I/O cells (R328) -/
  pinOut : BitVec 64
  pinOe : BitVec 64
  /-- PORTMAP of the last full image: region of each hard port, 255 unbound (R334) -/
  portmap : Table Byte
  /-- WINMAP of the last full image: window entries -/
  winmap : Table Dword
  /-- start-up phase of a region, 0–4 (R338), and of a full load's global resources under 16 -/
  phase : Table Nat
  /-- the image of each region's last load (R344); SHAKE256 of the last full image loaded, zeros if none (Table SEC-4A) -/
  image : Table Dword
  full : List Byte
  /-- the load that is in start-up, and the loads that wait -/
  cur : Option FabLoad
  waiting : List FabLoad
  /-- faulty physical columns by region: a set (R343) -/
  faulty : Table (BitVec 8)
  /-- the fabric flash, and its erase counters by sector (R332) -/
  flash : Table Byte
  wear : Table Nat
  flashOut : Dword
  flashOp : Option FlashOp
  /-- the other hard blocks -/
  hard : HardBlocks
  /-- the beats that engine k sent through its stream port in its last pass (R161) -/
  stream : Table (List StreamBeat)
  /-- the micro channels of ports 0–5 -/
  micro : Table MicroPort
  /-- safe pulls as the pilot holds them, by bank (R330) -/
  pulls : Table Dword
  deriving DecidableEq, Repr

/-- The fabric at reset: UNCONFIGURED. -/
def FabState.reset : FabState :=
  { frames := [], ff := [], ram := [], ramOut := [], latch := [], wires := [], pinsWere := 0, firq := 0, pinOut := 0, pinOe := 0, portmap := [], winmap := [], phase := [], image := [], full := List.replicate 32 0, cur := none, waiting := [], faulty := [], flash := []
    wear := [], flashOut := 0, flashOp := none, hard := HardBlocks.cleared, stream := [], micro := [], pulls := [] }

end Sys2Proof.Machine
end

