-- ==== Sys2Proof/Machine/StHost.lean ====
section
/-! DEFINITION. State of the host interface: functions, queues, jobs and running programs (chapter 12). -/
namespace Sys2Proof.Machine

/-- The stations of a queue, in the order of FN_QSTAT.STATE (R295). -/
inductive QState where
  | disabled | enabled | draining | error
  deriving DecidableEq, Repr

/-- The code of FN_QSTAT.STATE. -/
def QState.code : QState → Nat
  | .disabled => 0 | .enabled => 1 | .draining => 2 | .error => 3

/-- A fetched job (R284, R286). -/
structure Job where
  /-- the descriptor's 64 bytes -/
  desc : List Byte
  /-- device time at its start -/
  start : Option Dword
  /-- its status once it has completed -/
  done : Option Nat
  /-- bytes that a COPY has moved (R290) -/
  moved : Nat
  deriving DecidableEq, Repr

/-- A work queue (R281–R285, R291, R292). -/
structure Queue where
  /-- the function it is assigned to -/
  owner : Option Nat
  /-- FN_QBASE, and the fields of FN_QCTX below EN -/
  base : Dword
  ctx : Dword
  state : QState
  err : BitVec 4
  ph : Bool
  head : BitVec 16
  tail : BitVec 16
  /-- a doorbell kept until READY (R283) -/
  kept : Option Dword
  /-- jobs fetched and not yet retired in order -/
  jobs : List Job
  /-- status of the last job retired since the queue was enabled (R287) -/
  prev : Option Nat
  /-- events dropped since the last EVENT_OVERFLOW (R291) -/
  lost : Nat
  /-- entries written since the last signal, and the time of the first of them (R292) -/
  unsig : Nat
  first : Nat
  deriving DecidableEq, Repr

/-- A queue at reset. -/
def Queue.reset : Queue :=
  { owner := none, base := 0, ctx := 0, state := .disabled, err := 0, ph := false, head := 0, tail := 0, kept := none, jobs := []
    prev := none, lost := 0, unsig := 0, first := 0 }

/-- A function (R278, R295). -/
structure Fn where
  /-- FN_STAT -/
  wrej : Bool
  coll : BitVec 16
  evdrop : BitVec 16
  dbdrop : BitVec 16
  /-- FN_QSEL.Q -/
  qsel : BitVec 16
  /-- PF_FSEL.F; none: its own function -/
  fsel : Option Byte
  /-- PF_FCFG; none: the reset value of the kind of function -/
  fcfg : Option Word
  /-- DMA windows: FN_WINBASEw and FN_WINCTLw -/
  winBase : Table Dword
  winCtl : Table Dword
  /-- MSI-X enabled, and VF Enable in a physical function (R292) -/
  msixEn : Bool
  vfEn : Bool
  /-- the function mask, the vector masks and the pending bits of MSI-X (R292) -/
  masked : Bool
  vecMask : Table Bool
  vecPend : Table Bool
  /-- in D3hot (R274) -/
  d3 : Bool
  /-- max payload size and max read request size: 128 bytes × 2 ^ code (R274) -/
  mps : Fin 3
  mrrs : Fin 6
  deriving DecidableEq, Repr

/-- A function at reset. -/
def Fn.reset : Fn :=
  { wrej := false, coll := 0, evdrop := 0, dbdrop := 0, qsel := 0, fsel := none, fcfg := none, winBase := [], winCtl := []
    msixEn := false, vfEn := false, masked := false, vecMask := [], vecPend := [], d3 := false, mps := 0, mrrs := 2 }

/-- A RUN_PROGRAM that runs on a partition (R289). -/
structure Prog where
  queue : Nat
  /-- the job's place in the queue, counted by its JOBID -/
  jobid : Word
  /-- the sequencer's firmware has taken the job through WQ_PJOBp; until then source 32 + s is active -/
  taken : Bool
  /-- the time at which it times out -/
  deadline : Option Nat
  /-- how the program ended: status, DETAIL, INFO, RESULT0, RESULT1 -/
  ended : Option (Nat × Nat × Nat × Nat × Nat)
  /-- a function-level reset has ordered it to stop at its next instruction boundary; with `ended`, it waits for the array instruction that executes (R294) -/
  stop : Bool := false
  deriving DecidableEq, Repr

/-- The PCIe link of a port: state, GT/s and lanes (R274). -/
structure PcieLink where
  state : LinkState
  gts : Byte
  width : BitVec 5
  deriving DecidableEq, Repr

/-- A link that is not trained. -/
def PcieLink.reset : PcieLink := ⟨.down, 0, 0⟩

/-- The host interface. -/
structure HostState where
  fns : Table Fn
  queues : Table Queue
  /-- completions that wait for room, in order of completion: submission queue, status, the entry's first 60 bytes (R291) -/
  waiting : List (Nat × Nat × List Byte)
  /-- host memory by address; port 1's lies at 2^64 (R276) -/
  mem : Mem
  /-- MSI-X messages sent: function, vector, oldest first -/
  msgs : List (Nat × Nat)
  /-- programs by partition -/
  progs : Table (Option Prog)
  /-- records to zero after a KEY_LOAD, by queue: address and length (R404) -/
  keyZero : Table (List (Nat × Nat))
  /-- Unsupported Requests and Completer Aborts answered, and AER reports made (R275, R277) -/
  ur : Nat
  ca : Nat
  aer : Nat
  /-- the links, by port (R274, R276), and PERST_N low (R390) -/
  links : Table PcieLink
  perst : Bool
  /-- the queue served last, by what queues wait for in turn: programs and plane jobs of a partition, DMA channels (R286) -/
  turn : Table Nat
  /-- what the last BAR read returned -/
  bar : List Byte
  deriving DecidableEq, Repr

/-- The host interface at reset. -/
def HostState.reset : HostState :=
  { fns := [], queues := [], waiting := [], mem := [], msgs := [], progs := [], keyZero := [], ur := 0, ca := 0, aer := 0, links := []
    perst := false, turn := [], bar := [] }

end Sys2Proof.Machine
end

