-- ==== Sys2Proof/Machine/StSeam.lean ====
section
/-! DEFINITION. State of the seam half-edges, the system tree and the message router (chapter 13). -/
namespace Sys2Proof.Machine

/-- States of a half-edge, coded 0–4 in SEAMe_STAT (Table SEAM-3). -/
inductive HalfLink where
  | disabled | detect | train | up | down
  deriving DecidableEq, Repr

/-- The code of LS0 and LS1. -/
def HalfLink.code : HalfLink → Nat
  | .disabled => 0 | .detect => 1 | .train => 2 | .up => 3 | .down => 4

/-- A numbered flit of the replay buffer (R302): an edge vector, a reduction flit or a message flit. -/
inductive Numbered where
  | ev (v : BitVec 512)
  | red (r : RedFlit)
  | msg (vc1 head tail : Bool) (payload : BitVec 512)
  deriving DecidableEq, Repr

/-- The transmit side of the code (R298): the bits that wait for their codeword, codewords since the last alignment codeword mod 65,536, the symbols
sent last on each working lane, in lane order, the flit formed last, which without a code is what goes out, and the lane at which the stripe goes on. -/
structure FecTx where
  bits : BitVec 5700
  len : Nat
  count : Nat
  sent : List (List (BitVec 10))
  last : BitVec 560
  lane : Nat
  deriving DecidableEq, Repr

/-- A half-edge: link layer, credits and receive buffers (R302–R304). -/
structure Half where
  link : HalfLink
  /-- the rate of the last training (R296, R299) -/
  rate : BitVec 2
  /-- the partner's epoch at the last UP (R304) -/
  partner : Option Byte
  /-- flits sent and not acknowledged, oldest first, with their SEQ -/
  replay : List (BitVec 9 × Numbered)
  /-- flits that wait for room in the replay buffer, for credit or for the link -/
  out : List Numbered
  nextSeq : BitVec 9
  expSeq : BitVec 9
  /-- the receiver discards until the flit with the expected SEQ arrives (R302) -/
  discard : Bool
  /-- the flits that the transmitter has still to send again: after a NAK, or after a return to UP (item 4 of R301) -/
  resend : List (BitVec 9 × Numbered)
  /-- a NAK to send with the next CTL, and the NAKs of the expected SEQ sent in a row -/
  nakDue : Option (BitVec 9)
  nakOut : Nat
  /-- the SEQ NAKed last by the partner, and how many times in a row -/
  nakSeq : BitVec 9
  nakRun : Nat
  /-- transmit credits, and the freed counts last reported (R303) -/
  crEv : Nat
  crRed : Nat
  crM0 : Nat
  crM1 : Nat
  repEv : Byte
  repRed : Byte
  repM0 : Byte
  repM1 : Byte
  /-- receive buffers, oldest first, and entries freed of each, mod 256 -/
  rxEv : List (BitVec 512)
  rxRed : List RedFlit
  rxM0 : List (Bool × Bool × BitVec 512)
  rxM1 : List (Bool × Bool × BitVec 512)
  frEv : Byte
  frRed : Byte
  frM0 : Byte
  frM1 : Byte
  /-- the CTL flits sent, newest first, up to the last one (R301, R303) -/
  ctl : Option CtlFlit
  /-- flit slots used since the last CTL (R301) -/
  slots : Nat
  /-- the payloads of the LMFs that wait to be sent, oldest first (R301, R308, R319) -/
  lmf : List (BitVec 512)
  /-- working lanes: SEAMe_STAT.NLh, as the code stripes over them (R298) -/
  width : Nat
  /-- the lane that an in-service spare serves again once its own retrain ends; 63 none (R308) -/
  spareOf : Nat
  /-- parity symbols of the code since the last training: 0 none (Table SEAM-1) -/
  parity : Nat
  tx : FecTx
  /-- where the next flit lies in the payload of the codeword being received, codewords since the last alignment codeword, and the lane of the codeword's
  first symbol (R298) -/
  rxPos : Nat
  rxCount : Nat
  rxLane : Nat
  deriving DecidableEq, Repr

/-- A half-edge at reset: DISABLED, with full credits (R303, R304). -/
def Half.reset : Half :=
  { link := .disabled, rate := 2, partner := none, replay := [], out := [], nextSeq := 0, expSeq := 0, discard := false
    resend := [], nakDue := none, nakOut := 0, nakSeq := 0, nakRun := 0, crEv := 64, crRed := 16, crM0 := 32, crM1 := 32, repEv := 0, repRed := 0
    repM0 := 0, repM1 := 0, rxEv := [], rxRed := [], rxM0 := [], rxM1 := [], frEv := 0, frRed := 0, frM0 := 0, frM1 := 0
    ctl := none, slots := 0, lmf := [], width := 0, spareOf := 63, parity := 30, tx := ⟨0, 0, 0, [], 0, 0⟩, rxPos := 0, rxCount := 0, rxLane := 0 }

/-- The combination of one tree at system scope (R311): index, own contribution, children's values. -/
structure SysTree where
  k : Byte
  own : Option Nat
  child : Table (Option Nat)
  /-- the combination has been sent up or taken as the result -/
  sent : Bool
  /-- a shape has taken effect since the offers of this combination were matched: the next one is k = 1 -/
  restart : Bool
  deriving DecidableEq, Repr

/-- A tree's combination at reset: offers are counted from k = 1 (R132, R136). -/
def SysTree.reset : SysTree := ⟨1, none, [], false, false⟩

/-- A pair-table entry (R315): expected ESEQ with its epoch, and the send counter. -/
structure PairEntry where
  recv : Option (BitVec 16 × Byte)
  send : BitVec 16
  deriving DecidableEq, Repr

/-- An empty entry. -/
def PairEntry.none : PairEntry := ⟨Option.none, 0⟩

/-- The message router (R312–R318). -/
structure Router where
  /-- the active bank: false 0, true 1 -/
  bank : Bool
  /-- bank × 512 + dimension × 256 + index: 2-bit entries written; none the default, which follows SRT_ADDR (R314) -/
  tab : Table (Option (BitVec 2))
  /-- unfreed messages in sending order with their resends (R312, R316) -/
  store : List (SeamMsg × Nat)
  /-- messages to inject -/
  inject : List SeamMsg
  /-- messages that hold an input because the receive ring is full (R315) -/
  held : List SeamMsg
  pair : Table PairEntry
  /-- edges a READM returns once half-edge 0 is UP (R318) -/
  readmit : BitVec 4
  /-- inputs that have still to switch after a FLIP: 0–3 edges, 4 injection (R317) -/
  flipLeft : BitVec 5
  deriving DecidableEq, Repr

/-- The router at reset. -/
def Router.reset : Router :=
  { bank := false, tab := [], store := [], inject := [], held := [], pair := [], readmit := 0, flipLeft := 0 }

end Sys2Proof.Machine
end

