-- ==== Sys2Proof/Machine/StSys.lean ====
section
/-! DEFINITION. State of power, device time, the pilot, the security monitor and the dictionary (chapters 15–18). -/
namespace Sys2Proof.Machine

/-- Power, clocks and the sideband beside PWR and SMB (R264, R358–R365). -/
structure PowerState where
  /-- a draining domain's bridges: 0 open, 1 past the point of no return, 2 past it and ordered to wake -/
  pnr : Table Nat
  /-- AVFS steps in a row above the high threshold, by domain -/
  above : Table Nat
  /-- last value requested of each rail, mV × 16 -/
  avsReq : Table Nat
  /-- clock cycles stretched, by domain (R359) -/
  stretches : Table Nat
  /-- when TL rose last -/
  tlRise : Option Nat
  /-- the domains, and 33 the pilot, whose last reading was at or above 125,000 m°C -/
  hot : List Nat
  /-- µs in a row in which the current stayed below 95 % of ILIM -/
  cool : Nat
  /-- the pilot's sensor, m°C -/
  pilotTemp : Int
  /-- package power, mW -/
  draw : Word
  /-- the last block-read answer on SMBus, and the requests NACKed -/
  smb : List Byte
  /-- its packet error check, which a controller that requests it reads behind the answer (R365) -/
  pec : Byte
  nacks : Nat
  /-- the device has taken over both input rails on AVSBus (Table BOOT-3, step B5) -/
  avs : Bool
  deriving DecidableEq, Repr

/-- Power at reset. -/
def PowerState.reset : PowerState :=
  { pnr := [], above := [], avsReq := [], stretches := [], tlRise := none, hot := [], cool := 0, pilotTemp := 25000, draw := 0
    smb := [], pec := 0, nacks := 0, avs := false }

/-- A hardware stamp of a PTP event message (R369). -/
structure PtpStamp where
  kind : PtpKind
  outgoing : Bool
  time : Dword
  frac : BitVec 16
  deriving DecidableEq, Repr

/-- Device-time discipline beside TIME (R366–R371). -/
structure TimeState where
  /-- what an adjustment has left below 2^-16 ns, in units of 2^-16 ns / 256,000,000,000 (log entry 44) -/
  resid : Int
  /-- device time before the last tick, or after the last set, step or edge of PPS_OUT -/
  prev : Dword
  /-- corrections in a row below 100 ns -/
  run : Nat
  /-- the part of TIME_ADJ that lasts for one interval only, and the elapsed time at which that interval ends (R368) -/
  slew : Int
  slewEnd : Nat
  /-- since when LOCK has been 1 -/
  lockAt : Option Nat
  /-- when the last PPS_IN edge was captured, and the PPS_OUT level -/
  ppsLast : Option Nat
  ppsHigh : Bool
  stamp : Option PtpStamp
  deriving DecidableEq, Repr

/-- Time at reset. -/
def TimeState.reset : TimeState := { resid := 0, prev := 0, run := 0, slew := 0, slewEnd := 0, lockAt := none, ppsLast := none, ppsHigh := false, stamp := none }

/-- The pilot, start-up and the sideband pins (R373–R385, R450, R454). -/
structure BootState where
  /-- half the watchdog's period has passed since the last kick (R379) -/
  warn : Bool
  /-- management firmware serves, or the boot ROM serves the boot set -/
  fw : Bool
  rom : Bool
  /-- thermal trip: domains M, N and P are OFF until a reset (R364) -/
  trip : Bool
  /-- the device is in nap, or in pilot-only sleep (R384) -/
  nap : Bool
  sleep : Bool
  /-- what the last start-up found outside the part; a reset ordered over the bus finds the same -/
  env : BootEnv
  /-- a start-up that waits at B1, for the rails (R374, R450), for the pilot's temperature (R364), or for good under TESTMODE (R448) -/
  held : Option BootEnv
  /-- a rail of steps 2–5 is outside its window -/
  railsBad : Bool
  /-- VIO18 is within its window: else the 1.8 V pins are high-impedance (R455) -/
  vio18 : Bool
  /-- the levels driven on ALARM_N, WAKE_N and RAILS_EN -/
  alarmN : Bool
  wakeN : Bool
  /-- the start-up that waits or begins drives WAKE_N low from B1 on (R385) -/
  wakeDue : Bool
  railsEn : Bool
  tap : TapMode
  deriving DecidableEq, Repr

/-- The pilot at reset. -/
def BootState.reset : BootState :=
  { warn := false, fw := false, rom := false, trip := false, nap := false, sleep := false, env := .plain, held := none
    railsBad := false, vio18 := true, alarmN := true, wakeN := true, wakeDue := false, railsEn := true, tap := .idcode }

/-- A record of the alarm log (R399). -/
structure AlarmRec where
  time : Dword
  src : Byte
  pol : Byte
  state : Byte
  detail : BitVec 40
  deriving DecidableEq, Repr

/-- The security monitor and OTP (chapter 17). -/
structure SecState where
  /-- the three copies of the lifecycle field, and the state in effect (R388, R396) -/
  life : List (BitVec 2)
  lifeNow : BitVec 2
  /-- SVN count -/
  svn : Nat
  /-- the alarm log: at most 256 records, and the total count -/
  log : List AlarmRec
  total : Word
  /-- the copy of the log in the security partition, made whenever domain M is ON, and the logs that re-enrolment closed (R399) -/
  part : List AlarmRec
  oldLogs : List (List AlarmRec)
  /-- volatile key registers and NVM key slots -/
  keyRegs : Table (BitVec 256)
  slots : Table (BitVec 256)
  /-- enrolments so far, and the identity's private seeds, wrapped; none once they are erased (R392) -/
  enrol : Nat
  seeds : Option (List Byte)
  /-- index records: generation and H, and the next index (R393) -/
  recA : Nat × Nat
  recB : Nat × Nat
  next : Nat
  /-- the pending-erase marker, and the record of an erasure of all keys -/
  marker : Bool
  erased : Bool
  /-- step 5 of an erasure is ordered -/
  step5 : Bool
  nonce : Option (List Byte)
  /-- the times of failed grant checks, nonce reads and attestation requests, newest first -/
  fails : List Nat
  nonceReads : List Nat
  attests : List Nat
  /-- lowerings granted: source, value, time, newest first; and the period of the pilot clock in which SEC_POL was written last, with the highest policies before the
  writes of that period (R400) -/
  lower : List (Nat × Nat × Nat)
  polWas : Nat × Word
  /-- a re-enrolment runs -/
  reenrol : Option Session
  /-- the mesh sequence, whether the last sample differed, and the differing samples of the last 32 pt: age and level (R398) -/
  lfsr : BitVec 15
  differed : Bool
  diffs : List (Nat × Bool)
  deriving DecidableEq, Repr

/-- The security monitor at reset: a part in SECURE, as it leaves the factory (R388), enrolled once. -/
def SecState.reset : SecState :=
  { life := [1, 1, 1], lifeNow := 1, svn := 0, log := [], total := 0, part := [], oldLogs := [], keyRegs := [], slots := [], enrol := 1
    seeds := some (Config.wrap Config.wrapSecret Config.factorySeeds)
    recA := (1, 0), recB := (0, 0), next := 0, marker := false, erased := false, step5 := false, nonce := none, fails := []
    nonceReads := [], attests := [], lower := [], polWas := (0, 0), reenrol := none, lfsr := 1, differed := false, diffs := [] }

/-- An open segmented transfer (R415–R417). -/
structure DictXfer where
  down : Bool
  index : BitVec 16
  sub : Byte
  len : Nat
  /-- bytes received so far, or the snapshot to send -/
  data : List Byte
  seg : Nat
  deriving DecidableEq, Repr

/-- A session of the dictionary (R410, R411). -/
structure Sess where
  id : Session
  /-- level 3 holds until this device time -/
  level3 : Option Dword
  xfer : Option DictXfer
  /-- when its last request came -/
  last : Nat
  /-- its last attestation report -/
  report : List Byte
  deriving DecidableEq, Repr

/-- A dictionary store copy (R425): generation and the value of every S entry, by index × 256 + subindex, and whether its check passes; a copy never written
holds none. -/
structure StoreCopy where
  gen : Nat
  vals : List (Nat × Dword)
  ok : Bool := true
  deriving DecidableEq, Repr

/-- What follows a response once it has been sent: a field of CAN_CTL changes (R420), a device reset, nap or pilot-only sleep (R428). -/
inductive After where
  | canCtl (lo len v : Nat)
  | reset (env : BootEnv)
  | nap
  | sleep
  deriving DecidableEq, Repr

/-- What management firmware runs while it serves later requests: the report for an attestation nonce, or FW_INSTALL from an address and a length (R423). -/
inductive FwTask where
  | attest (x : Session) (nonce : List Byte)
  | install (x : Session) (base len : Nat)
  deriving DecidableEq, Repr

/-- The dictionary and its transports (chapter 18). -/
structure DictState where
  /-- values of entries that no register holds, by index × 256 + subindex -/
  vals : Table Dword
  sess : List Sess
  copyA : StoreCopy
  copyB : StoreCopy
  /-- result of the last STORE -/
  result : BitVec 16
  /-- Nazen messages and frames sent, oldest first -/
  out : List (Session × List Byte)
  /-- frames that wait under the transmit ceilings (Table SEC-4) -/
  canWait : List (Session × List Byte)
  mgeWait : List (Session × List Byte)
  /-- the times, and for the MGE sizes, of frames begun, newest first -/
  canBegun : List Nat
  mgeBegun : List (Nat × Nat)
  /-- what follows a response that waits: its port, how many frames of that port have still to leave, and the effect -/
  due : List (Port × Nat × After)
  /-- what management firmware runs, oldest first -/
  tasks : List FwTask
  /-- malformed messages: 0 mailbox, 1 CAN, 2 MGE (R413) -/
  malformed : Table Nat
  /-- the REQSEQ served last of each mailbox slot (R422) -/
  served : Table Word
  deriving DecidableEq, Repr

/-- The dictionary at reset. -/
def DictState.reset : DictState :=
  { vals := [], sess := [], copyA := { gen := 0, vals := [] }, copyB := { gen := 0, vals := [] }, result := 0, out := [], canWait := [], mgeWait := [], canBegun := []
    mgeBegun := [], due := [], tasks := [], malformed := [], served := [] }

end Sys2Proof.Machine
end

