-- ==== Sys2Proof/Machine/State.lean ====
section
/-! DEFINITION. State of the LS1M block, its reset value, and the reasons a command can stop. -/
namespace Sys2Proof.Machine

/-- Nothing stops the block with a fault: every command has an effect, or finds its trigger absent and changes nothing. -/
inductive Fault where
  deriving DecidableEq, Repr

/-- Why a command has no meaning. -/
inductive Refusal where
  /-- raised by `exec` for a command the model does not yet give a meaning to; safe -/
  | notModelled (mnemonic : String)
  deriving DecidableEq, Repr

/-- The block. -/
structure State where
  /-- commands that wait, first in, first out -/
  pending : List Instr
  /-- control registers: control-space offset to 32-bit word -/
  creg : Table Word
  /-- staging memory, scratchpad words and NVM by device address (Table SYS-4) -/
  mem : Mem
  /-- scratchpad words stored wrong, by device address (R254) -/
  flaw : Table Flaw
  /-- symbols stored wrong of staging lines, by line address / 64 (R141) -/
  lineErr : Table (BitVec 576)
  /-- committed microwords: sequencer × 32,768 + μPC to 160 function bits and P4–P0 (R86–R89) -/
  micro : Table (BitVec 165)
  /-- which load of the vendor region is in force: the index of its free words (R86) -/
  microGen : Nat
  cores : Table Core
  seqs : Table Seq
  /-- coalescing timers: ICU × 1,024 + source (R230) -/
  timers : Table Timer
  /-- last samples of the lines: ICU × 1,024 + source (R227) -/
  samples : Table Bool
  /-- machine-check records, oldest first (R236) -/
  mcq : List Dword
  banks : Table Bank
  memStacks : Table Stack
  /-- packets whose source port keeps a copy, oldest first (R270) -/
  packets : List Packet
  nextTag : Nat
  /-- the last response each initiator received, by initiator code -/
  resps : Table (Option Response)
  /-- route entries: bank × 1,024 + network × 256 + stop × 16 + destination; the bank in use by network × 16 + stop (R266, R267) -/
  routes : Table Route
  routeBank : Table Nat
  /-- the times of the flit replays of a segment in the last 1 ms, by network × 64 + ring × 16 + position (R269) -/
  replays : Table (List Nat)
  /-- trace records that wait for their bank, by probe, oldest first (R272) -/
  traceQ : Table (List Nat)
  /-- tokens × 1,024: stop × 2 (REQ) or + 1 (DAT) (R263) -/
  tokens : Table Nat
  /-- directory by line address / 64, and its transactions (R271) -/
  dir : Table DirLine
  dirBusy : Table DirBusy
  arr : ArrState
  /-- half-edges by edge × 2 + half (R121, R296) -/
  halves : Table Half
  /-- system trees: 0 wick, 1 count (R311) -/
  sys : Table SysTree
  router : Router
  fab : FabState
  host : HostState
  power : PowerState
  time : TimeState
  boot : BootState
  sec : SecState
  dict : DictState
  /-- the times of the retrains begun on a lane in the last 3,600 s, by edge × 34 + lane (R307) -/
  laneTimes : Table (List Nat)
  /-- the link epoch (R304) -/
  epoch : Byte
  /-- the error log, oldest first, and the last record of each class (R440) -/
  errlog : List ErrEntry
  errLast : Table ErrEntry
  /-- the input queue of the log: the reports of the nc under way, while several may arrive in it (R440) -/
  errq : Option (List ErrEntry)
  /-- reports of SEV = 2 that are not yet in the fault log (R441) -/
  flogDue : List ErrEntry
  /-- activities of Table LIFE-2 that run (R435) -/
  acts : List Activity
  /-- the repair maps in NVM, and the records not yet written (R187, R442) -/
  maps : List RepairRec
  mapDue : List RepairRec
  /-- the device time, and its fraction in units of 2^-16 ns (R366) -/
  now : Dword
  frac : BitVec 16
  /-- the nanoseconds that have passed, by which every time limit runs: device time as it would be without a set or a step (log entry 44) -/
  ran : Nat
  /-- the model's own counter of free values drawn (log entry 2) -/
  free : Nat
  deriving DecidableEq, Repr

/-- The machine right after reset. -/
def State.reset : State :=
  { pending := [], creg := [], mem := [], flaw := [], lineErr := [], micro := [], microGen := 0, cores := [], seqs := [], timers := [], samples := []
    mcq := [], banks := [], memStacks := [], packets := [], nextTag := 0, resps := [], routes := [], routeBank := [], replays := [], traceQ := [], tokens := []
    dir := [], dirBusy := [], arr := .reset, halves := [], sys := [], router := .reset, fab := .reset, host := .reset
    power := .reset, time := .reset, boot := .reset, sec := .reset, dict := .reset, laneTimes := [], epoch := 0
    errlog := [], errLast := [], errq := none, flogDue := [], acts := [], maps := [], mapDue := [], now := 0, frac := 0, ran := 0, free := 0 }

/-- The outcome of a command. -/
abbrev Out := Host.Outcome State Fault Refusal

end Sys2Proof.Machine
end

