-- ==== Sys2Proof/Machine/Ops.lean ====
section
/-! DEFINITION. Named operations over registers and memory, the error log, the interrupt controllers and the partitions. -/
namespace Sys2Proof.Machine

/-- Control-space offset of a register: page and offset (Table SYS-6). -/
def cr (page off : Nat) : Nat := page * 65536 + off

/-- A control-register word. -/
def State.r32 (s : State) (a : Nat) : Nat := (tget regReset s.creg a).toNat

/-- A 64-bit register, or two registers side by side. -/
def State.r64 (s : State) (a : Nat) : Nat := s.r32 a + 2 ^ 32 * s.r32 (a + 4)

/-- Field [lo + len − 1 : lo] of the register at a. -/
def State.fld (s : State) (a lo len : Nat) : Nat := bits (s.r64 a) lo len

/-- A one-bit field. -/
def State.bit (s : State) (a i : Nat) : Bool := s.fld a i 1 == 1

/-- The state with a control-register word replaced. -/
def State.setR32 (s : State) (a v : Nat) : State := { s with creg := tset regReset s.creg a (BitVec.ofNat 32 v) }

/-- The state with a 64-bit register replaced. -/
def State.setR64 (s : State) (a v : Nat) : State := (s.setR32 a v).setR32 (a + 4) (v / 2 ^ 32)

/-- The state with a field replaced. -/
def State.setF (s : State) (a lo len v : Nat) : State :=
  if lo + len ≤ 32 then s.setR32 a (setBits (s.r32 a) lo len v) else s.setR64 a (setBits (s.r64 a) lo len v)

/-- The state with a bit set. -/
def State.setB (s : State) (a i : Nat) : State := s.setF a i 1 1

/-- The state with a counter field advanced by n, saturating. -/
def State.incF (s : State) (a lo len n : Nat) : State := s.setF a lo len (satAdd len (s.fld a lo len) n)

/-- A write to a register without behaviour of its own: RW bits replaced, W1C bits cleared (R15). -/
def State.plainWrite32 (s : State) (a v : Nat) : State :=
  match regAt a with
  | none => s
  | some (d, w) =>
    let rw := d.rw / 2 ^ (32 * w)
    let w1c := d.w1c / 2 ^ (32 * w)
    let x := BitVec.ofNat 32 v
    let o := BitVec.ofNat 32 (s.r32 a)
    s.setR32 a (((o &&& ~~~(BitVec.ofNat 32 rw)) ||| (x &&& BitVec.ofNat 32 rw)) &&& ~~~(x &&& BitVec.ofNat 32 w1c)).toNat

/-- The same of n bytes, 4 or 8. -/
def State.plainWrite (s : State) (a n v : Nat) : State :=
  if n = 8 then (s.plainWrite32 a (v % 2 ^ 32)).plainWrite32 (a + 4) (v / 2 ^ 32) else s.plainWrite32 a v

/-- A core. -/
def State.core (s : State) (c : Nat) : Core := tget (konst Core.reset) s.cores c
/-- A core changed. -/
def State.setCore (s : State) (c : Nat) (k : Core) : State := { s with cores := tset (konst Core.reset) s.cores c k }
/-- A core changed by a function. -/
def State.modCore (s : State) (c : Nat) (f : Core → Core) : State := s.setCore c (f (s.core c))

/-- A sequencer's array side. -/
def State.seq (s : State) (q : Nat) : Seq := tget (konst Seq.reset) s.seqs q
/-- A sequencer changed. -/
def State.setSeq (s : State) (q : Nat) (k : Seq) : State := { s with seqs := tset (konst Seq.reset) s.seqs q k }
/-- A sequencer changed by a function. -/
def State.modSeq (s : State) (q : Nat) (f : Seq → Seq) : State := s.setSeq q (f (s.seq q))

/-- A bank. -/
def State.bank (s : State) (b : Nat) : Bank := tget (konst Bank.reset) s.banks b
/-- A bank changed. -/
def State.setBank (s : State) (b : Nat) (k : Bank) : State := { s with banks := tset (konst Bank.reset) s.banks b k }
/-- A bank changed by a function. -/
def State.modBank (s : State) (b : Nat) (f : Bank → Bank) : State := s.setBank b (f (s.bank b))

/-- The array changed by a function. -/
def State.modArr (s : State) (f : ArrState → ArrState) : State := { s with arr := f s.arr }

/-- What a byte that nothing has written reads as: the factory contents in the firmware images and the NVM's remainder, else 0 (log entry 3). -/
def memDefault (a : Nat) : Byte :=
  if (0x4300000000 ≤ a ∧ a < 0x4300400000) ∨ (0x43004F0000 ≤ a ∧ a < 0x4300800000) then Config.nvmByte (a - 0x4300000000) else 0

/-- A byte of device memory. -/
def State.byte (s : State) (a : Nat) : Byte := tget memDefault s.mem a

/-- A byte of device memory written. -/
def State.setByte (s : State) (a : Nat) (v : Byte) : State := { s with mem := tset memDefault s.mem a v }

/-- n bytes of device memory from address a. -/
def State.bytes (s : State) (a n : Nat) : List Byte := (List.range n).map (fun i => s.byte (a + i))

/-- Bytes stored from address a upwards. -/
def State.setBytes (s : State) (a : Nat) : List Byte → State
  | [] => s
  | b :: bs => (s.setByte a b).setBytes (a + 1) bs

/-- A little-endian number in memory (R9). -/
def State.num (s : State) (a n : Nat) : Nat := ofBytes (s.bytes a n)

/-- A free value drawn: the counter advances. -/
def State.draw (s : State) : State := { s with free := s.free + 1 }

/-- Word i, below 512, of the draw about to be made: no two draws share a word (log entry 2). -/
def State.drawn (s : State) (i : Nat) : Dword := Config.freeWord (512 * s.free + i)

-- The error log

/-- The error log holds at most 4,096 unread entries (R440). -/
def errCap : Nat := 4096

/-- The log takes a report: it overwrites the last of its class, and is stored, or counted as overflow when 4,096 are unread (R440). -/
def State.takeReport (s : State) (e : ErrEntry) : State :=
  let s1 := { s with errLast := tset (konst ErrEntry.zero) s.errLast e.cls.toNat e }
  if s.errlog.length < errCap then { s1 with errlog := s.errlog ++ [e] }
  else s1.incF (cr 5 (0x200 + 4 * e.cls.toNat)) 0 32 1

/-- A report that finds the input queue full (R440). -/
def State.overflowReport (s : State) (e : ErrEntry) : State :=
  ({ s with errLast := tset (konst ErrEntry.zero) s.errLast e.cls.toNat e } : State).incF (cr 5 (0x200 + 4 * e.cls.toNat)) 0 32 1

/-- ERROR_REPORT (R440): the log takes it at once, or the input queue of 32 does where several may arrive in one nc; a permanent one is due in the fault log (R441). -/
def State.reportE (s : State) (e : ErrEntry) : State :=
  let s1 := { s with flogDue := if e.sev = 2 then s.flogDue ++ [e] else s.flogDue }
  match s1.errq with
  | none => s1.takeReport e
  | some q => if q.length < 32 then { s1 with errq := some (q ++ [e]) } else s1.overflowReport e

/-- A report put among those of one nc, in ascending class order (R440). -/
def insertReport (e : ErrEntry) : List ErrEntry → List ErrEntry
  | [] => [e]
  | x :: xs => if e.cls.toNat ≤ x.cls.toNat then e :: x :: xs else x :: insertReport e xs

/-- What happens in one nc: its reports reach the input queue, and the log takes them in ascending class order (R440). -/
def oneNc (f : State → State) (s : State) : State :=
  match s.errq with
  | some _ => f s
  | none =>
    let t := f { s with errq := some [] }
    ((t.errq.getD []).foldr insertReport []).foldl State.takeReport { t with errq := none }

/-- A report of class cls, severity sev, from block page blk (Tables LIFE-4, LIFE-5). -/
def State.report (s : State) (cls sev blk code d0 d1 : Nat) : State :=
  s.reportE ⟨s.now, BitVec.ofNat 8 cls, BitVec.ofNat 8 sev, BitVec.ofNat 16 blk, BitVec.ofNat 32 code, BitVec.ofNat 64 d0, BitVec.ofNat 64 d1⟩

/-- A report for which the cited rule names no code: a free CODE (log entry 4). -/
def State.reportN (s : State) (cls sev blk d0 d1 : Nat) : State := s.report cls sev blk (Config.errCode cls).toNat d0 d1

/-- An unmapped access at an address, in the address class (R29). The reporting block is page SYS, and DETAIL1 is 1: no rule names the reporter (log entry 4). -/
def State.reportUnmapped (s : State) (a : Nat) : State := s.report 0 3 0 1 a 1

-- Partitions

/-- The present shape code (R22). -/
def State.shape (s : State) : Nat := s.fld (cr 9 0) 0 8

/-- The quadrants of each partition of a shape, lowest first (Table SYS-3). -/
def shapeParts : Nat → List (List Nat)
  | 1 => [[0, 1], [2, 3]]
  | 2 => [[0, 2], [1, 3]]
  | 3 => [[0, 1], [2], [3]]
  | 4 => [[2, 3], [0], [1]]
  | 5 => [[0, 2], [1], [3]]
  | 6 => [[1, 3], [0], [2]]
  | 7 => [[0, 1, 2, 3]]
  | _ => [[0], [1], [2], [3]]

/-- The partition of a quadrant: its quadrants, lowest first. -/
def State.partOf (s : State) (q : Nat) : List Nat := ((shapeParts s.shape).find? (·.contains q)).getD [q]

/-- The quadrants of the partition named p; none when p names no partition (R83). -/
def State.quads (s : State) (p : Nat) : List Nat := if s.partOf p |>.head? |> (· == some p) then s.partOf p else []

/-- The sequencer that drives partition p (R22, R25). -/
def State.driver (s : State) (p : Nat) : Nat := if s.arr.takeover = some (Fin.ofNat 4 p) then 4 else p

/-- The partition that sequencer q drives, if any (R24, R25). -/
def State.drives (s : State) (q : Nat) : Option Nat :=
  let p := if q = 4 then s.arr.takeover.map (·.val) else if s.arr.takeover = some (Fin.ofNat 4 q) then none else some q
  p.filter (fun p => s.quads p ≠ [])

/-- Columns x0 … x0+w−1 of every row of a 1,024 × 1,024 grid, as a number. -/
def colsMask (x0 w : Nat) : Nat := (2 ^ 1048576 - 1) / (2 ^ 1024 - 1) * ((2 ^ w - 1) * 2 ^ x0)

/-- Rows y0 … y0+h−1. -/
def rowsMask (y0 h : Nat) : Nat := (2 ^ (1024 * h) - 1) * 2 ^ (1024 * y0)

/-- The PEs of a quadrant (Table SYS-1). -/
def quadPlane (q : Nat) : Plane := BitVec.ofNat _ (colsMask (512 * (q % 2)) 512 &&& rowsMask (512 * (q / 2)) 512)

/-- The PEs of some quadrants. -/
def quadsPlane (qs : List Nat) : Plane := qs.foldl (fun m q => m ||| quadPlane q) 0

/-- The logical clusters of a quadrant: bit (y div 16) × 64 + (x div 16). -/
def quadClusters (q : Nat) : ClusterSet :=
  BitVec.ofNat _ ((2 ^ 4096 - 1) / (2 ^ 64 - 1) * ((2 ^ 32 - 1) * 2 ^ (32 * (q % 2))) &&& (2 ^ 2048 - 1) * 2 ^ (2048 * (q / 2)))

/-- The logical clusters of some quadrants. -/
def quadsClusters (qs : List Nat) : ClusterSet := qs.foldl (fun m q => m ||| quadClusters q) 0

-- The device state and the power domains

/-- SYS_STATE.STATE (Table BOOT-5). -/
def State.devState (s : State) : Nat := s.fld (cr 0 0x18) 0 3
/-- OFF. -/
def stOff : Nat := 0
/-- PILOT. -/
def stPilot : Nat := 1
/-- BOOT. -/
def stBoot : Nat := 2
/-- READY. -/
def stReady : Nat := 3
/-- RUN. -/
def stRun : Nat := 4
/-- DEGRADED. -/
def stDegraded : Nat := 5
/-- ALARM. -/
def stAlarm : Nat := 6
/-- LOCKED. -/
def stLocked : Nat := 7

/-- PWR_DSTATd.STATE: 0 ON, 1 CG, 2 DRAIN, 3 OFF, 4 WAKING. -/
def State.dom (s : State) (d : Nat) : Nat := s.fld (cr 8 (0x300 + 8 * d)) 0 3

/-- The domain delivers service: ON or CG. -/
def State.domUp (s : State) (d : Nat) : Bool := s.dom d ≤ 1

/-- Power changed by a function. -/
def State.modPower (s : State) (f : PowerState → PowerState) : State := { s with power := f s.power }

/-- PWR_DSTATd.STATE replaced. -/
def setDom (d v : Nat) (s : State) : State := s.setF (cr 8 (0x300 + 8 * d)) 0 3 v

/-- The point of no return of a draining domain, as PowerState.pnr codes it. -/
def State.pnr (s : State) (d : Nat) : Nat := tget (konst 0) s.power.pnr d
/-- The point of no return replaced. -/
def setPnr (d v : Nat) (s : State) : State := s.modPower (fun p => { p with pnr := tset (konst 0) p.pnr d v })

/-- The set-point range of a domain in µV (Table PWR-3), its top capped by the fused VMAX. -/
def setRange (d : Nat) : Nat × Nat :=
  let r := if d < 16 then (600000, 800000) else if 21 ≤ d ∧ d ≤ 28 then (700000, 850000) else (650000, 850000)
  (r.1, min r.2 (Config.vmax.toNat * 1000))

/-- A set point brought into the range. -/
def clampSet (d v : Nat) : Nat := min (max v (setRange d).1) (setRange d).2

/-- PWR_DSTATd.VSET replaced. -/
def setVset (d v : Nat) (s : State) : State := s.setF (cr 8 (0x300 + 8 * d)) 12 20 v

/-- A memory stack. -/
def State.stack (s : State) (k : Nat) : Stack := tget (konst Stack.reset) s.memStacks k

/-- A stack changed. -/
def State.modStack (s : State) (k : Nat) (f : Stack → Stack) : State := { s with memStacks := tset (konst Stack.reset) s.memStacks k (f (s.stack k)) }

/-- The stack of domain d, where it is an H domain, leaves self-refresh. -/
def endRefresh (d : Nat) (s : State) : State := if 21 ≤ d ∧ d ≤ 24 then s.modStack (d - 21) (fun x => { x with refresh := false }) else s

/-- Domain d turns ON: its regulator has settled at a set point within its range, of which the spec gives no value (R351, R358; log entry 2). -/
def domOn (d : Nat) (s : State) : State := (setVset d (clampSet d (s.drawn 0).toNat) (setDom d 0 (endRefresh d s))).draw

/-- The domains whose quadrant belongs to a partition (Table SYS-1, R34): 2 × 2 tiles a domain, four domains a quadrant. -/
def quadDomains (q : Nat) : List Nat :=
  let b := q / 2 * 8 + q % 2 * 2
  [b, b + 1, b + 4, b + 5]

/-- Array domain d lies in quadrant (Table SYS-1, R34). -/
def domQuad (d : Nat) : Nat := d / 4 / 2 * 2 + d % 4 / 2

/-- Domains are held OFF: ALARM, LOCKED, sleep (R382, R384). -/
def State.heldOff (s : State) (d : Nat) : Bool :=
  ((s.devState == stAlarm || s.devState == stLocked) && !(d == 29 || d == 31 || d == 32)) || s.boot.trip || s.boot.sleep || s.devState == stPilot

/-- A wake source reaches domain d: OFF becomes WAKING, for an array domain with every OFF domain of its partition (R351, R355). -/
def wakeDomain (d : Nat) (s : State) : State :=
  if s.dom d ≠ 3 ∨ s.heldOff d then s
  else if d < 16 then
    each (((s.partOf (domQuad d)).flatMap quadDomains).filter (fun x => s.dom x == 3)) (fun x s => setDom x 4 s) s
  else setDom d 4 s

/-- WAKE, or a push or packet, meets a domain that drains: before the point of no return it stays ON, after it it wakes again (R264, R351). -/
def wakeDrain (d : Nat) (s : State) : State :=
  if s.dom d = 2 then (if s.pnr d = 0 then setDom d 0 s else setPnr d 2 s) else wakeDomain d s

/-- A half-edge. -/
def State.half (s : State) (e h : Nat) : Half := tget (konst Half.reset) s.halves (e * 2 + h)
/-- A half-edge changed. -/
def State.setHalf (s : State) (e h : Nat) (v : Half) : State := { s with halves := tset (konst Half.reset) s.halves (e * 2 + h) v }
/-- A half-edge changed by a function. -/
def State.modHalf (s : State) (e h : Nat) (f : Half → Half) : State := s.setHalf e h (f (s.half e h))

-- Interrupt controllers

/-- Control-space offset of a register of ICUn (R239). -/
def icu (n off : Nat) : Nat := cr (0x18 + n) off

/-- Bit j of an array of 32 words at off. -/
def State.icuBit (s : State) (n off j : Nat) : Bool := s.bit (icu n (off + 4 * (j / 32))) (j % 32)
/-- The bit replaced. -/
def State.setIcuBit (s : State) (n off j : Nat) (v : Bool) : State := s.setF (icu n (off + 4 * (j / 32))) (j % 32) 1 (b2n v)

/-- ICUn_CFGj. -/
def icuCfg (n j : Nat) : Nat := icu n (0x1000 + 4 * j)

/-- COUNT(j). -/
def State.icuCount (s : State) (n j : Nat) : Nat := s.fld (icu n (0x2000 + 4 * j)) 0 8

/-- Sources 1,008 to 1,021 are message sources (Table ICU-1). -/
def isMessage (j : Nat) : Bool := decide (1008 ≤ j) && decide (j ≤ 1021)

/-- An edge source: a message source, or SENSE rising, falling or both (R227). -/
def State.isEdge (s : State) (n j : Nat) : Bool := isMessage j || decide (2 ≤ s.fld (icuCfg n j) 24 3)

/-- The group level L(j) (R228). -/
def State.level (s : State) (n j : Nat) : Nat := 1 + s.fld (icuCfg n j) 0 8 / 2 ^ (8 - s.fld (icu n 0) 0 3)

/-- max(COAL_N, 1). -/
def State.coalN (s : State) (n j : Nat) : Nat := max (s.fld (icuCfg n j) 16 8) 1

/-- The coalescing condition (R230). -/
def State.coalesced (s : State) (n j : Nat) : Bool :=
  !s.isEdge n j || s.icuCount n j == 0 || decide (s.coalN n j ≤ s.icuCount n j) ||
  (match tget (konst none) s.timers (n * 1024 + j) with
   | none => false
   | some t => decide (t + 1000 * s.fld (icu n (0x3000 + 4 * j)) 0 16 ≤ s.ran))

/-- Whether source j is deliverable in ICUn against level pl (R228). -/
def State.deliverable (s : State) (n pl j : Nat) : Bool :=
  s.icuBit n 0x100 j && s.icuBit n 0x200 j && !s.icuBit n 0x300 j && decide (pl < s.level n j) && s.coalesced n j

/-- The better of two deliverable sources: higher PRIO, then lower ID (R228). -/
def State.better (s : State) (n : Nat) (best : Option Nat) (j : Nat) : Option Nat :=
  match best with
  | none => some j
  | some b => if s.fld (icuCfg n b) 0 8 < s.fld (icuCfg n j) 0 8 then some j else some b

/-- The deliverable sources of one word of 32, in rising order. -/
def State.deliverables (s : State) (n pl k : Nat) : List Nat :=
  if s.r32 (icu n (0x100 + 4 * k)) = 0 ∨ s.r32 (icu n (0x200 + 4 * k)) = 0 then []
  else ((List.range 32).map (fun i => 32 * k + i)).filter (fun j => decide (j < 1022) && s.deliverable n pl j)

/-- The source a claim would select (R228, R231). -/
def State.best (s : State) (n pl : Nat) : Option Nat :=
  ((List.range 32).flatMap (s.deliverables n pl)).foldl (s.better n) none

/-- What happens to a source in one ICU cycle (R229). -/
structure IcuIn where
  ev : Bool := false
  lvl : Bool := false
  count : Option Nat := none
  pend : Option Bool := none
  clm : Bool := false
  complete : Bool := false

/-- One ICU cycle of source j of ICUn (R229), with its timer (R230). -/
def State.icuCycle (s : State) (n j : Nat) (i : IcuIn) : State :=
  let cnt0 := s.icuCount n j
  let act := s.icuBit n 0x300 j
  let pend0 := s.icuBit n 0x200 j
  let c1 := match i.count with | some v => v % 256 | none => cnt0
  let c2 := if i.ev then min 255 (c1 + 1) else c1
  let c3 := if i.clm && decide (0 < c2) then c2 - 1 else c2
  let p1 := if decide (0 < cnt0) || (i.lvl && !act) then true else pend0
  let p2 := match i.pend with | some b => b | none => p1
  let p3 := if i.clm then false else p2
  let p4 := if i.ev || (i.lvl && !act && !i.clm) then true else p3
  let a1 := if i.clm then true else act
  let a2 := if i.complete then false else a1
  let starts := (cnt0 == 0 && decide (0 < c3)) || (i.clm && decide (0 < c3)) || (i.pend == some true && !pend0)
  let t0 := tget (konst none) s.timers (n * 1024 + j)
  let t1 := if starts then some s.ran else if i.count == some 0 && c3 == 0 then none else t0
  let s1 := ((s.setF (icu n (0x2000 + 4 * j)) 0 8 c3).setIcuBit n 0x200 j p4).setIcuBit n 0x300 j a2
  { s1 with timers := tset (konst none) s1.timers (n * 1024 + j) t1 }

/-- ICUn_CFGj.TARGET. -/
def State.target (s : State) (n j : Nat) : Bool := s.bit (icuCfg n j) 31

/-- A source that has a line (Table ICU-1). -/
def hasLine (j : Nat) : Bool :=
  decide (j ≤ 4) || (decide (8 ≤ j) && decide (j ≤ 17)) || (decide (24 ≤ j) && decide (j ≤ 28)) || (decide (32 ≤ j) && decide (j ≤ 36))
    || [40, 44, 45, 48, 52, 56, 57, 58].contains j || (decide (60 ≤ j) && decide (j ≤ 127))

/-- The last sample of a source's line (R227). -/
def State.lastSample (s : State) (n j : Nat) : Bool := tget (konst false) s.samples (n * 1024 + j)

/-- A level source is active at the last sample of its line (R227, R229). -/
def State.lvl (s : State) (n j : Nat) : Bool :=
  let sense := s.fld (icuCfg n j) 24 3
  s.target n j && !isMessage j && ((sense == 0 && s.lastSample n j) || (sense == 1 && hasLine j && !s.lastSample n j))

/-- A deliverable source wakes the domain of its core (R238). -/
def icuWake (n j : Nat) (s : State) : State :=
  if n < 5 ∧ s.deliverable n (bits (s.core n).sr.toNat 20 8) j then wakeDrain (16 + n) s else s

/-- A cycle in which something happens to source j, and the cycle after it, which derives PENDING again from COUNT and from the level of the line (R229,
log entry 35); a source that is then deliverable wakes its core's domain (R238). -/
def State.icuStep (s : State) (n j : Nat) (i : IcuIn) : State :=
  let s1 := s.icuCycle n j { i with lvl := s.lvl n j }
  icuWake n j (s1.icuCycle n j { lvl := s1.lvl n j })

/-- A line at a level is sampled by ICUn: one cycle of the source with the event that SENSE makes of it, or with its level (R226, R227, R229). -/
def State.sample (s : State) (n j : Nat) (level : Bool) : State :=
  let prev := s.lastSample n j
  let sense := s.fld (icuCfg n j) 24 3
  let ev := s.target n j && !isMessage j && ((sense == 2 && !prev && level) || (sense == 3 && prev && !level) || (sense == 4 && prev != level))
  { s with samples := tset (konst false) s.samples (n * 1024 + j) level }.icuStep n j { ev := ev }

/-- A line that pulses for one ICU cycle, seen by ICUn: a sample at each level (Table ICU-1). -/
def State.pulseAt (j n : Nat) (s : State) : State := (s.sample n j true).sample n j false

/-- A pulse reaches all six ICUs (R226). -/
def State.pulse (s : State) (j : Nat) : State := each (List.range 6) (State.pulseAt j) s

/-- A machine-check record is queued, or dropped when 16 are queued (R236). -/
def State.machineCheck (s : State) (r : Dword) : State :=
  if s.mcq.length < 16 then { s with mcq := s.mcq ++ [r] }
  else (s.setB (icu 5 0x28) 31).incF (icu 5 0x28) 8 8 1

/-- The μPC of the microword that a vendor routine issues after i others: its opcode's entry first (R92), then one that the spec does not give (log entry 2). -/
def vupc (q : QEntry) (i : Nat) : Nat := (if i = 0 then Config.vendorUpc q.op.toNat 0 0 else Config.vendorUpc q.op.toNat q.n i).toNat

/-- The μPC of the microword at which a routine stands: the one fetched, or, for a vendor routine that runs by parts, that of its next microword (R112). -/
def Seq.pcOf (x : Seq) (r : Routine) : Nat := if r.byWord || x.badWord then r.upc.toNat else vupc r.q r.issued

end Sys2Proof.Machine
end

