-- ==== Sys2Proof/Machine/Fec.lean ====
section
/-! DEFINITION. The wire of a half-edge: flits, the codes RS(528,514) and RS(544,514) over GF(2^10), packing and striping (R297, R298, R300, R302).
The codes are those of IEEE 802.3, which the spec names (log entry 40). -/
namespace Sys2Proof.Machine

-- Flits as they are sent (Table SEAM-2)

/-- A flit of its TYPE, SEQ, SUB and payload, with its CRC (R300). -/
def sealFlit (type : Nat) (seq : BitVec 9) (sub : Nat) (payload : BitVec 512) : BitVec 560 :=
  let low := payload.toNat * 2 ^ 16 + type * 2 ^ 13 + seq.toNat * 16 + sub
  BitVec.ofNat 560 (crc32Bits 528 low * 2 ^ 528 + low)

/-- TYPE, SUB and payload of a flit. -/
def flitFields : FlitBody → Nat × Nat × BitVec 512
  | .ctl c => (0, 0, Config.ctlPayload c)
  | .ev v => (1, 0, v)
  | .red r => (2, b2n r.isCount * 8 + b2n r.down * 4, BitVec.ofNat 512 (r.k.toNat + 256 * r.value.toNat))
  | .msg vc1 head tail p => (3, b2n vc1 * 4 + b2n head * 2 + b2n tail, p)
  | .lmf l => (4, 0, Config.lmfPayload l)

/-- The flit with its CRC. -/
def encodeFlit (seq : BitVec 9) (b : FlitBody) : BitVec 560 :=
  let x := flitFields b
  sealFlit x.1 seq x.2.1 x.2.2

/-- An LMF of a payload. -/
def lmfFlit (payload : BitVec 512) : BitVec 560 := sealFlit 4 0 0 payload

/-- What a numbered flit carries. -/
def Numbered.body : Numbered → FlitBody
  | .ev v => .ev v
  | .red r => .red r
  | .msg vc1 head tail p => .msg vc1 head tail p

-- GF(2^10), by x^10 + x^3 + 1

/-- Multiplication by α. -/
def gfxDouble (a : Nat) : Nat := if a < 512 then 2 * a else (2 * a - 1024) ^^^ 9

/-- Product over the n low bits of b. -/
def gfxMulBits : Nat → Nat → Nat → Nat
  | 0, _, _ => 0
  | n + 1, a, b => (if b % 2 = 1 then a else 0) ^^^ gfxMulBits n (gfxDouble a) (b / 2)

/-- Product. -/
def gfxMul (a b : Nat) : Nat := gfxMulBits 10 a b

/-- α^k, k below 1,024: the product of the squares that k's bits name. -/
def gfxPow (k : Nat) : Nat :=
  ((List.range 10).foldl (fun (p : Nat × Nat) i => (if k.testBit i then gfxMul p.1 p.2 else p.1, gfxMul p.2 p.2)) (1, 2)).1

/-- Inverse: the product of a^2, a^4, …, a^512. -/
def gfxInv (a : Nat) : Nat := ((List.range 9).foldl (fun (p : Nat × Nat) _ => let q := gfxMul p.2 p.2; (gfxMul p.1 q, q)) (1, a)).1

/-- Horner's rule from an intermediate value on, coefficients highest first. -/
def gfxHorner (x : Nat) : Nat → List Nat → Nat
  | acc, [] => acc
  | acc, c :: cs => if acc = 0 then gfxHorner x c cs else gfxHorner x (gfxMul acc x ^^^ c) cs

/-- Value of a polynomial, its coefficients highest first. -/
def gfxEval (p : List Nat) (x : Nat) : Nat := gfxHorner x 0 p

-- The codes: a codeword is a list of symbols in the order sent, which is from the highest coefficient down

/-- One step of the parity register. -/
def parityStep (g : List Nat) (r : List Nat) (c : Nat) : List Nat :=
  let f := c ^^^ r.headD 0
  (r.drop 1 ++ [0]).zipWith (fun a b => a ^^^ gfxMul f b) g

/-- The generator with roots α^0 … α^(n−1), without its leading 1, highest first. -/
def generator (n : Nat) : List Nat :=
  ((List.range n).foldl (fun (p : List Nat) k => (p ++ [0]).zipWith (fun a b => a ^^^ gfxMul (gfxPow k) b) (0 :: p)) [1]).drop 1

/-- The n parity symbols of a payload. -/
def paritySymbols (n : Nat) (d : List Nat) : List Nat := d.foldl (parityStep (generator n)) (List.replicate n 0)

/-- What Berlekamp and Massey's steps hold: Λ, the polynomial before its last change, the number of errors, steps since, and the last discrepancy;
coefficients lowest first. -/
structure Locator where
  c : List Nat
  b : List Nat
  l : Nat
  m : Nat
  d : Nat

/-- The sum of two polynomials, lowest first. -/
def polyAdd : List Nat → List Nat → List Nat
  | [], q => q
  | p, [] => p
  | a :: p, b :: q => (a ^^^ b) :: polyAdd p q

/-- One step with the n-th syndrome. -/
def locatorStep (s : List Nat) (x : Locator) (n : Nat) : Locator :=
  let d := (List.range (x.l + 1)).foldl (fun acc i => acc ^^^ gfxMul (x.c.getD i 0) (if i ≤ n then s.getD (n - i) 0 else 0)) 0
  if d = 0 then { x with m := x.m + 1 }
  else
    let k := gfxMul d (gfxInv x.d)
    let c := polyAdd x.c (List.replicate x.m 0 ++ x.b.map (gfxMul k))
    if 2 * x.l ≤ n then ⟨c, x.c, n + 1 - x.l, 1, d⟩ else { x with c := c, m := x.m + 1 }

/-- The syndromes of n parity symbols. -/
def syndromes (n : Nat) (w : List Nat) : List Nat := (List.range n).map (fun k => gfxEval w (gfxPow k))

/-- Symbols corrected where Λ vanishes, by Forney's rule; inv is the inverse of the place of the first one, each next one's being α times as much. -/
def forney (lam omega odd : Nat → Nat) : Nat → List Nat → List Nat
  | _, [] => []
  | inv, c :: cs =>
    (if lam inv = 0 then c ^^^ gfxMul (gfxInv inv) (gfxMul (omega inv) (gfxInv (odd inv))) else c) :: forney lam omega odd (gfxDouble inv) cs

/-- A codeword as corrected in at most n / 2 symbols; none where it is uncorrectable. -/
def decodeWord (n : Nat) (w : List Nat) : Option (List Nat) :=
  let s := syndromes n w
  if s.all (· == 0) then some w
  else
    let x := (List.range n).foldl (locatorStep s) ⟨[1], [1], 0, 1, 1⟩
    let omega := (List.range n).map (fun k => (List.range (k + 1)).foldl (fun acc i => acc ^^^ gfxMul (x.c.getD i 0) (s.getD (k - i) 0)) 0)
    let low := fun (p : List Nat) (v : Nat) => gfxEval p.reverse v
    let odd := (List.range x.c.length).map (fun i => if i % 2 = 0 then x.c.getD (i + 1) 0 else 0)
    -- the first symbol is the coefficient of x^(length − 1)
    let fixed := forney (low x.c) (low omega) (low odd) (gfxPow (1024 - w.length)) w
    if x.l ≤ n / 2 ∧ (syndromes n fixed).all (· == 0) then some fixed else none

-- Packing and striping (R298)

/-- Payload bits of a codeword. -/
def payloadBits : Nat := 5140

/-- A codeword's payload symbols, of 10 bits each, in bit order. -/
def payloadSymbols (v : Nat) : List Nat := (List.range 514).map (fun i => bits v (10 * i) 10)

/-- The payload bits of a codeword. -/
def payloadOf (w : List Nat) : Nat := (w.take 514).reverse.foldl (fun acc c => acc * 1024 + c) 0

/-- Symbols striped across n lanes in lane order, the first on the lane given: the stripe runs on from codeword to codeword. -/
def stripe (n lane : Nat) (w : List Nat) : List (List (BitVec 10)) :=
  (List.range n).map (fun k => ((List.range w.length).filter (fun i => (lane + i) % n == k)).map (fun i => BitVec.ofNat 10 (w.getD i 0)))
/-- The symbols of k rounds over lanes, a lane that has no more giving 0. -/
def rounds : Nat → List (List (BitVec 10)) → List Nat
  | 0, _ => []
  | k + 1, lanes => lanes.map (fun l => (l.headD 0).toNat) ++ rounds k (lanes.map List.tail)
/-- The symbols of k rounds over the lanes, the lane of the first being the one given: lanes before it join a round later. -/
def gather (lanes : List (List (BitVec 10))) (lane k : Nat) : List Nat := rounds k (lanes.drop lane ++ lanes.take lane)

/-- Parity symbols of the code that SEAMe_CTL.RATE and FEC28 select (Table SEAM-1). -/
def fecParity (rate : Nat) (fec28 : Bool) : Nat := if rate = 0 then (if fec28 then 14 else 0) else 30

/-- The code's part of sending a flit: it joins the flits that wait for their codeword, and a full codeword goes out over the working lanes, every 65,536th
after an alignment codeword (R298). -/
def Half.encode (h : Half) (f : BitVec 560) : Half :=
  if h.parity = 0 then h
  else
    let v := h.tx.bits.toNat + f.toNat * 2 ^ h.tx.len
    let n := h.tx.len + 560
    if n < payloadBits then { h with tx := { h.tx with bits := BitVec.ofNat 5700 v, len := n } }
    else
      let d := payloadSymbols v
      let w := d ++ paritySymbols h.parity d
      let first := if h.tx.count = 0 then Config.alignWord h.parity else []
      { h with tx := ⟨BitVec.ofNat 5700 (v / 2 ^ payloadBits), n - payloadBits, (h.tx.count + 1) % 65536, stripe h.width h.tx.lane (first ++ w), h.tx.last,
        (h.tx.lane + first.length + w.length) % h.width⟩ }

/-- A flit goes on the wire and takes a flit slot (R300, R301). -/
def Half.emit (h : Half) (f : BitVec 560) : Half :=
  let x := h.encode f
  { x with slots := x.slots + 1, tx := { x.tx with last := f } }

/-- The next flit in the codewords that the working lanes brought: the flit of the raw stream, and its corrected copy where they decode (R298, R302).
Lanes beyond the working ones carry nothing. -/
def Half.flitIn (h : Half) (symbols : List (List (BitVec 10))) : BitVec 560 × Option (BitVec 560) :=
  let lanes := (List.range h.width).map (fun k => symbols.getD k [])
  let len := 514 + h.parity
  let spans := decide (payloadBits < h.rxPos + 560)
  -- between the last codeword of 65,536 and the next stands an alignment codeword
  let at2 := if h.rxCount = 65535 then 2 * len else len
  let all := (gather lanes h.rxLane (at2 + len)).take (at2 + len)
  let w0 := all.take len
  let w1 := (all.drop at2).take len
  let flit := fun (a b : List Nat) => BitVec.ofNat 560 (bits (payloadOf a + payloadOf b * 2 ^ payloadBits) h.rxPos 560)
  let fixed := match decodeWord h.parity w0, (if spans then decodeWord h.parity w1 else some []) with
    | some a, some b => some (flit a b)
    | _, _ => none
  (flit w0 w1, fixed)

/-- The receiver has passed one flit of the stream. -/
def Half.passed (h : Half) : Half :=
  let p := h.rxPos + 560
  if p < payloadBits then { h with rxPos := p }
  else
    let words := if h.rxCount = 65535 then 2 else 1
    { h with rxPos := p - payloadBits, rxCount := (h.rxCount + 1) % 65536, rxLane := (h.rxLane + words * (514 + h.parity)) % h.width }

end Sys2Proof.Machine
end

