-- ==== Sys2Proof/Machine/HostOps.lean ====
section
/-! DEFINITION. Functions, windows, entries, events and the device state (R276–R292, R381). -/
namespace Sys2Proof.Machine

/-- The host interface changed by a function. -/
def State.modHost (s : State) (f : HostState → HostState) : State := { s with host := f s.host }

/-- A function's state. -/
def State.fn (s : State) (f : Nat) : Fn := tget (konst Fn.reset) s.host.fns f
/-- A function changed. -/
def State.modFn (s : State) (f : Nat) (g : Fn → Fn) : State :=
  s.modHost (fun h => { h with fns := tset (konst Fn.reset) h.fns f (g (s.fn f)) })

/-- A queue. -/
def State.queue (s : State) (q : Nat) : Queue := tget (konst Queue.reset) s.host.queues q
/-- A queue changed. -/
def State.setQueue (s : State) (q : Nat) (k : Queue) : State :=
  s.modHost (fun h => { h with queues := tset (konst Queue.reset) h.queues q k })
/-- A queue changed by a function. -/
def State.modQueue (s : State) (q : Nat) (g : Queue → Queue) : State := s.setQueue q (g (s.queue q))

/-- The strap PCIE_BIF: two x8 links (R276). -/
def State.bif (s : State) : Bool := s.bit (cr 0 0x10) 6
/-- The port of a function (R276). -/
def State.portOf (s : State) (f : Nat) : Nat := if s.bif ∧ 128 ≤ f then 1 else 0
/-- A physical function. -/
def State.isPf (s : State) (f : Nat) : Bool := f == 0 || (s.bif && f == 128)
/-- The physical function of a port. -/
def portPf (p : Nat) : Nat := 128 * p
/-- Whether a queue belongs to a port. -/
def State.portQueue (s : State) (p q : Nat) : Bool := !s.bif || q / 32768 == p
/-- The vectors of a port. -/
def State.portVectors (s : State) : Nat := if s.bif then 8192 else 16384
/-- The link of a port. -/
def State.link (s : State) (p : Nat) : PcieLink := tget (konst PcieLink.reset) s.host.links p
/-- A link is in L0 or L1 (R384). -/
def State.linkAwake (s : State) : Bool := [0, 1].any (fun p => (s.link p).state == .l0 || (s.link p).state == .l1)
/-- The functions of a port. -/
def State.portFns (s : State) (p : Nat) : List Nat := if s.bif then (List.range 128).map (· + 128 * p) else List.range 256

/-- PF_FCFG of a function (R295). -/
def State.fcfg (s : State) (f : Nat) : Nat :=
  match (s.fn f).fcfg with
  | some v => v.toNat
  | none => if s.isPf f then 0x2f000800 else 0x0f000020
/-- PF_FCFG.NVEC. -/
def State.nvec (s : State) (f : Nat) : Nat := bits (s.fcfg f) 0 12
/-- PF_FCFG.PARTMASK. -/
def State.partMask (s : State) (f : Nat) : Nat := bits (s.fcfg f) 24 4
/-- PF_FCFG.LVL. -/
def State.fnLevel (s : State) (f : Nat) : Nat := bits (s.fcfg f) 28 2
/-- PF_FCFG.KEYOK. -/
def State.keyOk (s : State) (f : Nat) : Bool := (s.fcfg f).testBit 31

/-- FN_STAT.WREJ set. -/
def State.wrej (s : State) (f : Nat) : State := s.modFn f (fun x => { x with wrej := true })
/-- A dropped event or discarded entry counted. -/
def evDrop (f : Nat) (s : State) : State := s.modFn f (fun x => { x with evdrop := BitVec.ofNat 16 (satAdd 16 x.evdrop.toNat 1) })
/-- A discarded doorbell counted. -/
def dbDrop (f : Nat) (s : State) : State := s.modFn f (fun x => { x with dbdrop := BitVec.ofNat 16 (satAdd 16 x.dbdrop.toNat 1) })

/-- FN_QCTX.LOG2N. -/
def Queue.log (q : Queue) : Nat := bits q.ctx.toNat 58 5
/-- The number of entries of the ring. -/
def Queue.len (q : Queue) : Nat := 2 ^ q.log
/-- FN_QCTX.TYPE: 1 submission, 2 completion, 3 event. -/
def Queue.type (q : Queue) : Nat := bits q.ctx.toNat 56 2
/-- FN_QCTX.PART. -/
def Queue.part (q : Queue) : Nat := bits q.ctx.toNat 54 2
/-- FN_QCTX.VEC. -/
def Queue.vec (q : Queue) : Nat := bits q.ctx.toNat 43 11
/-- FN_QCTX.COAL_N. -/
def Queue.coalN (q : Queue) : Nat := bits q.ctx.toNat 35 8
/-- FN_QCTX.COAL_T. -/
def Queue.coalT (q : Queue) : Nat := bits q.ctx.toNat 19 16
/-- FN_QCTX.CQ. -/
def Queue.cq (q : Queue) : Nat := bits q.ctx.toNat 0 16
/-- A ring is full (R291). -/
def Queue.full (q : Queue) : Bool := (q.tail.toNat + 1) % q.len == q.head.toNat

/-- Whether a request of n bytes lies in one window of f that grants the right (R278, R279). -/
def State.window (s : State) (f a n : Nat) (write : Bool) : Bool :=
  (List.range 16).any (fun w =>
    let b := (tget (konst 0) (s.fn f).winBase w).toNat
    let c := (tget (konst 0) (s.fn f).winCtl w).toNat
    c.testBit 63 && c.testBit (if write then 61 else 62) && decide (b ≤ a) && decide (a + n ≤ b + bits c 12 40 * 4096))

/-- FN_QSTAT. -/
def Queue.stat (k : Queue) : Nat :=
  k.state.code * 2 ^ 62 + k.err.toNat * 2 ^ 58 + b2n k.ph * 2 ^ 57 + k.tail.toNat * 2 ^ 16 + k.head.toNat

/-- A report of the host class: function and address, FN_QSTAT (Table LIFE-5). -/
def hostReport (f a q : Nat) (s : State) : State := s.reportN 10 3 0x38 (f * 2 ^ 56 + a % 2 ^ 56) (s.queue q).stat

/-- A failed window check is counted and shown in HOST_EVT (R279). -/
def windowFail (f a q : Nat) (s : State) : State :=
  hostReport f a q ((s.incF (cr 0x38 0x1108) 0 32 1).setB (cr 0x38 0x1100) 1)

/-- The key of a host address of a function's host. -/
def State.hostKey (s : State) (f a : Nat) : Nat := s.portOf f * 2 ^ 64 + a
/-- Bytes of host memory. -/
def State.hostBytes (s : State) (f a n : Nat) : List Byte := (List.range n).map (fun i => tget (konst 0) s.host.mem (s.hostKey f a + i))
/-- Bytes stored into host memory. -/
def hostStore (f a : Nat) : List Byte → State → State
  | [], s => s
  | b :: bs, s => hostStore f (a + 1) bs (s.modHost (fun h => { h with mem := tset (konst 0) h.mem (s.hostKey f a) b }))

/-- Queue q signals its vector; a masked one becomes pending (R292). -/
def signal (q : Nat) (s : State) : State :=
  let k := s.queue q
  let f := k.owner.getD 0
  let x := s.fn f
  let s1 := s.setQueue q { k with unsig := 0 }
  if !x.msixEn || x.masked || tget (konst false) x.vecMask k.vec then
    s1.modFn f (fun x => { x with vecPend := tset (konst false) x.vecPend k.vec true })
  else s1.modHost (fun h => { h with msgs := h.msgs ++ [(f, k.vec)] })

/-- The address of a ring's entry i. -/
def Queue.entry (q : Queue) (i : Nat) : Nat := q.base.toNat + 64 * i

/-- An entry stored at the tail with its phase, and its signal (R291, R292). -/
def storeEntry (q : Nat) (e : List Byte) (notOk : Bool) (s : State) : State :=
  let k := s.queue q
  let f := k.owner.getD 0
  let s1 := hostStore f (k.entry k.tail.toNat) (e ++ toBytes 4 (b2n k.ph)) s
  let t := (k.tail.toNat + 1) % k.len
  let s2 := s1.setQueue q { k with tail := BitVec.ofNat 16 t, ph := if t = 0 then !k.ph else k.ph, unsig := k.unsig + 1
                                   first := if k.unsig = 0 then s.ran else k.first }
  if notOk ∨ max k.coalN 1 ≤ k.unsig + 1 then signal q s2 else s2

/-- Whether the next entry of a queue passes the window check. -/
def State.entryOk (s : State) (q : Nat) : Bool :=
  let k := s.queue q
  s.window (k.owner.getD 0) (k.entry k.tail.toNat) 64 true

/-- A queue enters ERROR (R283). -/
def enterError (q err : Nat) (s : State) : State :=
  (s.modQueue q (fun k => { k with state := .error, err := BitVec.ofNat 4 err })).setB (cr 0x38 0x1100) 0

/-- The entry write that failed its window check (R291). -/
def entryFails (q : Nat) (s : State) : State := evDrop ((s.queue q).owner.getD 0) (enterError q 8 (windowFail ((s.queue q).owner.getD 0) ((s.queue q).base.toNat + 64 * (s.queue q).tail.toNat) q s))

/-- The lowest-numbered ENABLED event queue of a function (R291). -/
def State.eventQueue (s : State) (f : Nat) : Option Nat :=
  (s.host.queues.find? (fun e => e.2.owner == some f && e.2.state == .enabled && e.2.type == 3)).map (·.1)

/-- The first 60 bytes of an event entry (R291). -/
def eventBytes (ev q detail : Nat) (now : Dword) : List Byte := toBytes 2 ev ++ toBytes 2 q ++ toBytes 4 detail ++ toBytes 8 now.toNat ++ toBytes 44 0

/-- An event for function f. A queue that fails takes a QUEUE_ERROR event of its own; `fuel` bounds their number. -/
def sendEvent : Nat → Nat → Nat → Nat → Nat → State → State
  | 0, f, _, _, _, s => evDrop f s
  | fuel + 1, f, ev, q, detail, s =>
    match s.eventQueue f with
    | none => evDrop f s
    | some e =>
      if (s.queue e).full then (evDrop f s).modQueue e (fun k => { k with lost := k.lost + 1 })
      else if s.entryOk e then storeEntry e (eventBytes ev q detail s.now) false s
      else sendEvent fuel ((s.queue e).owner.getD 0) 1 e 8 (entryFails e s)

/-- An event, with fuel enough for every queue to fail once. -/
def event (f ev q detail : Nat) (s : State) : State := sendEvent (s.host.queues.length + 1) f ev q detail s

/-- QUEUE_ERROR_EVENT: a queue enters ERROR and its function is told (R283, R284). -/
def queueError (q err : Nat) (s : State) : State :=
  let s1 := enterError q err s
  match (s.queue q).owner with
  | some f => event f 1 q err s1
  | none => s1

/-- A completion or event entry written, or its queue enters ERROR (R291). -/
def writeEntry (q : Nat) (e : List Byte) (notOk : Bool) (s : State) : State :=
  if s.entryOk q then storeEntry q e notOk s
  else event ((s.queue q).owner.getD 0) 1 q 8 (entryFails q s)

-- The device state

/-- STATE_CHANGE: the state changes, is logged under class 14 and sent to every function while domain P has power (R381, R291). -/
def stateChange (new : Nat) (s : State) : State :=
  if s.devState = new then s
  else
    let s1 := (s.setF (cr 0 0x18) 0 3 new).reportN 14 3 0 (s.devState * 256 + new) (s.r64 (cr 7 8))
    if s.domUp 29 then each (List.range 256) (fun f s => event f 2 0 new s) s1 else s1

/-- A degradation cause arises: bit of SYS_STATE, and DEGRADED from READY or RUN (R383). -/
def degrade (bit : Nat) (s : State) : State :=
  let s1 := s.setB (cr 0 0x18) bit
  if s.devState = stReady ∨ s.devState = stRun then stateChange stDegraded s1 else s1

/-- The program that runs on partition p. -/
def State.prog (s : State) (p : Nat) : Option Prog := tget (konst none) s.host.progs p
/-- The program replaced. -/
def State.setProgram (s : State) (p : Nat) (g : Option Prog) : State :=
  s.modHost (fun h => { h with progs := tset (konst none) h.progs p g })

/-- The RUN_PROGRAM of queue q has been dispatched, and no firmware has taken it yet (R289). -/
def State.dispatched (s : State) (q : Nat) : Bool := s.host.progs.any (fun e => match e.2 with | some g => g.queue == q && !g.taken | none => false)

/-- Whether a job runs; a RUN_PROGRAM begins to run when the firmware has taken it (R381). -/
def State.jobRuns (s : State) : Bool :=
  s.host.queues.any (fun e => e.2.jobs.any (fun j => j.start.isSome && j.done.isNone && !(ofBytes (j.desc.take 1) == 1 && s.dispatched e.1)))

/-- A job starts in READY: the device enters RUN (R381). -/
def toRun (s : State) : State := if s.devState = stReady then stateChange stRun s else s

/-- The program that core c runs is ordered to stop (R294). -/
def State.stopping (s : State) (c : Nat) : Option Nat :=
  (s.drives c).filter (fun p => match s.prog p with | some g => g.stop && g.ended.isNone | none => false)

/-- A program that is ordered to stop has reached its boundary. The preemption lane is flushed, and the array queue with it, which ends their halts, once the
array instruction that executes, or that is suspended and goes on, has completed; until then the partition keeps the program (R113, R294; log entry 46). -/
def haltProgram (p c : Nat) (s : State) : State :=
  let x := s.seq c
  let later := x.run.isSome || x.inside
  let s1 := (s.modCore c (fun k => { k with run := .running, rep := none })).setSeq c { x with
    lane := [], lHalt := false, resuming := x.frame.isSome, flush := later, queue := if later then x.queue else [], qHalt := later && x.qHalt }
  s1.setProgram p ((s.prog p).bind (fun g => if later then some { g with stop := true, ended := some (0, 0, 0, 0, 0) } else none))

/-- An instruction of core c has completed: a program that is ordered to stop ends here (R294). -/
def stopHere (c : Nat) (s : State) : State :=
  match s.stopping c with
  | some p => if (s.core c).run = .running then haltProgram p c s else s
  | none => s

end Sys2Proof.Machine
end

