-- ==== Sys2Proof/Machine/Maint.lean ====
section
/-! DEFINITION. Admission of maintenance activities, the NVM writer and the fault log (chapter 19). -/
namespace Sys2Proof.Machine

/-- The outcomes of Table LIFE-3. -/
inductive Admit where
  | yes | cluster | tile | bank | edge | network | never | ends | shares
  deriving DecidableEq, Repr

/-- Table LIFE-3: starting kind a while kind b runs. -/
def admission (a b : Nat) : Admit :=
  match a, b with
  | 1, 1 | 1, 2 => .cluster
  | 2, 1 => .ends
  | 2, 2 => .tile
  | 3, 3 | 3, 4 | 4, 3 => .bank
  | 5, 5 | 5, 6 | 6, 5 => .edge
  | 6, 6 => .never
  | 7, 7 | 7, 8 | 8, 7 | 8, 8 => .network
  | 9, 9 | 9, 10 | 9, 11 => .never
  | 10, 9 | 10, 11 => .shares
  | 11, 9 | 11, 10 | 11, 11 | 11, 12 => .never
  | 12, 11 | 12, 12 => .never
  | 13, 13 => .never
  | _, _ => .yes

/-- Whether the running activity b holds a resource of the starting activity a (R436). A cluster is tile × 66 + number. -/
def conflicts (a b : Activity) : Bool :=
  match admission a.kind b.kind with
  | .yes | .ends | .shares => false
  | .never => true
  | .tile => a.unit / 66 == b.unit / 66
  | .cluster | .bank | .network => a.unit == b.unit
  | .edge => (a.unit :: a.units).any (fun e => (b.unit :: b.units).contains e)

/-- The running activity that refuses a, if any. -/
def State.blocker (s : State) (a : Activity) : Option Activity := s.acts.find? (conflicts a)

/-- A refusal is recorded in MAINT_REF and MAINT_RCNT and in the error log (R438, class 14). -/
def State.refuse (s : State) (a by_ : Activity) : State :=
  let r := 2 ^ 63 + a.kind * 2 ^ 52 + by_.kind * 2 ^ 48 + a.arg.toNat
  let s1 := (s.setR64 (cr 7 8) r).incF (cr 7 0x10) 0 32 1
  s1.report 14 3 7 9 0 r

/-- ADMISSION_CHECK (R435, R436): the activity is admitted and held as running, or the refusal is recorded. -/
def State.admits (s : State) (a : Activity) : Bool × State :=
  match s.blocker a with
  | some b => (false, s.refuse a b)
  | none => (true, { s with acts := s.acts ++ [a] })

/-- Whether an activity of a kind runs on a unit. -/
def State.running (s : State) (kind unit : Nat) : Bool := s.acts.any (fun a => a.kind == kind && a.unit == unit)

/-- An activity ends and releases its resources (R435). -/
def State.release (s : State) (kind unit : Nat) : State :=
  { s with acts := s.acts.filter (fun a => !(a.kind == kind && a.unit == unit)) }

/-- MAINT_RUN.KIND (R444). -/
def State.maintRun (s : State) : Nat := (List.range 14).foldl (fun m k => m + b2n (decide (0 < k) && s.acts.any (·.kind == k)) * 2 ^ k) 0

/-- NVM_STAT: BUSY and the kind that holds the writer: the one that has run longest, a repair-map write waiting behind it for the slice boundary (R437, R444). -/
def State.nvmStat (s : State) : Nat :=
  match s.acts.find? (fun a => decide (9 ≤ a.kind) && decide (a.kind ≤ 11)) with
  | some a => 2 ^ 31 + a.kind * 2 ^ 24
  | none => 0

/-- An activity of Table LIFE-2 with one unit. -/
def act (kind unit arg : Nat) : Activity := ⟨kind, unit, [], BitVec.ofNat 32 arg⟩

/-- A repair-map record arises: the lamplighter writes it under R187. Its activity runs until nothing is left to write, and is never refused (R436, R437). -/
def State.mapRecord (s : State) (r : RepairRec) : State :=
  { s with mapDue := s.mapDue ++ [r], acts := if s.acts.any (fun a => a.kind == 10) then s.acts else s.acts ++ [act 10 0 0] }

/-- STORE or FW_INSTALL holds the NVM writer (R437). -/
def State.writerHeld (s : State) : Bool := s.acts.any (fun a => a.kind == 9 || a.kind == 11)

/-- Device address of the NVM read window (Table SYS-4). -/
def nvmBase : Nat := 0x4300000000

/-- Address of fault-log slot i (Table SYS-5). -/
def flogSlot (i : Nat) : Nat := nvmBase + 0x470000 + 32 * i

/-- Fault-log records written since manufacture (R441). -/
def State.flogTotal (s : State) : Nat := s.num (flogSlot 0) 8

/-- The slot the next record is written to (R441): 1–8,192 once, then the ring 8,193–16,383. -/
def flogNext (total : Nat) : Nat := if total < 8192 then total + 1 else 8193 + (total - 8192) % 8191

end Sys2Proof.Machine
end

