-- ==== Sys2Proof/Machine/Ring.lean ====
section
/-! DEFINITION. Ring routes, flips, segment retirement and the writes of pages RING and PROBE (R257–R273). -/
namespace Sys2Proof.Machine

/-- Index of a network in RING registers. -/
def netIdx : Net → Nat
  | .req => 0 | .rsp => 1 | .snp => 2 | .dat => 3

/-- The number of rings of a network (Table RING-1). -/
def ringsOf (n : Nat) : Nat := if n = 3 then 4 else 2

/-- A ring runs clockwise (R257). -/
def clockwise (n ring : Nat) : Bool := if n = 3 then decide (ring < 2) else ring == 0

/-- The default ring from a stop to a destination (R266). -/
def defaultRing (n src dest : Nat) : Nat :=
  let cw := decide ((dest + 16 - src) % 16 ≤ 8)
  if n = 3 then (if cw then dest % 2 else 2 + dest % 2) else if cw then 0 else 1

/-- The default of the route tables by key: bank × 1,024 + network × 256 + stop × 16 + destination. -/
def route0 (k : Nat) : Route := ⟨true, defaultRing (k / 256 % 4) (k / 16 % 16) (k % 16)⟩

/-- Route entry of a bank. -/
def State.route (s : State) (bank n src dest : Nat) : Route := tget route0 s.routes (bank * 1024 + n * 256 + src * 16 + dest)

/-- A route entry replaced. -/
def State.setRoute (s : State) (bank n src dest : Nat) (r : Route) : State :=
  { s with routes := tset route0 s.routes (bank * 1024 + n * 256 + src * 16 + dest) r }

/-- The active bank of a stop, and the bank a flip of the network leads to. -/
def State.stopBank (s : State) (n src : Nat) : Nat := tget (konst 0) s.routeBank (n * 16 + src)
/-- The bank that every stop of network n uses once no flip is in progress. -/
def State.netBank (s : State) (n : Nat) : Nat := tget (konst 0) s.routeBank (64 + n)

/-- RING_STAT. -/
def ringStat : Nat := cr 0x40 0xc
/-- RING_STAT.FBUSY of a network. -/
def State.fbusy (s : State) (n : Nat) : Bool := s.bit ringStat n
/-- RING_STAT.RBUSY. -/
def State.rbusy (s : State) (n : Nat) : Bool := s.bit ringStat (4 + n)

/-- The segment that a retirement of network n is cutting: ring × 16 + position, of its argument (Table DICT-10). -/
def State.cutting (s : State) (n : Nat) : Option Nat := (s.acts.find? (fun a => a.kind == 8 && a.unit == n)).map (fun a => a.arg.toNat / 65536 % 256)

/-- A segment that carries no flits: marked in RING_SEGn, or being retired (R269). -/
def State.segOut (s : State) (n ring seg : Nat) : Bool := s.bit (cr 0x40 (0x40 + 8 * n)) (16 * ring + seg) || s.cutting n == some (16 * ring + seg)

/-- The positions from which the segments of a path leave. -/
def pathSegs (n ring src dest : Nat) : List Nat :=
  if clockwise n ring then (List.range ((dest + 16 - src) % 16)).map (fun i => (src + i) % 16)
  else (List.range ((src + 16 - dest) % 16)).map (fun i => (src + 16 - i) % 16)

/-- A path that crosses a retired segment. -/
def State.crosses (s : State) (n ring src dest : Nat) : Bool := (pathSegs n ring src dest).any (s.segOut n ring)

/-- An entry treated as unreachable (R267). -/
def State.unreachable (s : State) (n src dest : Nat) (r : Route) : Bool := !r.v || decide (ringsOf n ≤ r.ring) || s.crosses n r.ring src dest

/-- The active entry of a source stop for a destination stop (R261, R266). -/
def State.routeOf (s : State) (n src dest : Nat) : Route := s.route (s.stopBank n src) n src dest

/-- No route leads from a stop to another (R267). -/
def State.noRoute (s : State) (n src dest : Nat) : Bool := src != dest && s.unreachable n src dest (s.routeOf n src dest)

/-- The other rings of a network, those of the same direction first (R269). -/
def otherRings (n ring : Nat) : List Nat :=
  if n = 3 then (if ring < 2 then [1 - ring, 2 + ring, 3 - ring] else [5 - ring, ring - 2, 3 - ring]) else [1 - ring]

/-- The entry a retirement writes in place of r (R269 step 2). -/
def State.moveRoute (s : State) (n src dest : Nat) (r : Route) : Route :=
  if src ≠ dest ∧ s.crosses n r.ring src dest then
    match (otherRings n r.ring).find? (fun x => !s.crosses n x src dest) with
    | some x => { r with ring := x }
    | none => r
  else r

/-- The standby bank of network n made from the active one (R269). -/
def rewriteStandby (n : Nat) (s : State) : State :=
  let b := s.netBank n
  each (List.range 16) (fun src s => each (List.range 16) (fun d s => s.setRoute (1 - b) n src d (s.moveRoute n src d (s.route b n src d))) s) s

/-- A flip begins: FBUSY, every stop still on its old bank (R267). -/
def beginFlip (n : Nat) (s : State) : State :=
  ({ s with routeBank := tset (konst 0) s.routeBank (64 + n) (1 - s.netBank n) } : State).setB ringStat n

/-- A flip ends once every stop has switched; a retirement then marks its segment (R267, R269). -/
def endFlip (n : Nat) (s : State) : State :=
  if (List.range 16).all (fun p => s.stopBank n p == s.netBank n) then
    let s1 := s.setF ringStat n 1 0
    match s1.cutting n with
    | some g => ((s1.setB (cr 0x40 (0x40 + 8 * n)) g).setF ringStat (4 + n) 1 0).release 8 n
    | none => s1.release 7 n
  else s

/-- A stop switches at a packet boundary of its injection input (R267). -/
def stopSwitch (n src : Nat) (s : State) : State :=
  if s.fbusy n then endFlip n { s with routeBank := tset (konst 0) s.routeBank (n * 16 + src) (s.netBank n) } else s

/-- RING_CMD.FLIP of one network (R267, R268, R436). -/
def ringFlip (n : Nat) (s : State) : State :=
  match s.admits (act 7 n 0) with
  | (false, s1) => s1.setB ringStat 31
  | (true, s1) => if s.fbusy n ∨ s.rbusy n then s.setB ringStat 31 else beginFlip n s1

/-- The stop after a segment. -/
def segEnd (n ring seg : Nat) : Nat := if clockwise n ring then (seg + 1) % 16 else (seg + 15) % 16

/-- The packet is on a ring on which its path crosses a segment. -/
def Packet.on (p : Packet) (n ring seg : Nat) : Bool :=
  p.stage == .flying && p.sstop != p.dstop && netIdx p.net == n && p.ring == ring && (pathSegs n ring p.sstop.val p.dstop.val).contains seg

/-- The RETRY that the stop after a segment sends to the source port of a packet cut there (R270). -/
def retryFor (n ring seg tag : Nat) (p : Packet) : Packet :=
  { p with tag := tag, ref := p.tag, net := .rsp, sstop := Fin.ofNat 16 (segEnd n ring seg), sport := 0, dstop := p.sstop, dport := p.sport, cargo := .retry
           prio := 0, ring := 0, resends := 0, left := 1, stage := .waiting, answered := false, status := none, data := none, discard := false }

/-- A packet that holds a segment is cut: its source waits for the RETRY (R270). -/
def cutPacket (n ring seg : Nat) (p : Packet) (s : State) : State :=
  if p.on n ring seg then
    { s with packets := s.packets.map (fun x => if x.tag = p.tag then { x with stage := .cut } else x) ++ [retryFor n ring seg s.nextTag p]
             nextTag := s.nextTag + 1 }
  else s

/-- Steps 1 to 3 of a retirement; the last stop to switch ends it (R269). -/
def beginRetire (n ring seg : Nat) (s : State) : State :=
  let s1 := rewriteStandby n (s.setB ringStat (4 + n))
  let s2 := (beginFlip n s1).setB ringStat 29
  s2.reportN 8 2 0x40 (s2.r64 (cr 0x40 (0x40 + 8 * n))) (ring * 16 + seg)

/-- A retirement asks to start; the packets that `cut` names and that hold the segment are cut. One that meets a flip or a retirement of its network is refused,
as the matrix refuses it too, and a command shows it in REJ as well (R268–R270, R436, R438). -/
def ringRetire (cmd : Bool) (n ring seg : Nat) (cut : List Nat) (s : State) : State :=
  let a := act 8 n (n * 2 ^ 24 + ring * 2 ^ 20 + seg * 2 ^ 16)
  let rej := fun (s : State) => when cmd (fun s => s.setB ringStat 31) s
  match s.blocker a with
  | some b => rej (s.refuse a b)
  | none =>
    if s.fbusy n ∨ s.rbusy n then rej s
    else
      let s1 := beginRetire n ring seg { s with acts := s.acts ++ [a] }
      each (s1.packets.filter (fun p => cut.contains p.tag)) (cutPacket n ring seg) s1

/-- The packets that a segment's loss cuts, of those in flight on its ring: which of them have passed it is free (log entry 2). -/
def State.cutFree (s : State) (n ring seg : Nat) : List Nat :=
  ((s.packets.filter (fun p => p.on n ring seg)).map (·.tag)).filter (fun t => (Config.freeWord (512 * s.free + t % 512)).getLsbD (t / 512 % 64))

/-- RING_CMD written: flips in rising network order, then a retirement (R267–R269). -/
def ringCmd (v : Nat) (s : State) : State :=
  let s1 := each ((List.range 4).filter (fun n => v.testBit n)) ringFlip s
  if v.testBit 31 then
    let n := bits v 24 2
    if ringsOf n ≤ bits v 20 2 then s1.setB ringStat 30
    else ringRetire true n (bits v 20 2) (bits v 16 4) (s1.cutFree n (bits v 20 2) (bits v 16 4)) s1.draw
  else s1

/-- RING_RTDATA written: the standby entry of RING_RTSEL (R266, R268). -/
def routeWrite (v : Nat) (s : State) : State :=
  let sel := s.r32 (cr 0x40 0x10)
  let n := bits sel 8 2
  if s.fbusy n ∨ s.rbusy n then s.setB ringStat 30
  else s.setRoute (1 - s.netBank n) n (bits sel 4 4) (bits sel 0 4) ⟨v.testBit 3, v % 4⟩

/-- A re-admission of ports (R265). -/
def readmitPorts (p v : Nat) (s : State) : State := s.plainWrite32 (cr 0x40 (0x100 + 4 * p)) v

/-- RING registers written by the management core (R273). -/
def ringWriteOk (off v : Nat) (s : State) : State :=
  if off = 8 then ringCmd v s
  else if off = 0 then
    if bits v 0 14 = 0 ∨ 10000 < bits v 0 14 then (s.plainWrite32 (cr 0x40 0) (setBits v 0 14 (s.fld (cr 0x40 0) 0 14))).setB ringStat 30
    else s.plainWrite32 (cr 0x40 0) v
  else if off = 0x14 then routeWrite v s
  else s.plainWrite32 (cr 0x40 off) v

/-- A write of page RING (R273). -/
def ringWrite (i : Initiator) (off v : Nat) (s : State) : State :=
  if i = .mgmt then ringWriteOk off v s else s.reportUnmapped (0x4200000000 + cr 0x40 off)

/-- A route entry as RING_RTDATA shows it. -/
def routeCode (r : Route) : Nat := b2n r.v * 8 + r.ring

/-- RING registers read; RING_RTDATA shows the stop's active and standby entries. -/
def ringRead (off : Nat) (s : State) : Nat :=
  if off = 0x14 then
    let sel := s.r32 (cr 0x40 0x10)
    let n := bits sel 8 2
    let p := bits sel 4 4
    let b := s.stopBank n p
    routeCode (s.route b n p (sel % 16)) * 16 + routeCode (s.route (1 - b) n p (sel % 16))
  else if off = 8 then 0
  else s.r32 (cr 0x40 off)

/-- PROBE registers written (R272, R273): a change of EN from 0 to 1 clears the count, the pointer and the drops. -/
def probeWrite (i : Initiator) (off v : Nat) (s : State) : State :=
  let a := cr 0x41 off
  if i = .mgmt then
    let k := off / 0x40 * 0x40
    let s1 := s.plainWrite32 a v
    if off % 0x40 = 0 ∧ v.testBit 31 ∧ ¬ s.bit a 31 then (s1.setR64 (cr 0x41 (k + 0x20)) 0).setR32 (cr 0x41 (k + 0x28)) 0 else s1
  else s.reportUnmapped (0x4200000000 + a)

/-- PROBE_ENABLE: a write of PROBEk_CTL. -/
def execProbeEnable (i : Initiator) (k : Fin 32) (v : Word) (s : State) : Out := .next (probeWrite i (0x40 * k.val) v.toNat s)

/-- ISO_READMIT: a write of RING_ISOs. -/
def execIsoReadmit (i : Initiator) (p : StopId) (v : Word) (s : State) : Out := .next (ringWrite i (0x100 + 4 * p.val) v.toNat s)

/-- RING_FLIP: a write of RING_CMD.FLIP. -/
def execRingFlip (i : Initiator) (mask : BitVec 4) (s : State) : Out := .next (ringWrite i 8 mask.toNat s)

/-- ROUTE_TABLE_WRITE: a write of RING_RTDATA. -/
def execRouteTableWrite (i : Initiator) (v : Word) (s : State) : Out := .next (ringWrite i 0x14 v.toNat s)

/-- Key of a segment of a network. -/
def segKey (n ring seg : Nat) : Nat := n * 64 + ring * 16 + seg

/-- The replays of a segment in the last 1 ms, in device time (R269). -/
def State.replaysOf (s : State) (n ring seg : Nat) : List Nat :=
  (tget (konst []) s.replays (segKey n ring seg)).filter (fun t => decide (s.ran < t + 1000000))

/-- RING_SEGMENT_RETIREMENT: a flit that fails its CRC-8 is replayed; the third failure of one flit, or replays that reach THR within 1 ms, retire
the segment (R269, R270). -/
def execRingSegmentRetirement (n : Net) (ring : Fin 4) (seg : StopId) (x : SegReplay) (s : State) : Out :=
  let k := netIdx n
  if ringsOf k ≤ ring.val ∨ s.segOut k ring.val seg.val then .next s
  else
    let r := s.ran :: s.replaysOf k ring.val seg.val
    let s1 : State := { s with replays := tset (konst []) s.replays (segKey k ring.val seg.val) r }
    if ¬ (x.third ∨ max 1 (s.fld (cr 0x40 0x18) 0 8) ≤ r.length) then .next s1
    else .next (ringRetire false k ring.val seg.val x.cut s1)

-- Ports and regulators (R258, R263, R265)

/-- The stop of banks 4k to 4k + 3 (Table RING-2). -/
def bankStop (b : Nat) : Nat := [6, 0, 3, 13, 10, 1, 4, 14, 11, 2, 5, 12, 15, 9, 8, 7].getD (b / 4) 7

/-- A port that its stop has isolated (R265). -/
def State.isolated (s : State) (stop port : Nat) : Bool := s.bit (cr 0x40 (0x100 + 4 * stop)) port

/-- RATE and BURST of a stop's bucket (RING_TBs). -/
def State.bucket (s : State) (stop : Nat) (dat : Bool) : Nat × Nat :=
  let a := cr 0x40 (0x200 + 8 * stop)
  if dat then (s.fld a 40 12, s.fld a 52 12) else (s.fld a 16 12, s.fld a 28 12)

/-- Tokens × 1,024 of a bucket. -/
def State.token (s : State) (stop : Nat) (dat : Bool) : Nat := tget (konst 0) s.tokens (stop * 2 + b2n dat)
/-- The tokens replaced. -/
def setToken (stop : Nat) (dat : Bool) (v : Nat) (s : State) : State := { s with tokens := tset (konst 0) s.tokens (stop * 2 + b2n dat) v }

end Sys2Proof.Machine
end

