-- ==== Sys2Proof/Machine/Banks.lean ====
section
/-! DEFINITION. Scratchpad banks: ports, ownership, power states, row tests and the rotate alias (chapter 10). -/
namespace Sys2Proof.Machine

/-- Device address of bank offset off (Table SYS-4). -/
def bankAddr (b off : Nat) : Nat := 0x4000000000 + b * 65536 + off

/-- Control-space offset of a register of bank b. -/
def bk (b off : Nat) : Nat := cr (0x100 + b) off

/-- Owner code of an initiator (Table BANK-1); 64, which no bank holds, for the pilot and the lamplighter. -/
def ownerCode : Initiator → Nat
  | .core c => if c.val = 5 then 6 else c.val + 1
  | .engine k => 8 + k.val
  | .hostBlock => 0x0C
  | .fabric => 0x0D
  | .probe => 0x0E
  | .pilot => 64
  | .lamplighter => 64

/-- A code that BANKb_OWNER may take (Table BANK-1). -/
def ownerValid (c : Nat) : Bool := decide (c ≤ 6) || (decide (8 ≤ c) && decide (c ≤ 0x0E)) || c == 0x3F

/-- BANKb_OWNER.OWNER. -/
def State.owner (s : State) (b : Nat) : Nat := if b = 63 then 6 else s.fld (bk b 0) 0 6
/-- Initiator i passes the owner check of bank b (R243). -/
def State.owns (s : State) (b : Nat) (i : Initiator) : Bool := s.owner b == 0x3F || s.owner b == ownerCode i
/-- BANKb_PWR.STATE: 0 ON, 1 RETENTION, 2 OFF, 3 WAKING. -/
def State.bankPwr (s : State) (b : Nat) : Nat := s.fld (bk b 8) 30 2
/-- The state changed. -/
def setBankPwr (b v : Nat) (s : State) : State := s.setF (bk b 8) 30 2 v
/-- BANKb_OWNER.PEND. -/
def State.bankPend (s : State) (b : Nat) : Bool := s.bit (bk b 0) 31

/-- What an access gives: ring status and the eight bytes of its word. -/
structure BankAns where
  status : RStat
  word : Nat
  st : State

/-- The word with the enabled byte lanes replaced. -/
def lanes (old new mask : Nat) : Nat :=
  (List.range 8).foldl (fun w k => if mask.testBit k then setBits w (8 * k) 8 (bits new (8 * k) 8) else w) old

/-- The row of a word that is found uncorrectable moves to the front of the test order (R253). -/
def frontRow (b w : Nat) (s : State) : State := s.modBank b (fun k => { k with first := w / 8 :: k.first.filter (· != w / 8) })

/-- A read that finds a word uncorrectable: BANKb_STAT.UE is set, and the event logged (R254). -/
def bankUe (b w : Nat) (s : State) : State :=
  let s1 := s.setB (bk b 0x10) 27
  let s2 := s1.reportN 7 1 (0x100 + b) (b * 65536 + w) (s1.r32 (bk b 0x10))
  frontRow b w s2

/-- An accepted access to word w of bank b: lanes to write, if any (R249, R252, R254). -/
def bankWord (b w : Nat) (write : Option (Nat × Nat)) (s : State) : BankAns :=
  let a := bankAddr b (8 * w)
  match (s.bank b).test with
  | some t =>
    if t.row = w / 8 then
      let c := t.buf.getD (w % 8) (0, false)
      let put := fun (v : Nat) => s.modBank b (fun k => { k with test := some { t with buf := t.buf.set (w % 8) (BitVec.ofNat 64 v, false) } })
      match write with
      | none => if c.2 then ⟨.dataError, 0, bankUe b w s⟩ else ⟨.ok, c.1.toNat, s⟩
      | some (mask, v) => if c.2 ∧ mask % 256 ≠ 255 then ⟨.dataError, 0, frontRow b w s⟩ else ⟨.ok, 0, put (lanes c.1.toNat v mask)⟩
    else bankWordMem a s write
  | none => bankWordMem a s write
where
  /-- the same on the stored word -/
  bankWordMem (a : Nat) (s : State) (write : Option (Nat × Nat)) : BankAns :=
    let fl := tget (konst Flaw.none) s.flaw a
    let s0 : State := { s with flaw := tset (konst Flaw.none) s.flaw a .none }
    match write with
    | none =>
      match fl with
      | .none => ⟨.ok, s.num a 8, s⟩
      | .correctable => ⟨.ok, s.num a 8, s0.incF (bk b 0x18) 16 16 1⟩
      | .uncorrectable => ⟨.dataError, 0, bankUe b w s⟩
    | some (mask, v) =>
      if fl = .uncorrectable ∧ mask % 256 ≠ 255 then ⟨.dataError, 0, frontRow b w s⟩
      else ⟨.ok, 0, s0.setBytes a (toBytes 8 (lanes (s.num a 8) v mask))⟩

/-- The lanes of a window access: offset in the word, size in bytes. -/
def laneMask (off n : Nat) : Nat := (2 ^ n - 1) * 2 ^ off % 256

/-- A refused port-A access (R243). -/
def bankRefuse (b a : Nat) (s : State) : State :=
  (((s.setB (bk b 0x10) 30).incF (bk b 0x18) 8 8 1)).report 1 3 (0x100 + b) 3 a 3

/-- Bytes of a request. -/
def reqBytes (r : BankReq) : Nat := match r.rot with | some k => k.val + 1 | none => r.size.bytes

/-- The value an alias write brings, rotated left by r bytes (R251). -/
def rotL (r v : Nat) : Nat := v % 2 ^ 64 * 2 ^ (8 * r) % 2 ^ 64 + v % 2 ^ 64 / 2 ^ (64 - 8 * r)

/-- A word rotated right by r bytes. -/
def rotR (r w : Nat) : Nat := w / 2 ^ (8 * r) + w % 2 ^ (8 * r) * 2 ^ (64 - 8 * r)

/-- Lanes and value with which a request writes its word (R242, R251). -/
def reqLanes (r : BankReq) : Option (Nat × Nat) :=
  let o := r.off.toNat % 8
  match r.rot with
  | some _ => r.write.map (fun v => (laneMask o (min (reqBytes r) (8 - o)), rotL o v.toNat))
  | none => r.write.map (fun v => (laneMask o (reqBytes r), v.toNat * 2 ^ (8 * o)))

/-- The data a request takes of its word. -/
def reqTake (r : BankReq) (w : Nat) : Nat :=
  let o := r.off.toNat % 8
  (match r.rot with | some _ => rotR o w | none => w / 2 ^ (8 * o)) % 2 ^ (8 * reqBytes r)

/-- A request accepted by an ON bank: status, data of the access, state. -/
def bankAccept (b : Nat) (r : BankReq) (s : State) : BankAns :=
  let x := bankWord b (r.off.toNat / 8) (reqLanes r) s
  { x with word := reqTake r x.word }

/-- Whether a window access is naturally aligned (R242); the alias takes any byte address (R251). -/
def reqAligned (r : BankReq) : Bool := r.rot.isSome || r.off.toNat % r.size.bytes == 0

/-- The device address of a request. -/
def reqAddr (b : Nat) (r : BankReq) : Nat := (if r.rot.isSome then 0x4080000000 + b * 65536 else bankAddr b 0) + r.off.toNat

/-- Key of an initiator's last response. -/
def respKey (i : Initiator) : Nat := match i with | .pilot => 65 | .lamplighter => 66 | i => ownerCode i

/-- The response an initiator receives (R260). -/
def respond (i : Initiator) (tag : Nat) (status : RStat) (data : List Byte) (s : State) : State :=
  { s with resps := tset (konst none) s.resps (respKey i) (some ⟨tag, status, data⟩) }

/-- The answer to a window request goes back to its initiator. -/
def bankAnswer (r : BankReq) (x : BankAns) : State :=
  respond r.init 0 x.status (if r.write.isSome then [] else toBytes (reqBytes r) x.word) x.st

/-- A request that waited is accepted, after a second owner check on port A (R245). -/
def bankServe (b : Nat) (e : Bool × BankReq) (s : State) : State :=
  if !e.1 && !s.owns b e.2.init then
    bankAnswer e.2 ⟨.notOwner, 0, bankRefuse b (reqAddr b e.2) s⟩
  else bankAnswer e.2 (bankAccept b e.2 s)

/-- A request that reaches the bank: held by a handover, refused, stalled, answered BANK_OFF, or accepted (R243, R245, R247). -/
def bankArrive (b : Nat) (portB : Bool) (r : BankReq) (s : State) : State :=
  if !portB && s.bankPend b then s.modBank b (fun k => { k with held := k.held ++ [r] })
  else if !portB && !s.owns b r.init then bankAnswer r ⟨.notOwner, 0, bankRefuse b (reqAddr b r) s⟩
  else match s.bankPwr b with
    | 0 => bankAnswer r (bankAccept b r s)
    | 1 => s.modBank b (fun k => { k with waking := true, stalled := k.stalled ++ [(portB, r)] })
    | 2 => bankAnswer r ⟨.bankOff, 0, s⟩
    | _ => s.modBank b (fun k => { k with stalled := k.stalled ++ [(portB, r)] })

/-- The contents of a bank are lost (R248). -/
def clearBank (b : Nat) (s : State) : State :=
  let inB := fun (a : Nat) => decide (bankAddr b 0 ≤ a) && decide (a < bankAddr b 65536)
  { s with mem := s.mem.filter (fun e => !inB e.1), flaw := s.flaw.filter (fun e => !inB e.1) }

/-- A power command acts on a bank that no row test holds and that is not waking (R248). -/
def bankCmdAct (b : Nat) (c : BankCmd) (s : State) : State :=
  match c with
  | .retention => if s.bankPwr b = 0 then setBankPwr b 1 s else s
  | .off => if s.bankPwr b ≤ 1 then clearBank b (setBankPwr b 2 s) else s
  | .on => if s.bankPwr b = 2 then setBankPwr b 3 s else if s.bankPwr b = 1 then s.modBank b (fun k => { k with waking := true }) else s

/-- A row test holds the bank, or it wakes: a command waits (R248). -/
def State.bankBusy (s : State) (b : Nat) : Bool := (s.bank b).test.isSome || s.bankPwr b == 3 || (s.bank b).waking

/-- Commands act in order, until one makes the bank wake: the others wait for that. -/
def bankCmdsAct (b : Nat) : List BankCmd → State → State
  | [], s => s
  | c :: cs, s => if s.bankBusy b then s.modBank b (fun k => { k with cmds := c :: cs }) else bankCmdsAct b cs (bankCmdAct b c s)

/-- The commands that waited act now. -/
def bankCmdDue (b : Nat) (s : State) : State := bankCmdsAct b (s.bank b).cmds (s.modBank b (fun k => { k with cmds := [] }))

/-- Both requests write one word (R250). -/
def sameWord (x y : BankReq) : Bool := x.write.isSome && y.write.isSome && x.off.toNat / 8 == y.off.toNat / 8

/-- The function whose mailbox slot holds an offset that the host block writes through port B (Table HOST-2); bank 2 is the physical function's (log entry 36). -/
def slotFn (b off : Nat) : Nat := if b = 3 then off / 256 else if b = 2 then 0 else 128 * b + off / 512

/-- Port B's write of a word that port A writes in the same nc is discarded, shown and counted, also for its function (R250, R277). -/
def collide (b : Nat) (r : BankReq) (s : State) : State :=
  let s1 := (s.setB (bk b 0x10) 31).incF (bk b 0x18) 0 8 1
  respond r.init 0 .collision [] (s1.modFn (slotFn b r.off.toNat) (fun x => { x with coll := BitVec.ofNat 16 (satAdd 16 x.coll.toNat 1) }))

/-- What the two ports of an ON bank accept in one nc: writes come first, and of two writes of one word port B's is discarded (R249, R250). -/
def bankBoth (b : Nat) (pA pB : Option BankReq) (s : State) : State :=
  match pA, pB with
  | some x, some y =>
    if sameWord x y && s.owns b x.init then collide b y (bankServe b (false, x) s)
    else if y.write.isSome && x.write.isNone then bankServe b (false, x) (bankServe b (true, y) s)
    else bankServe b (true, y) (bankServe b (false, x) s)
  | some x, none => bankServe b (false, x) s
  | none, some y => bankServe b (true, y) s
  | none, none => s

/-- Accesses that wait at the two ports are accepted in order, one of each port a nc (R241). -/
def bankDrain (b : Nat) : List BankReq → List BankReq → State → State
  | x :: xs, ys, s => bankDrain b xs ys.tail (bankBoth b (some x) ys.head? s)
  | [], ys, s => each ys (fun y s => bankServe b (true, y) s) s

/-- The bank takes part in a wake: OFF to ON, or RETENTION left for an access or a command (R247, R248). -/
def State.bankWakes (s : State) (b : Nat) : Bool := s.bankPwr b == 3 || (s.bankPwr b == 1 && (s.bank b).waking)

/-- A waking bank is ON and accepts the accesses that it stalled (R247). -/
def wakeServe (b : Nat) (s : State) : State :=
  if s.bankWakes b then
    let st := (s.bank b).stalled
    let port := fun (p : Bool) => (st.filter (·.1 == p)).map (·.2)
    bankDrain b (port false) (port true) ((setBankPwr b 0 s).modBank b (fun k => { k with waking := false, stalled := [] }))
  else s

/-- The isolated port of bank b absorbs posted writes (R265). -/
def State.bankIsolated (s : State) (b : Nat) : Bool := s.isolated (bankStop b) (4 + b % 4)

/-- Stop M's regulator holds the probes' writes to bank b to tokens (R263). -/
def State.traceRegulated (s : State) (b : Nat) : Bool := bankStop b != 7 && (s.bucket 7 false).1 != 0

/-- Word i of record n of a trace reaches bank b: absorbed by its isolated port, stopped where no route leads there, refused, or written unless the bank is OFF
(R243, R247, R265, R267). -/
def traceWord (b n rec_ i : Nat) (s : State) : State :=
  if s.noRoute 0 7 (bankStop b) then s
  else if s.bankIsolated b then s.incF (cr 0x40 0x140) 0 32 1
  else if !s.owns b .probe then bankRefuse b (bankAddr b (32 * n + 8 * i)) s
  else if s.bankPwr b = 2 then s
  else (bankWord b (4 * n + i) (some (255, bits rec_ (64 * i) 64)) s).st

/-- A 32-byte trace record of probe k goes to its bank at NEXT as four posted writes of 8 bytes from the port of page PROBE, each of which spends a token; past
record 2,047 the probe stops, unless it wraps (R263, R272; log entry 43). -/
def traceStore (k rec_ : Nat) (s : State) : State :=
  let a := cr 0x41 (0x40 * k)
  let b := s.fld a 15 6
  if s.bit a 14 then s
  else
    let n := s.fld (a + 0x28) 16 11
    let s1 := when (s.traceRegulated b) (setToken 7 false (s.token 7 false - 4096)) s
    let s2 := (each (List.range 4) (traceWord b n rec_) s1).setF (a + 0x28) 16 11 ((n + 1) % 2048)
    if n = 2047 ∧ ¬ s.bit a 30 then s2.setB a 14 else s2

/-- A record for bank b can set out and be taken: tokens are there, and the port is isolated or the bank accepts: no handover and no wake is under way, and it is not in
RETENTION. -/
def State.traceReady (s : State) (b : Nat) : Bool :=
  (!s.traceRegulated b || decide (4096 ≤ s.token 7 false))
    && (s.bankIsolated b || (!s.bankPend b && (s.bankPwr b == 0 || s.bankPwr b == 2 || !s.owns b .probe)))

/-- Queued records of probe k for bank b go out in order while they can. -/
def traceGo (k b : Nat) : List Nat → State → State
  | [], s => { s with traceQ := tset (konst []) s.traceQ k [] }
  | r :: rs, s => if s.traceReady b then traceGo k b rs (traceStore k r s) else { s with traceQ := tset (konst []) s.traceQ k (r :: rs) }

/-- The records that the probes have queued for bank b are written, once it accepts them (R272). -/
def traceDrain (b : Nat) (s : State) : State :=
  each (s.traceQ.filter (fun e => s.fld (cr 0x41 (0x40 * e.1)) 15 6 == b)) (fun e s => traceGo e.1 b e.2 s) s

/-- A matching packet's record: written, or queued for the bank, which a record in RETENTION wakes; dropped with 16 queued (R272). -/
def traceRecord (k rec_ : Nat) (s : State) : State :=
  let a := cr 0x41 (0x40 * k)
  let b := s.fld a 15 6
  if !s.bit a 21 || s.bit a 14 || b == 63 then s
  else
    let q := tget (konst []) s.traceQ k
    if 16 ≤ q.length then s.incF (a + 0x28) 0 16 1
    else
      let s1 : State := { s with traceQ := tset (konst []) s.traceQ k (q ++ [rec_]) }
      traceDrain b (if s1.bankPwr b = 1 ∧ s1.owns b .probe ∧ ¬ s1.bankPend b then s1.modBank b (fun k => { k with waking := true }) else s1)

/-- BANK_WAKE_COMPLETE: the stalled accesses, the probes' records, then a command that waited (R247, R248). -/
def wakeComplete (b : Nat) (s : State) : State := if s.bankWakes b then bankCmdDue b (traceDrain b (wakeServe b s)) else s

/-- The new owner takes effect and the held requests are checked in arrival order (R245). -/
def handoverComplete (b : Nat) (s : State) : State :=
  match (s.bank b).newOwner with
  | none => s
  | some c =>
    let h := (s.bank b).held
    let s1 := ((s.setF (bk b 0) 0 6 c.toNat).setF (bk b 0) 31 1 0).release 4 b
    traceDrain b (each h (bankArrive b false) (s1.modBank b (fun k => { k with newOwner := none, held := [] })))

/-- An access carried to its end: after the handover it waits for, the owner check; then the wake, the accesses stalled before it, its own acceptance, and
a command that waits for them (R243, R245, R247, R248). -/
def bankDo (b : Nat) (portB : Bool) (r : BankReq) (s : State) : BankAns :=
  let s0 := handoverComplete b s
  if !portB && !s0.owns b r.init then ⟨.notOwner, 0, bankRefuse b (reqAddr b r) s0⟩
  else match s0.bankPwr b with
    | 0 => bankAccept b r s0
    | 2 => ⟨.bankOff, 0, s0⟩
    | _ =>
      let x := bankAccept b r (traceDrain b (wakeServe b (s0.modBank b (fun k => { k with waking := true }))))
      { x with st := bankCmdDue b x.st }

/-- A bank window access of size n at offset off, carried to its end (R242). -/
def bankRw (i : Initiator) (portB : Bool) (b off n : Nat) (write : Option Nat) (s : State) : BankAns :=
  bankDo b portB ⟨i, BitVec.ofNat 16 off, if n = 8 then .b8 else if n = 4 then .b4 else if n = 2 then .b2 else .b1, none, write.map (BitVec.ofNat 64)⟩ s

/-- A rotate-alias access of n bytes, 1 to 8, at alias address a (R251). -/
def aliasRw (i : Initiator) (a n : Nat) (write : Option Nat) (s : State) : BankAns :=
  bankDo (a / 65536) false ⟨i, BitVec.ofNat 16 a, .b8, some (Fin.ofNat 8 (n - 1)), write.map (BitVec.ofNat 64)⟩ s

-- Commands

/-- A request of a bank window that is not naturally aligned is an unmapped access (R29, R242). -/
def bankMisaligned (b : Nat) (p : Option BankReq) (s : State) : State :=
  match p with
  | some r => if reqAligned r then s else respond r.init 0 .unmapped (if r.write.isSome then [] else toBytes (reqBytes r) 0) (s.reportUnmapped (reqAddr b r))
  | none => s

/-- BANK_ACCESS: the accesses that reach ports A and B in one nc; port B is the host block's, of banks 0–3 (R241–R250). -/
def execBankAccess (b : BankId) (pA pB : Option BankReq) (s : State) : Out :=
  let pB := pB.filter (fun r => decide (b.val < 4) && r.init == .hostBlock)
  let s0 := bankMisaligned b pB (bankMisaligned b pA s)
  let okA := pA.filter reqAligned
  let okB := pB.filter reqAligned
  if s0.bankPwr b = 0 ∧ ¬ s0.bankPend b then .next (bankBoth b okA okB s0)
  else
    let go := fun (portB : Bool) (p : Option BankReq) (s : State) => match p with | some r => bankArrive b portB r s | none => s
    .next (go true okB (go false okA s0))

/-- A write of BANKb_OWNER (R244–R246). -/
def ownerWrite (i : Initiator) (b : Nat) (v : Nat) (s : State) : State :=
  let own := s.owner b
  if i = .mgmt ∨ (own ≠ 0x3F ∧ own ≠ 0 ∧ own = ownerCode i) then
    if b = 63 then s
    else if !ownerValid (v % 64) then s.setB (bk b 0x10) 28
    else if s.bankPend b then s.modBank b (fun k => { k with newOwner := some (BitVec.ofNat 6 v) })
    else
      match s.admits (act 4 b 0) with
      | (false, s1) => s1.setB (bk b 0x10) 29
      | (true, s1) => (s1.setB (bk b 0) 31).modBank b (fun k => { k with newOwner := some (BitVec.ofNat 6 v) })
  else s.reportUnmapped (0x4200000000 + bk b 0)

/-- HANDOVER_COMPLETE. -/
def execHandoverComplete (b : BankId) (s : State) : Out := .next (handoverComplete b s)

/-- BANK_IDLE_RETENTION: an ON bank idle for IDLE µs enters RETENTION; IDLE 0 disables this (R248). -/
def execBankIdleRetention (b : BankId) (s : State) : Out :=
  if s.bankPwr b = 0 ∧ s.fld (bk b 8) 8 16 ≠ 0 ∧ (s.bank b).test.isNone then .next (setBankPwr b 1 s) else .next s

/-- A write of BANKb_PWR.CMD by a permitted writer (R248). -/
def bankCommand (b : Nat) (cmd : Nat) (s : State) : State :=
  let later := fun (c : BankCmd) => if s.bankBusy b then s.modBank b (fun k => { k with cmds := k.cmds ++ [c] }) else bankCmdAct b c s
  match cmd with
  | 1 => if s.bankPwr b = 1 then s else later .retention
  | 2 => if b = 63 then s.setB (bk b 0x10) 28 else later .off
  | 3 => later .on
  | _ => s

/-- Who may write BANKb_PWR: the owner and the management core (R248). -/
def mayPower (i : Initiator) (b : Nat) (s : State) : Bool := i == .mgmt || (s.owner b != 0 && s.owner b != 0x3F && s.owner b == ownerCode i)

/-- A write of BANKb_PWR: IDLE and CMD (R248). -/
def pwrWrite (i : Initiator) (b : Nat) (v : Nat) (s : State) : State :=
  if mayPower i b s then bankCommand b (v % 4) (s.setF (bk b 8) 8 16 (bits v 8 16)) else s.reportUnmapped (0x4200000000 + bk b 8)

/-- A write of CMD that keeps IDLE. -/
def cmdWrite (i : Initiator) (b cmd : Nat) (s : State) : State := pwrWrite i b (s.fld (bk b 8) 8 16 * 256 + cmd) s

/-- BANK_RETENTION_CMD: CMD = 01. -/
def execBankRetentionCmd (i : Initiator) (b : BankId) (s : State) : Out := .next (cmdWrite i b 1 s)

/-- BANK_OFF_CMD: CMD = 10. -/
def execBankOffCmd (i : Initiator) (b : BankId) (s : State) : Out := .next (cmdWrite i b 2 s)

/-- BANK_WAKE_CMD: CMD = 11. -/
def execBankWakeCmd (i : Initiator) (b : BankId) (s : State) : Out := .next (cmdWrite i b 3 s)

/-- BANK_WAKE_COMPLETE. -/
def execBankWakeComplete (b : BankId) (s : State) : Out := .next (wakeComplete b s)

/-- The spare rows of a bank that are free. -/
def State.freeSpares (s : State) (b : Nat) : List Nat := (List.range 8).filter (fun n => !(s.bank b).redir.any (·.2 == n))

/-- The row after `row` in the test order, leaving out the rows in use of the spare ones (R253). -/
def State.nextRow (s : State) (b row : Nat) : Nat :=
  if row < 1023 then row + 1
  else match (s.freeSpares b).find? (fun n => decide (row < 1024 + n)) with
    | some n => 1024 + n
    | none => 0

/-- The row that the order stands at: NEXT, or where it names a spare row taken since, the row after it. -/
def State.orderRow (s : State) (b : Nat) : Nat :=
  let n := s.fld (bk b 0x20) 16 11
  if n < 1024 ∨ (s.freeSpares b).contains (n - 1024) then n else s.nextRow b n

/-- The row tested next: a row in which a word was found uncorrectable comes first (R253). -/
def State.dueRow (s : State) (b : Nat) : Nat := (s.bank b).first.headD (s.orderRow b)

/-- The save phase: each word corrected, or marked poisoned (R252). -/
def saveRow (b row : Nat) (s : State) : List (Dword × Bool) × State :=
  (List.range 8).foldl (fun x k =>
    let y := bankWord b (8 * row + k) none x.2
    (x.1 ++ [if y.status = .ok then (BitVec.ofNat 64 y.word, false) else (BitVec.ofNat 64 (x.2.num (bankAddr b (64 * row + 8 * k)) 8), true)], y.st)) ([], s)

/-- A row test starts on the row at the front of the order, when the bank is ON, tests are enabled and it is admitted (R252, R253). -/
def rowTestStart (b : Nat) (s : State) : State :=
  if s.bit (bk b 0x20) 31 ∧ s.bankPwr b = 0 ∧ (s.bank b).test.isNone ∧ ¬ s.bankPend b then
    match s.admits (act 3 b b) with
    | (false, s1) => s1
    | (true, s1) =>
      let row := s.dueRow b
      let s2 := s1.modBank b (fun k => { k with first := k.first.filter (· != row) })
      let x := if row < 1024 then saveRow b row s2 else ([], s2)
      (x.2.modBank b (fun k => { k with test := some ⟨row, x.1⟩ })).setB (bk b 0x10) 25
  else s

/-- ROW_TEST_START. -/
def execRowTestStart (b : BankId) (s : State) : Out := .next (rowTestStart b s)

/-- The buffer written back: a poisoned word is uncorrectable again (R252). -/
def restoreRow (b : Nat) (t : RowTest) (s : State) : State :=
  if t.row < 1024 then
    each (List.range 8) (fun k s =>
      let a := bankAddr b (64 * t.row + 8 * k)
      let c := t.buf.getD k (0, false)
      ({ s with flaw := tset (konst Flaw.none) s.flaw a (if c.2 then .uncorrectable else .none) } : State).setBytes a (toBytes 8 c.1.toNat)) s
  else s

/-- A faulty row is redirected to the lowest free spare row and recorded, or stays in use with EXH (R255). -/
def redirectRow (b row : Nat) (s : State) : State :=
  if 1024 ≤ row then s
  else match (s.freeSpares b).head? with
    | some n =>
      let s1 := s.modBank b (fun k => { k with redir := k.redir ++ [(row, n)] })
      (s1.setF (bk b 0x10) 4 4 (s.fld (bk b 0x10) 4 4 - 1)).mapRecord (.bankRow b row n)
    | none =>
      let s1 := s.setB (bk b 0x10) 26
      s1.reportN 7 2 (0x100 + b) (b * 65536 + 8 * row) (s1.r32 (bk b 0x10))

/-- ROW_TEST_RESTORE: the buffer returns to the row or to a spare row, and the bank is released (R252, R255). -/
def execRowTestRestore (b : BankId) (faulty : Bool) (s : State) : Out :=
  match (s.bank b).test with
  | none => .next s
  | some t =>
    let s1 := when faulty (redirectRow b t.row) (restoreRow b t s)
    let s2 := if s.orderRow b = t.row then s1.setF (bk b 0x20) 16 11 (s1.nextRow b t.row) else s1
    let s3 := ((s2.modBank b (fun k => { k with test := none })).setF (bk b 0x10) 25 1 0).release 3 b
    .next (bankCmdDue b s3)

end Sys2Proof.Machine
end

