-- ==== Sys2Proof/Machine/Rs.lean ====
section
/-! DEFINITION. GF(2^8) arithmetic and the decoders of the plane-row code RS(36,32) and of the staging-line code RS(72,64) on an error vector (R141, R164–R166). -/
namespace Sys2Proof.Machine

/-- Multiplication by α = x modulo x^8 + x^4 + x^3 + x^2 + 1 (R164). -/
def gfDouble (a : Nat) : Nat := if a < 128 then 2 * a else (2 * a - 256) ^^^ 0x1d

/-- Product in GF(2^8), over the bits of b. -/
def gfMulBits : Nat → Nat → Nat → Nat
  | 0, _, _ => 0
  | n + 1, a, b => (if b % 2 = 1 then a else 0) ^^^ gfMulBits n (gfDouble a) (b / 2)

/-- Product in GF(2^8). -/
def gfMul (a b : Nat) : Nat := gfMulBits 8 a b

/-- α^k. -/
def gfPow : Nat → Nat
  | 0 => 1
  | k + 1 => gfDouble (gfPow k)

/-- Inverse in GF(2^8): a^254. -/
def gfInv (a : Nat) : Nat :=
  let a2 := gfMul a a
  let a4 := gfMul a2 a2
  let a8 := gfMul a4 a4
  let a16 := gfMul a8 a8
  let a32 := gfMul a16 a16
  let a64 := gfMul a32 a32
  let a128 := gfMul a64 a64
  gfMul a2 (gfMul a4 (gfMul a8 (gfMul a16 (gfMul a32 (gfMul a64 a128)))))

/-- The symbol at codeword position i of a row's 288 logical columns (Table INTEG-1). -/
def symbol (v : BitVec 288) (i : Nat) : Nat := v.toNat / 2 ^ (if i < 4 then 256 + 8 * i else 8 * (i - 4)) % 256

/-- A symbol value placed at position i. -/
def atPos (i x : Nat) : BitVec 288 := BitVec.ofNat 288 (x * 2 ^ (if i < 4 then 256 + 8 * i else 8 * (i - 4)))

/-- Syndrome S_k of a row (R165). -/
def syndrome (v : BitVec 288) (k : Nat) : Nat :=
  (List.range 36).foldl (fun acc i => acc ^^^ gfMul (symbol v i) (gfPow (i * k % 255))) 0

/-- The error the corrector finds in a row, from its syndromes (R166, R167). -/
inductive RowFix where
  | clean
  | fix (e : BitVec 288)
  | uncorrectable
  deriving DecidableEq, Repr

/-- The positions and values of an error in symbols i and j, if the syndromes fit one. -/
def pairFix (s0 s1 s2 s3 i j : Nat) : Option (BitVec 288) :=
  let ai := gfPow i
  let aj := gfPow j
  let ei := gfMul (s1 ^^^ gfMul s0 aj) (gfInv (ai ^^^ aj))
  let ej := s0 ^^^ ei
  let p k := gfMul ei (gfPow (i * k % 255)) ^^^ gfMul ej (gfPow (j * k % 255))
  if p 2 = s2 ∧ p 3 = s3 then some (atPos i ei ^^^ atPos j ej) else none

/-- Decode a row: at most 2 symbols are corrected (R166). -/
def decodeRow (v : BitVec 288) : RowFix :=
  let s0 := syndrome v 0
  let s1 := syndrome v 1
  let s2 := syndrome v 2
  let s3 := syndrome v 3
  if s0 = 0 ∧ s1 = 0 ∧ s2 = 0 ∧ s3 = 0 then .clean
  else
    let pairs := (List.range 36).flatMap (fun i => (List.range i).map (fun j => (j, i)))
    match pairs.findSome? (fun ij => pairFix s0 s1 s2 s3 ij.1 ij.2) with
    | some e => .fix e
    | none => .uncorrectable

-- Staging lines (R141)

/-- Place of the symbol at codeword position i in a line's error vector: the check symbols at 0–7, kept above the data (log entry 37), then byte i − 8. -/
def linePos (i : Nat) : Nat := if i < 8 then 512 + 8 * i else 8 * (i - 8)

/-- Syndrome S_k of a line's error vector, for the generator root α^k. -/
def lineSyndrome (v : BitVec 576) (k : Nat) : Nat :=
  (List.range 72).foldl (fun acc i => acc ^^^ gfMul (bits v.toNat (linePos i) 8) (gfPow (i * k % 255))) 0

/-- The error in symbols i and j that eight syndromes fit, if one. -/
def linePair (s : List Nat) (i j : Nat) : Option (BitVec 576) :=
  let ai := gfPow i
  let aj := gfPow j
  let ei := gfMul (s.getD 1 0 ^^^ gfMul (s.getD 0 0) aj) (gfInv (ai ^^^ aj))
  let ej := s.getD 0 0 ^^^ ei
  if (List.range 8).all (fun k => gfMul ei (gfPow (i * k % 255)) ^^^ gfMul ej (gfPow (j * k % 255)) == s.getD k 0) then
    some (BitVec.ofNat 576 (ei * 2 ^ linePos i) ^^^ BitVec.ofNat 576 (ej * 2 ^ linePos j))
  else none

/-- What the controller takes for the error of a line, none where it finds it uncorrectable: at most 2 symbols (R141). -/
def decodeLine (v : BitVec 576) : Option (BitVec 576) :=
  let s := (List.range 8).map (lineSyndrome v)
  if s.all (· == 0) then some 0
  else ((List.range 72).flatMap (fun i => (List.range i).map (fun j => (j, i)))).findSome? (fun ij => linePair s ij.1 ij.2)

end Sys2Proof.Machine
end

