-- ==== Sys2Proof/Machine/Staging.lean ====
section
/-! DEFINITION. Staging memory and the data ranges of the device address space: staging, banks, rotate alias, NVM window (R28–R31, R140–R145). -/
namespace Sys2Proof.Machine

/-- Bytes of one stack (Table PIO-1). -/
def stackSize : Nat := if Config.is30T then 0x400000000 else 0x600000000

/-- The end of staging memory (Table SYS-4, R2). -/
def stagingEnd : Nat := 4 * stackSize

/-- Control-space offset of a register of MCk. -/
def mc (k off : Nat) : Nat := cr (0x24 + k) off

/-- The 64-byte lines that n bytes from a touch, by address. -/
def linesOf (a n : Nat) : List Nat := if n = 0 then [] else (List.range ((a + n - 1) / 64 - a / 64 + 1)).map (fun i => (a / 64 + i) * 64)

/-- An uncorrectable read of a line is counted, recorded and logged (R142). -/
def lineUe (l : Nat) (s : State) : State :=
  let k := l / stackSize
  let s1 := (s.incF (mc k 4) 0 32 1).setR64 (mc k 8) (2 ^ 63 + l)
  s1.reportN 2 1 (0x24 + k) (s1.r64 (mc k 8)) (s1.r32 (mc k 4))

/-- The symbols stored wrong of the line at l: its data, and the check symbols above (R141). -/
def State.lineErr_ (s : State) (l : Nat) : BitVec 576 := tget (konst 0) s.lineErr (l / 64)
/-- They replaced. -/
def setLineErr (l : Nat) (e : BitVec 576) (s : State) : State := { s with lineErr := tset (konst 0) s.lineErr (l / 64) e }

/-- What the directory holds of the line at l. -/
def State.dirAt (s : State) (l : Nat) : DirLine := tget (konst DirLine.none) s.dir (l / 64)

/-- A line whose remaining error e is a codeword: the stack holds the data that the error makes, and they decode without error (R141). Where a cache holds the line
dirty, that is what the stack holds in its stead. -/
def settleLine (l : Nat) (e : BitVec 576) (s : State) : State :=
  let s1 := setLineErr l 0 s
  if e = 0 then s1
  else match (s.dirAt l).old with
    | some v => { s1 with dir := tset (konst DirLine.none) s1.dir (l / 64) { s.dirAt l with old := some (v ^^^ e.setWidth 512) } }
    | none => s1.setBytes l (toBytes 64 (BitVec.ofNat 512 (s.num l 64) ^^^ e.setWidth 512).toNat)

/-- A line of the stack as the controller reads it: corrected, written back and counted, or uncorrectable and left unchanged (R141, R142). -/
def stackLine (l : Nat) (s : State) : RStat × State :=
  let v := s.lineErr_ l
  if v = 0 then (.ok, s)
  else match decodeLine v with
    | none => (.dataError, lineUe l s)
    | some e => (.ok, (settleLine l (v ^^^ e) s).incF (mc (l / stackSize) 0) 0 32 (b2n (e != 0)))

/-- A line as a request reads it (R142, R145, R383). A dirty copy has been written back by then, unless the holder itself asks. -/
def readLine (l : Nat) (s : State) : RStat × State :=
  if (s.stack (l / stackSize)).failed then (.dataError, s)
  else if (s.dirAt l).dirty then (.ok, s)
  else stackLine l s

/-- Lines read in order, until one fails. -/
def readLines : List Nat → State → RStat × State
  | [], s => (.ok, s)
  | l :: ls, s => let x := readLine l s; if x.1 = .ok then readLines ls x.2 else x

/-- A read of an unmapped address: UNMAPPED, zero data, an error-log entry (R29). -/
def unmappedRead (a n : Nat) (s : State) : RStat × List Byte × State := (.unmapped, List.replicate n 0, s.reportUnmapped a)

/-- A read of staging memory: zero data with an error; past its end it is unmapped (R29, R142). -/
def stagingRead (a n : Nat) (s : State) : RStat × List Byte × State :=
  if stagingEnd < a + n then unmappedRead a n s
  else
    let x := readLines (linesOf a n) s
    (x.1, if x.1 = .ok then x.2.bytes a n else List.replicate n 0, x.2)

/-- The copies of a line in the caches are invalidated (R145). -/
def dropLine (l : Nat) (s : State) : State := { s with dir := tset (konst DirLine.none) s.dir (l / 64) DirLine.none }

/-- A write within one line: a whole line replaces it; a part of an uncorrectable line is discarded (R143). -/
def writeLine (a : Nat) (v : List Byte) (s : State) : RStat × State :=
  let l := a / 64 * 64
  if (s.stack (l / stackSize)).failed then (.dataError, s)
  else if v.length = 64 then (.ok, dropLine l ((setLineErr l 0 s).setBytes a v))
  else
    let x := readLine l s
    if x.1 = .ok then (.ok, dropLine l (x.2.setBytes a v)) else x

/-- The part of a write that lies in the line of address a, and the rest: `fuel` bounds the lines. -/
def stagingWriteAux : Nat → Nat → List Byte → State → RStat × State
  | 0, _, _, s => (.ok, s)
  | fuel + 1, a, v, s =>
    if v = [] then (.ok, s)
    else
      let m := 64 - a % 64
      let x := writeLine a (v.take m) s
      let y := stagingWriteAux fuel (a + m) (v.drop m) x.2
      (if x.1 = .ok then y.1 else x.1, y.2)

/-- A write of staging memory, line by line; past its end it is unmapped (R29, R143). -/
def stagingWrite (a : Nat) (v : List Byte) (s : State) : RStat × State :=
  if stagingEnd < a + v.length then (.unmapped, s.reportUnmapped a) else stagingWriteAux (v.length / 64 + 2) a v s

/-- Kinds of the data ranges of Table SYS-4. -/
inductive DataRange where
  | staging | bank | alias_ | nvm | other
  deriving DecidableEq, Repr

/-- The range that n bytes from address a lie in; a range that is not whole counts as other, but in the rotate alias, where an access stays in the word of its address (R251). -/
def dataRange (a n : Nat) : DataRange :=
  if a + n ≤ stagingEnd then .staging
  else if 0x4000000000 ≤ a ∧ a + n ≤ 0x4000400000 then .bank
  else if 0x4080000000 ≤ a ∧ a < 0x4080400000 then .alias_
  else if nvmBase ≤ a ∧ a + n ≤ nvmBase + 0x800000 then .nvm
  else .other

/-- The security partition of the NVM (Table SYS-5). -/
def inSecurity (a : Nat) : Bool := decide (nvmBase + 0x460000 ≤ a) && decide (a < nvmBase + 0x470000)

/-- Repair-map records as numbers. -/
def RepairRec.nums : RepairRec → List Nat
  | .column a b c d => [1, a, b, c, d]
  | .cluster a b c => [2, a, b, c]
  | .microRow a b c => [3, a, b, c]
  | .bankRow a b c => [4, a, b, c]
  | .lane a b c => [5, a, b, c]
  | .fabColumn a b c => [6, a, b, c]

/-- A byte of the NVM as the read window shows it: of the store copies and the repair maps, which only STORE and the lamplighter write, the bytes of what they
hold, of which the spec gives no layout (R31, Table SYS-5; log entry 2). -/
def State.nvmByte (s : State) (a : Nat) : Byte :=
  let o := a - nvmBase
  if o < 0x400000 then s.byte a
  else if o < 0x410000 then (Config.storeBytes s.dict.copyA.gen s.dict.copyA.vals).getD (o - 0x400000) 0
  else if o < 0x420000 then (Config.storeBytes s.dict.copyB.gen s.dict.copyB.vals).getD (o - 0x410000) 0
  else if o < 0x460000 then (Config.mapBytes (s.maps.map RepairRec.nums)).getD (o - 0x420000) 0
  else s.byte a

/-- A data read by initiator i of n bytes, at most 8 outside staging memory. -/
def dataRead (i : Initiator) (a n : Nat) (s : State) : RStat × List Byte × State :=
  match dataRange a n with
  | .staging => stagingRead a n s
  | .bank =>
    if (n = 1 ∨ n = 2 ∨ n = 4 ∨ n = 8) ∧ a % n = 0 then
      let x := bankRw i false ((a - 0x4000000000) / 65536) (a % 65536) n none s
      (x.status, toBytes n x.word, x.st)
    else unmappedRead a n s
  | .alias_ => if 1 ≤ n ∧ n ≤ 8 then let x := aliasRw i (a - 0x4080000000) n none s; (x.status, toBytes n x.word, x.st) else unmappedRead a n s
  | .nvm => if inSecurity a then (.unmapped, List.replicate n 0, s.reportUnmapped a) else (.ok, (List.range n).map (fun k => s.nvmByte (a + k)), s)
  | .other => unmappedRead a n s

/-- A data write by initiator i. -/
def dataWrite (i : Initiator) (a : Nat) (v : List Byte) (s : State) : RStat × State :=
  let n := v.length
  match dataRange a n with
  | .staging => stagingWrite a v s
  | .bank =>
    if (n = 1 ∨ n = 2 ∨ n = 4 ∨ n = 8) ∧ a % n = 0 then
      let x := bankRw i false ((a - 0x4000000000) / 65536) (a % 65536) n (some (ofBytes v)) s
      (x.status, x.st)
    else (.unmapped, s.reportUnmapped a)
  | .alias_ => if 1 ≤ n ∧ n ≤ 8 then let x := aliasRw i (a - 0x4080000000) n (some (ofBytes v)) s; (x.status, x.st) else (.unmapped, s.reportUnmapped a)
  | .nvm => (.unmapped, s.reportUnmapped a)
  | .other => (.unmapped, s.reportUnmapped a)

/-- The chunks a run of bytes is accessed in outside staging memory: naturally aligned, 8 bytes at most, in rising order. -/
def chunk (a n : Nat) : Nat := if a % 8 = 0 ∧ 8 ≤ n then 8 else if a % 4 = 0 ∧ 4 ≤ n then 4 else if a % 2 = 0 ∧ 2 ≤ n then 2 else 1

end Sys2Proof.Machine
end

