-- ==== Sys2Proof/Machine/Ports.lean ====
section
/-! DEFINITION. Address decode to stops and ports, the domains behind them, and the ports and routes that answer TARGET_ISOLATED (R28–R34, R258, R264–R267). -/
namespace Sys2Proof.Machine

/-- A page that Table SYS-6 lists. -/
def pageListed (p : Nat) : Bool :=
  decide (p ≤ 9) || pageIn p 0x10 5 || pageIn p 0x18 6 || pageIn p 0x20 8 || pageIn p 0x30 5 || pageIn p 0x38 2 || pageIn p 0x40 2 || p == 0x48
    || pageIn p 0x4c 3 || pageIn p 0x100 64 || pageIn p 0x1000 8

/-- An address in the control pages. -/
def inControl (a : Nat) : Bool := decide (0x4200000000 ≤ a) && decide (a < 0x4300000000)

/-- The microstore window holds n bytes from a, among the words of a slot (Table SYS-4, R30). -/
def inMicrostore (a n : Nat) : Bool := decide (0x4100000000 ≤ a) && decide (a + n ≤ 0x4105000000) && decide (a % 0x1000000 + n ≤ 0xA0000)

/-- The fabric window holds n bytes from a. -/
def inWindow (a n : Nat) : Bool := decide (0x4400000000 ≤ a) && decide (a + n ≤ 0x4500000000)

/-- n bytes from a, at least one, lie in one row of Table SYS-4 that maps them, and none in the security partition of the NVM, whose reads answer UNMAPPED
(R28, R31; log entry 37). -/
def mapped (a n : Nat) : Bool :=
  (dataRange a n != .other && (dataRange a n != .alias_ || decide (a + n ≤ 0x4080400000)) && !(decide (a < nvmBase + 0x470000) && decide (nvmBase + 0x460000 < a + n))) || inMicrostore a n || inWindow a n
    || (inControl a && inControl (a + n - 1) && (List.range ((a + n - 1) / 65536 - a / 65536 + 1)).all (fun k => pageListed ((a - 0x4200000000) / 65536 + k)))

/-- The stops of S0–S4 and the management core, and of H0–H3 and L0–L3 (Table RING-2). -/
def seqStop (q : Nat) : Nat := [0, 3, 13, 10, 9].getD q 7
@[inherit_doc seqStop] def hStop (k : Nat) : Nat := [1, 4, 14, 11].getD k 1
@[inherit_doc seqStop] def lStop (e : Nat) : Nat := [2, 5, 12, 15].getD e 2

/-- The port of a control page. -/
def pagePort (p : Nat) : Nat × Nat :=
  if pageIn p 0x10 5 then (seqStop (p - 0x10), 0)
  else if pageIn p 0x18 6 then (if p = 0x1d then 7 else seqStop (p - 0x18), 1)
  else if pageIn p 0x20 8 then (hStop (p % 4), if p < 0x24 then 0 else 1)
  else if pageIn p 0x30 4 then (lStop (p - 0x30), 0)
  else if p = 0x34 then (2, 1)
  else if pageIn p 0x38 2 ∨ pageIn p 0x1000 8 then (6, 0)
  else if p = 0x48 then (8, 0)
  else if pageIn p 0x100 64 then (bankStop (p - 0x100), 4 + (p - 0x100) % 4)
  else if pageIn p 1 3 then (7, 2)
  else (7, 3)

/-- The destination port of an address; none where it decodes to nothing (R29, R258). -/
def decodePort (a : Nat) : Option (Nat × Nat) :=
  if a < stagingEnd then some (hStop (a / stackSize), 1)
  else if inControl a then (if pageListed ((a - 0x4200000000) / 65536) then some (pagePort ((a - 0x4200000000) / 65536)) else none)
  else if inMicrostore a 1 then some (seqStop ((a - 0x4100000000) / 0x1000000), 0)
  else if inWindow a 1 then some (8, 0)
  else match dataRange a 1 with
    | .bank => some (bankStop ((a - 0x4000000000) / 65536), 4 + (a - 0x4000000000) / 65536 % 4)
    | .alias_ => some (bankStop ((a - 0x4080000000) / 65536), 4 + (a - 0x4080000000) / 65536 % 4)
    | .nvm => some (7, 3)
    | _ => none

/-- The source port of an initiator. -/
def sourcePort : Initiator → Nat × Nat
  | .core c => (seqStop c.val, 0)
  | .engine k => (hStop k.val, 0)
  | .hostBlock => (6, 0)
  | .fabric => (8, 0)
  | .probe => (7, 3)
  | .pilot => (7, 2)
  | .lamplighter => (7, 3)

/-- The domain a ring port's block lies in; none for the pilot and the always-reachable system pages (Table RING-2, Table SYS-7). -/
def portDomain (stop port : Nat) : Option Nat :=
  if 4 ≤ port then some (if stop = 7 ∧ port = 7 then 32 else 31)
  else match stop with
    | 0 => some 16 | 3 => some 17 | 13 => some 18 | 10 => some 19 | 9 => some 20
    | 1 => some 21 | 4 => some 22 | 14 => some 23 | 11 => some 24
    | 2 => if port = 1 then some 31 else some 25
    | 5 => some 26 | 12 => some 27 | 15 => some 28
    | 6 => some 29 | 8 => some 30
    | 7 => if port ≤ 1 then some 32 else none
    | _ => none

/-- The domain that an access to an address wakes (R34, Table PWR-1): not F, whose bridge answers in its stead (R354). -/
def wakes (a : Nat) : Option Nat :=
  match decodePort a with
  | some (8, 0) => none
  | some (st, p) => portDomain st p
  | none => none

/-- An access to the address can be served: its domain is not held OFF, and domain P has power. -/
def State.reachable (s : State) (a : Nat) : Bool :=
  match wakes a with
  | some d => s.domUp d || (!s.heldOff d && d != 29 && d != 31 && d != 32)
  | none => true

/-- Region bound to hard port i of Table FAB-5: 0–5 coprocessors, 6–9 streams, 10 ring initiator; 255 unbound. -/
def State.portRegion (s : State) (i : Nat) : Nat := (tget (konst 255) s.fab.portmap i).toNat

/-- A port is open: its region is CONFIGURED, or STARTING from phase 3 (R345). -/
def State.portOpen (s : State) (i : Nat) : Bool := decide (s.portRegion i < 16) && decide (3 ≤ tget (konst 0) s.fab.phase (s.portRegion i))

/-- An initiator can issue a request: the fabric's only while its ring initiator port is open (R345). -/
def State.issues (s : State) (i : Initiator) : Bool := i != .fabric || s.portOpen 10

/-- A port that left a request unanswered for ISOTO µs is isolated (R265). -/
def isolatePort (stop port tag : Nat) (s : State) : State :=
  (s.setB (cr 0x40 (0x100 + 4 * stop)) port).reportN 8 3 0x40 (stop * 256 + port) tag

/-- The source or destination stop answers an access from a port, on network n, with TARGET_ISOLATED: the port is isolated, or no route leads to it (R265, R267). -/
def State.isolatedFrom (s : State) (src : Nat × Nat) (n a : Nat) : Bool :=
  match decodePort a with
  | none => false
  | some d => s.isolated d.1 d.2 || s.noRoute n src.1 d.1

/-- The same of an access by an initiator. -/
def State.isolatedFor (s : State) (i : Initiator) (n a : Nat) : Bool := s.isolatedFrom (sourcePort i) n a

end Sys2Proof.Machine
end

