-- ==== Sys2Proof/Machine/Packets.lean ====
section
/-! DEFINITION. Ring packets of every network: virtual channels, probes, injection regulators, injection, responses, delivery and retry notices (R257–R263,
R267, R270, R272). -/
namespace Sys2Proof.Machine

/-- The network of a request (Table RING-1). -/
def RingOp.net : RingOp → Net
  | .wrl _ _ => .dat
  | .wbk _ => .dat
  | _ => .req

/-- A posted request (R260). -/
def RingOp.posted : RingOp → Bool
  | .wrp _ _ => true
  | .wbk _ => true
  | .wrl _ p => p
  | _ => false

/-- OP of a REQ flit (Table RING-3). -/
def RingOp.code : RingOp → Nat
  | .rd _ => 0 | .wr _ _ => 1 | .wrp _ _ => 2 | .rdl _ => 3 | .rds => 4 | .rdx => 5 | .upg => 6 | .evs => 7 | .wrl _ _ => 15 | .wbk _ => 15

/-- The code of a size. -/
def sizeCode : Size → Nat
  | .b1 => 0 | .b2 => 1 | .b4 => 2 | .b8 => 3

/-- The bytes a read asks for. -/
def RingOp.readBytes : RingOp → Nat
  | .rd n => n.bytes
  | .rdl n => 64 * n.bytes
  | .rds => 64
  | .rdx => 64
  | _ => 0

/-- The zeros that an unanswered read returns. -/
def RingOp.zeros (op : RingOp) : List Byte := List.replicate op.readBytes 0

/-- A read of lines, whose data comes on DAT (R259). -/
def RingOp.readsLines (op : RingOp) : Bool := decide (64 ≤ op.readBytes)

/-- The request that a packet is. -/
def Packet.op (p : Packet) : Option RingOp := match p.cargo with | .req op => some op | _ => none

/-- A posted packet. -/
def Packet.posted (p : Packet) : Bool := match p.op with | some op => op.posted | none => false

/-- A read of lines. -/
def Packet.readsLines (p : Packet) : Bool := match p.op with | some op => op.readsLines | none => false

/-- The data of a read that is not answered OK. -/
def Packet.zeros (p : Packet) : List Byte := match p.op with | some op => op.zeros | none => []

/-- Flits of a packet: 128 bytes of data a DAT flit; a response with narrow data has two (R257, R259). -/
def Packet.flits (p : Packet) : Nat :=
  match p.cargo with
  | .req (.wrl d _) => (d.length + 1) / 2
  | .rsp _ d => if d = [] then 1 else 2
  | .lines d => (d.length + 127) / 128
  | _ => 1

/-- The virtual channel on which a packet is injected (Table RING-1, R261). -/
def Packet.low (p : Packet) : Nat :=
  match p.cargo with
  | .lines _ => 2
  | .dlv | .retry | .snoopRsp => 1
  | _ => 0

/-- The virtual channel of a packet at a stop of its path: on REQ and DAT the upper one of its pair past the segment that enters position 0 (R261). -/
def Packet.vcAt (p : Packet) (stop : Nat) : Nat :=
  let n := netIdx p.net
  p.low + b2n ((p.net == .req || p.net == .dat) && (pathSegs n p.ring p.sstop.val stop).contains (if clockwise n p.ring then 15 else 1))

/-- The virtual channel on which it is ejected. -/
def Packet.vc (p : Packet) : Nat := p.vcAt p.dstop.val

/-- The address that a packet carries. -/
def Packet.address (p : Packet) : Option Nat :=
  match p.cargo with
  | .req _ | .snoop _ | .snoopRsp => some p.addr.toNat
  | _ => none

/-- The packet goes from port to port of one stop, and enters no ring (R258). -/
def Packet.local_ (p : Packet) : Bool := p.sstop == p.dstop

/-- The domain of a packet's destination port. -/
def Packet.domain (p : Packet) : Option Nat := portDomain p.dstop.val p.dport

/-- A packet replaced. -/
def setPacket (p : Packet) (s : State) : State := { s with packets := s.packets.map (fun x => if x.tag = p.tag then p else x) }
/-- A packet removed from its source's store. -/
def dropPacket (tag : Nat) (s : State) : State := { s with packets := s.packets.filter (·.tag != tag) }
/-- A packet by its tag. -/
def State.packet (s : State) (tag : Nat) : Option Packet := s.packets.find? (·.tag == tag)

-- Probes (R272)

/-- A field compared under its mask. -/
def masked (x v m : Nat) : Bool := (BitVec.ofNat 4 x ^^^ BitVec.ofNat 4 v) &&& BitVec.ofNat 4 m == 0

/-- Probe k matches a packet that its stop injects or ejects. -/
def State.probes (s : State) (k : Nat) (injects : Bool) (p : Packet) : Bool :=
  let a := cr 0x41 (0x40 * k)
  let m := fun (lo : Nat) => s.fld (a + 4) lo 4
  s.bit a 31 && s.bit a (if injects then 23 else 22) && (s.fld a 24 4 == if injects then p.sstop.val else p.dstop.val)
    && masked p.sstop.val (m 28) (m 24) && masked p.dstop.val (m 20) (m 16) && masked p.sport (m 12) (m 8) && masked p.dport (m 4) (m 0)
    && (p.net != .req || s.bit (a + 8) (match p.op with | some op => op.code | none => 0))
    && (match p.address with | some x => decide (s.r64 (a + 0x10) ≤ x) && decide (x ≤ s.r64 (a + 0x18)) | none => true)

/-- The head flit of a REQ packet on a virtual channel (Table RING-3). -/
def Packet.flit (p : Packet) (op : RingOp) (vc : Nat) : Nat :=
  let sz := match op with | .rd n => sizeCode n | .wr n _ => sizeCode n | .wrp n _ => sizeCode n | .rdl n => sizeCode n | _ => 0
  let data := match op with
    | .wr _ v => v.toNat * 2 ^ (8 * (p.addr.toNat % 8)) % 2 ^ 64
    | .wrp _ v => v.toNat * 2 ^ (8 * (p.addr.toNat % 8)) % 2 ^ 64
    | _ => 0
  3 * 2 ^ 142 + vc * 2 ^ 141 + p.prio * 2 ^ 139 + op.code * 2 ^ 135 + p.dstop.val * 2 ^ 131 + p.dport * 2 ^ 127 + p.sstop.val * 2 ^ 123
    + p.sport * 2 ^ 119 + p.tag % 1024 * 2 ^ 109 + sz * 2 ^ 107 + p.addr.toNat * 2 ^ 64 + data

/-- The head of a packet as a trace shows it: the REQ flit; the 80-bit flit of RSP and SNP and the 64-bit sideband header of DAT, of which no table gives
the layout, are free and zero-extended (R257, R272; log entry 2). -/
def Packet.head (p : Packet) (vc : Nat) (s : State) : Nat :=
  match p.net, p.op with
  | .req, some op => p.flit op vc
  | .dat, _ => (s.drawn 0).toNat
  | _, _ => ((s.drawn 0).toNat + 2 ^ 64 * (s.drawn 1).toNat) % 2 ^ 80

/-- PROBE_MATCH: a probe that matches counts the packet and traces it. -/
def probeOne (injects : Bool) (p : Packet) (k : Nat) (s : State) : State :=
  if s.probes k injects p then
    let a := cr 0x41 (0x40 * k)
    let s1 := match s.fld a 28 2 with
      | 0 => s.incF (a + 0x20) 0 64 1
      | 1 => s.incF (a + 0x20) 0 64 p.flits
      | _ => s
    traceRecord k (s1.now.toNat + p.head (if injects then p.low else p.vc) s1 % 2 ^ 144 * 2 ^ 64) s1.draw
  else s

/-- The probes of a network. -/
def netProbes (n : Net) : List Nat := (List.range 8).map (· + 8 * netIdx n)

/-- A packet on a ring passes the probes where it is injected or ejected; traffic within a stop passes none (R258). -/
def probe (injects : Bool) (p : Packet) (s : State) : State := if p.local_ then s else each (netProbes p.net) (probeOne injects p) s

/-- A head that matches waits for nc cycles at injection (R272, MODE 10). -/
def probeWait (nc : Nat) (p : Packet) (s : State) : State :=
  if p.local_ then s
  else each (netProbes p.net) (fun k s =>
    if s.fld (cr 0x41 (0x40 * k)) 28 2 = 2 ∧ s.probes k true p then s.incF (cr 0x41 (0x40 * k + 0x20)) 0 64 nc else s) s

-- Injection (R258–R263)

/-- PRIO as the stop sets it, by source port and request (R262). -/
def State.prioOf (s : State) (src : Nat × Nat) (a : Nat) (c : Cargo) : Nat :=
  let send := inControl a && pageIn ((a - 0x4200000000) / 65536) 0x18 6 && a % 65536 == 0x10
  if src = (7, 2) then 3
  else if src = (7, 0) then s.fld (cr 0x40 0) 16 2
  else
    match c with
    | .req (.wr _ _) => b2n send
    | .req (.wrp _ _) => b2n send
    | _ => 0

/-- A packet that its stop's regulator holds to tokens: a request on REQ or DAT, but of the management core and the security monitor (R263). -/
def State.regulated (s : State) (p : Packet) : Bool :=
  p.op.isSome && !p.local_ && !(p.sstop == 7 && (p.sport == 0 || p.sport == 2)) && (s.bucket p.sstop.val (p.net == .dat)).1 != 0

/-- A retirement's segment lies on the path, and the stop has not switched (R269). -/
def State.waitsCut (s : State) (n ring src dest : Nat) : Bool :=
  (match s.cutting n with | some g => g / 16 == ring && (pathSegs n ring src dest).contains (g % 16) | none => false) && s.stopBank n src != s.netBank n

/-- Two packets between the same ports on one network and VC class, whose order is kept (R262). -/
def Packet.sameWay (p x : Packet) : Bool :=
  x.sstop == p.sstop && x.sport == p.sport && x.dstop == p.dstop && x.dport == p.dport && x.net == p.net && x.low == p.low

/-- A packet that waits behind no other of its port and network: the head of its injection queue. -/
def State.headOf (s : State) (p : Packet) : Bool :=
  s.packets.find? (fun x => x.sstop == p.sstop && x.sport == p.sport && x.net == p.net && x.low == p.low && (x.stage == .waiting || x.stage == .cut)) == some p

/-- The packets before p in the list. -/
def State.before (s : State) (p : Packet) : List Packet := s.packets.takeWhile (·.tag != p.tag)

/-- An earlier packet keeps p at its source: one that waits, or one cut or resent that has not been delivered (R262, R270). -/
def State.heldBack (s : State) (p : Packet) : Bool :=
  (s.before p).any (fun x => p.sameWay x && (x.stage == .waiting || x.stage == .cut || (decide (0 < x.resends) && (x.stage == .flying || x.stage == .parked))))

/-- An earlier wormhole of the bucket still waits for tokens. -/
def State.tokenQueue (s : State) (p : Packet) : Bool :=
  (s.before p).any (fun x => x.sstop == p.sstop && x.net == p.net && decide (0 < x.left) && x.stage == .flying)

/-- Flits of p injected: as many as the bucket has tokens for, or all (R263). -/
def inject1 (p : Packet) (s : State) : Packet × State :=
  if s.regulated p then
    let dat := p.net == .dat
    let t := s.token p.sstop.val dat
    let k := min p.left (t / 1024)
    ({ p with left := p.left - k }, setToken p.sstop.val dat (t - 1024 * k) s)
  else ({ p with left := 0 }, s)

/-- A request ends at its source with a status of the source's own; any other packet is lost. -/
def endAtSource (p : Packet) (st : RStat) (s : State) : State :=
  let s1 := dropPacket p.tag s
  if p.op.isSome && !p.posted && !p.discard then respond p.init p.tag st p.zeros s1 else s1

/-- The source stop answers a packet that no route leads on: a request ends there with TARGET_ISOLATED; of a response or its data, the request that it answers does
(R267; log entry 43); any other packet is lost. -/
def stopped (p : Packet) (s : State) : State :=
  match p.cargo with
  | .rsp _ _ | .lines _ => let s1 := dropPacket p.tag s; (match s1.packet p.ref with | some q => endAtSource q .targetIsolated s1 | none => s1)
  | _ => endAtSource p .targetIsolated s

/-- A packet at its source is injected if nothing holds it: its route is chosen now (R261–R263, R267, R269). -/
def tryInject (tag : Nat) (s : State) : State :=
  match s.packet tag with
  | none => s
  | some p =>
    if p.stage = .waiting then
      if s.heldBack p then s
      else if p.local_ then setPacket { p with stage := .flying, left := 0 } s
      else
        let n := netIdx p.net
        let r := s.routeOf n p.sstop.val p.dstop.val
        if s.waitsCut n r.ring p.sstop.val p.dstop.val then s
        else if s.noRoute n p.sstop.val p.dstop.val then stopped p s
        else if s.regulated p && (s.tokenQueue p || decide (s.token p.sstop.val (p.net == .dat) < 1024)) then s
        else
          let x := inject1 { p with stage := .flying, ring := r.ring } s
          probe true x.1 (setPacket x.1 x.2)
    else if p.stage = .flying ∧ 0 < p.left ∧ ¬ s.tokenQueue p then let x := inject1 p s; setPacket x.1 x.2
    else s

/-- Every packet that can be injected is, in order. -/
def pump (s : State) : State := each (s.packets.map (·.tag)) tryInject s

/-- A packet at its source port. -/
def sendPacket (i : Initiator) (net : Net) (src dst : Nat × Nat) (a : BitVec 40) (c : Cargo) (ref : Option Nat) (s : State) : State :=
  let p : Packet := { tag := s.nextTag, ref := ref.getD s.nextTag, init := i, net := net, sstop := Fin.ofNat 16 src.1, sport := src.2, dstop := Fin.ofNat 16 dst.1
                      dport := dst.2, addr := a, cargo := c, prio := s.prioOf src a.toNat c, ring := 0, resends := 0, left := 1, stage := .waiting, answered := false
                      status := none, data := none, discard := false }
  pump { s with packets := s.packets ++ [{ p with left := p.flits }], nextTag := s.nextTag + 1 }

/-- A packet back to the source port of a request. -/
def sendBack (p : Packet) (net : Net) (c : Cargo) (s : State) : State :=
  sendPacket p.init net (p.dstop.val, p.dport) (p.sstop.val, p.sport) p.addr c (some p.tag) s

/-- A request enters its source port; an address that decodes to nothing is answered by the source stop (R29, R258, R259). -/
def sendRequest (i : Initiator) (a : BitVec 40) (op : RingOp) (s : State) : State :=
  if !s.issues i then s
  else match decodePort a.toNat with
  | none =>
    let s1 := ({ s with nextTag := s.nextTag + 1 } : State).reportUnmapped a.toNat
    if op.posted then s1 else respond i s.nextTag .unmapped op.zeros s1
  | some d => sendPacket i op.net (sourcePort i) d a (.req op) none s

/-- TOKEN_REFILL: the bucket gains RATE/1,024 tokens a nc, up to BURST, and waiting flits are injected, the probes' trace writes of stop M among them
(R263). The nc that pass count for the heads that wait at the stop, on REQ, RSP and SNP with the REQ bucket, on DAT with its own (R272; log entry 9). -/
def execTokenRefill (stop : StopId) (dat : Bool) (nc : Nat) (s : State) : Out :=
  let r := s.bucket stop.val dat
  let s1 := setToken stop.val dat (min (s.token stop.val dat + r.1 * nc) (r.2 * 1024)) s
  let waits := s1.packets.filter (fun p => p.sstop == stop && (p.net == .dat) == dat && p.stage == .waiting && s1.headOf p)
  let s2 := each waits (probeWait nc) s1
  .next (pump (when (stop.val == 7 && !dat) (each (List.range 63) traceDrain) s2))

/-- STOP_ROUTE_SWITCH: the heads that waited use the new bank (R267). -/
def execStopRouteSwitch (n : Net) (p : StopId) (s : State) : Out := .next (pump (stopSwitch (netIdx n) p.val s))

/-- RD. -/
def execRd (i : Initiator) (a : BitVec 40) (n : Size) (s : State) : Out := .next (sendRequest i a (.rd n) s)
/-- WR. -/
def execWr (i : Initiator) (a : BitVec 40) (n : Size) (v : Dword) (s : State) : Out := .next (sendRequest i a (.wr n v) s)
/-- WRP. -/
def execWrp (i : Initiator) (a : BitVec 40) (n : Size) (v : Dword) (s : State) : Out := .next (sendRequest i a (.wrp n v) s)
/-- RDL. -/
def execRdl (i : Initiator) (a : BitVec 40) (n : Size) (s : State) : Out := .next (sendRequest i a (.rdl n) s)
/-- WRL: a packet of 1 to 8 lines. -/
def execWrl (i : Initiator) (a : BitVec 40) (d : LineWrite) (s : State) : Out := .next (sendRequest i a (.wrl (d.lines.take 8) d.posted) s)
/-- RDS. -/
def execRds (c : CoreId) (a : BitVec 40) (s : State) : Out := .next (sendRequest (.core c) a .rds s)
/-- RDX. -/
def execRdx (c : CoreId) (a : BitVec 40) (s : State) : Out := .next (sendRequest (.core c) a .rdx s)
/-- UPG. -/
def execUpg (c : CoreId) (a : BitVec 40) (s : State) : Out := .next (sendRequest (.core c) a .upg s)
/-- WBK. -/
def execWbk (c : CoreId) (a : BitVec 40) (v : BitVec 512) (s : State) : Out := .next (sendRequest (.core c) a (.wbk v) s)
/-- EVS. -/
def execEvs (c : CoreId) (a : BitVec 40) (s : State) : Out := .next (sendRequest (.core c) a .evs s)

-- Responses and notices (R259, R260, R265, R270)

/-- A delivered request's copy; none once it has been answered. A posted request has no response (R260). -/
def State.open_ (s : State) (p : Packet) : Option Packet := (s.packet p.tag).filter (fun x => x.stage == .served && !x.answered && !x.posted)

/-- The response to a delivered request sets out: RSP, and the data of lines on DAT; one to a request that its stop has answered is discarded (R260, R265). -/
def answer (p : Packet) (st : RStat) (d : List Byte) (s : State) : State :=
  match s.open_ p with
  | none => s
  | some x =>
    let s1 := setPacket { x with answered := true } s
    let s2 := sendBack x .rsp (.rsp st (if x.readsLines then [] else d)) s1
    if x.readsLines ∧ st = .ok then sendBack x .dat (.lines d) s2 else s2

/-- The parts of a response that have arrived complete it: its initiator receives it, unless it is discarded. -/
def finishRequest (x : Packet) (s : State) : State :=
  match x.status with
  | none => setPacket x s
  | some st =>
    if st = .ok ∧ x.readsLines ∧ x.data = none then setPacket x s
    else
      let s1 := dropPacket x.tag s
      if x.discard then s1 else respond x.init x.tag st (if st = .ok then x.data.getD [] else x.zeros) s1

/-- A probe is enabled. -/
def State.probing (s : State) : Bool := (List.range 32).any (fun k => s.bit (cr 0x41 (0x40 * k)) 31)

/-- The flits of a request. -/
def RingOp.flits : RingOp → Nat
  | .wrl d _ => (d.length + 1) / 2
  | _ => 1

/-- An access carried from a port within one command spends the tokens of its flits; for those that its bucket lacks it has waited (R263; log entry 9). -/
def spend (src d : Nat × Nat) (op : RingOp) (s : State) : State :=
  let dat := op.net == .dat
  if src.1 = d.1 ∨ src = (7, 0) ∨ src = (7, 2) ∨ (s.bucket src.1 dat).1 = 0 then s
  else setToken src.1 dat (s.token src.1 dat - 1024 * op.flits) s

/-- A flit from a port to another waits for ever: its bucket is empty, and with a RATE above 0 and BURST 0 no token comes (R263). -/
def State.tokenless (s : State) (src d : Nat × Nat) (dat : Bool) : Bool :=
  src.1 != d.1 && src != (7, 0) && src != (7, 2) && (s.bucket src.1 dat).1 != 0 && (s.bucket src.1 dat).2 == 0 && decide (s.token src.1 dat < 1024)

/-- An access from a port can be carried to its end: its flit has or gets its token, and the domain of its target is up or can be woken (R263, R264). -/
def State.passes (s : State) (src : Nat × Nat) (dat : Bool) (a : Nat) : Bool :=
  s.reachable a && (match decodePort a with | some d => !s.tokenless src d dat | none => true)

/-- A head of an access that a retirement's cut holds at its stop waits until the stop has switched (R269). -/
def switchWay (n : Nat) (src d : Nat × Nat) (s : State) : State :=
  if s.waitsCut n (s.routeOf n src.1 d.1).ring src.1 d.1 then stopSwitch n src.1 s else s

/-- An access that is carried from a port to its end within one command passes the probes with its request and its response (R272). -/
def trip (src : Nat × Nat) (i : Initiator) (a : Nat) (op : RingOp) (st : RStat) (s : State) : State :=
  match (decodePort a).filter (fun _ => s.probing) with
  | none => s
  | some d =>
    let route := fun (n x y : Nat) => (s.routeOf n x y).ring
    let p : Packet := { tag := s.nextTag, ref := s.nextTag, init := i, net := op.net, sstop := Fin.ofNat 16 src.1, sport := src.2, dstop := Fin.ofNat 16 d.1, dport := d.2
                        addr := BitVec.ofNat 40 a, cargo := .req op, prio := s.prioOf src a (.req op), ring := route (netIdx op.net) src.1 d.1, resends := 0, left := 0
                        stage := .served, answered := false, status := none, data := none, discard := false }
    let back := fun (n : Net) (c : Cargo) =>
      ({ p with net := n, sstop := p.dstop, sport := p.dport, dstop := p.sstop, dport := p.sport, cargo := c, prio := 0, ring := route (netIdx n) d.1 src.1 } : Packet)
    let pass := fun (p : Packet) (s : State) => probe false p (probe true p s)
    let s1 := pass p { s with nextTag := s.nextTag + 1 }
    let s2 := pass (back .rsp (if op.posted then .dlv else .rsp st (if op.readsLines then [] else op.zeros))) s1
    when (op.readsLines && st == .ok) (pass (back .dat (.lines op.zeros))) s2

end Sys2Proof.Machine
end

