-- ==== Sys2Proof/Machine/Windows.lean ====
section
/-! DEFINITION. Words of the microstores and their parity (R86–R89), and the accesses to the data ranges, the microstore window and the fabric window, carried to
their end for any initiator (R28–R33, R349). -/
namespace Sys2Proof.Machine

/-- Control-space offset of a register of sequencer s (Table SYS-6). -/
def sq (s off : Nat) : Nat := cr (0x10 + s) off

/-- Key of a microword. -/
def uwKey (q upc : Nat) : Nat := q * 32768 + upc

/-- The number of ones among the low n bits of v. -/
def ones : Nat → Nat → Nat
  | 0, _ => 0
  | n + 1, v => v % 2 + ones n (v / 2)

/-- P4–P0 of function bits: odd parity over each group of 32 (R89). -/
def parity (f : Nat) : Nat := (List.range 5).foldl (fun p j => p + (1 - ones 32 (f / 2 ^ (32 * j)) % 2) * 2 ^ j) 0

/-- The failing parity groups of a stored microword. -/
def badGroups (w : Nat) : Nat := (parity (w % 2 ^ 160) ^^^ w / 2 ^ 160) % 32

/-- Function bits with fresh parity (R88). -/
def withParity (f : Nat) : BitVec 165 := BitVec.ofNat 165 (f % 2 ^ 160 + parity (f % 2 ^ 160) * 2 ^ 160)

/-- A μPC of the user region (Table MIC-1). -/
def inUser (upc : Nat) : Bool := decide (0x3000 ≤ upc) && decide (upc < 0x4000)

/-- Function bits that the source of a word outside the user region holds: the firmware image's words of load `gen` for the vendor region, the ROM's own
(Table MIC-1, R115). The spec gives no contents, so they are free (log entry 2). -/
def sourceWord (gen upc : Nat) : Nat := if upc < 0x3000 then (Config.vendorWord gen upc).toNat else (Config.romWord upc).toNat

/-- What a microword slot holds until something is stored there: the word that start-up loaded or the ROM word, with sound parity; in the user region all zeros,
a parity error (R86, R89). -/
def microDefault (gen k : Nat) : BitVec 165 := if inUser (k % 32768) then 0 else withParity (sourceWord gen (k % 32768))

/-- Function bits and P4–P0 of a microword as stored. -/
def State.uword (s : State) (q upc : Nat) : Nat := (tget (microDefault s.microGen) s.micro (uwKey q upc)).toNat

/-- A stored microword replaced, parity bits and all. -/
def State.setUword (s : State) (q upc : Nat) (w : BitVec 165) : State := { s with micro := tset (microDefault s.microGen) s.micro (uwKey q upc) w }

/-- A commit (R88): a word that waited for a boundary is superseded. -/
def commitWord (q upc f : Nat) (s : State) : State :=
  (s.setUword q upc (withParity f)).modSeq q (fun x => { x with newWords := tdel x.newWords upc })

-- The microstore window (R86–R88)

/-- Who may write a μPC (Table MIC-1). -/
def mayMicro (i : Initiator) (q upc : Nat) : Bool :=
  if upc < 0x3000 then i == .mgmt
  else decide (upc < 0x4000) && (i == .mgmt || (match i with | .core c => c.val == q | .hostBlock => true | _ => false))

/-- Partition whose sequencer is q, for the boundary of R88. -/
def State.executing (s : State) (q : Nat) : Bool := (s.seq q).run.isSome

/-- A store to a microword slot: assembly buffers at 0x00 and 0x08, the commit at 0x10 (R87, R88). An initiator has one buffer, so a store for another slot
displaces what it held (log entry 34). -/
def microStore (i : Initiator) (q off v : Nat) (s : State) : State :=
  let upc := off / 32
  let code := respKey i
  if off % 8 ≠ 0 ∨ !mayMicro i q upc then s.reportUnmapped (0x4100000000 + q * 0x1000000 + off)
  else match off % 32 with
    | 0 => s.modSeq q (fun x => { x with buf0 := tset (konst (32768, 0)) x.buf0 code (upc, BitVec.ofNat 64 v) })
    | 8 => s.modSeq q (fun x => { x with buf1 := tset (konst (32768, 0)) x.buf1 code (upc, BitVec.ofNat 64 v) })
    | 16 =>
      let b0 := tget (konst (32768, 0)) (s.seq q).buf0 code
      let b1 := tget (konst (32768, 0)) (s.seq q).buf1 code
      if b0.1 = upc ∧ b1.1 = upc then
        let f := b0.2.toNat + b1.2.toNat * 2 ^ 64 + v % 2 ^ 32 * 2 ^ 128
        let s1 := s.modSeq q (fun x => { x with buf0 := tset (konst (32768, 0)) x.buf0 code (32768, 0), buf1 := tset (konst (32768, 0)) x.buf1 code (32768, 0) })
        if s.executing q then s1.modSeq q (fun x => { x with newWords := tset (konst 0) x.newWords upc (withParity f) }) else commitWord q upc f s1
      else s.setB (sq q 0x860) 31
    | _ => s

/-- A read of a slot returns the committed word (Table MIC-2, R88). -/
def microLoad (q off : Nat) (s : State) : Nat :=
  let upc := off / 32
  let w := match (s.seq q).newWords.find? (·.1 == upc) with | some e => e.2.toNat | none => s.uword q upc
  match off % 32 with
  | 0 => w % 2 ^ 64
  | 8 => w / 2 ^ 64 % 2 ^ 64
  | 16 => w / 2 ^ 128
  | _ => 0

-- The fabric window (R33, R349)

/-- A register of page FAB. -/
def fb (off : Nat) : Nat := cr 0x48 off

/-- FAB_STAT.STATE. -/
def State.fabState (s : State) : Nat := s.fld (fb 0x20) 16 3

/-- The valid WINMAP entries: region, base, size in 64 KiB units. -/
def winEntry (v : Nat) : Option (Nat × Nat × Nat) := if v.testBit 63 then some (bits v 32 4, bits v 0 16, bits v 16 16 + 1) else none

/-- The region whose window range covers an offset of the fabric window (R349). -/
def State.winRegion (s : State) (a : Nat) : Option Nat :=
  ((s.fab.winmap.filterMap (fun e => winEntry e.2.toNat)).find? (fun w => decide (w.2.1 ≤ a / 65536) && decide (a / 65536 < w.2.1 + w.2.2))).map (·.1)

/-- How the ring target port answers a window request before the design sees it: none where the design is to serve it (R33, R349, R354). -/
def State.winStatus (s : State) (a : Nat) : Option RStat :=
  if ¬ s.domUp 30 ∨ s.fabState < 2 then some .notReady
  else
    match s.winRegion a with
    | none => some .unmapped
    | some r => if 3 ≤ tget (konst 0) s.fab.phase r then none else some .notReady

/-- A window request served by the design, its answer given: status, data, state. -/
def winAccess (a n : Nat) (write : Option Nat) (reply : Option Dword) (s : State) : RStat × List Byte × State :=
  let zero := if write.isSome then [] else List.replicate n 0
  match s.winStatus a with
  | some .unmapped => (.unmapped, zero, s.reportUnmapped (0x4400000000 + a))
  | some st => (st, zero, s)
  | none => (.ok, if write.isSome then [] else toBytes n ((reply.getD 0).toNat), s)

/-- What the design answers to a window request that no command gave an answer for. -/
def State.design (s : State) (a : Nat) : Option Dword := Config.designReply s.free a

/-- The design accepts a request and leaves it unanswered (R349). -/
def State.designSilent (s : State) (a : Nat) : Bool := (s.winStatus a).isNone && Config.designSilent s.free

/-- A window access whose answer is the design's own; an address that the design does not decode is unmapped (R33), and a request left unanswered ends with
the port isolated (R265, R349). -/
def windowRw (a n : Nat) (write : Option Nat) (s : State) : RStat × List Byte × State :=
  if s.designSilent a then (.targetIsolated, if write.isSome then [] else List.replicate n 0, isolatePort 8 0 0 s.draw)
  else match s.winStatus a, s.design a with
  | none, none => (.unmapped, if write.isSome then [] else List.replicate n 0, s.draw.reportUnmapped (0x4400000000 + a))
  | _, r => winAccess a n write r s.draw

/-- A read of n bytes outside the control pages. -/
def devRead (i : Initiator) (a n : Nat) (s : State) : RStat × List Byte × State :=
  if inMicrostore a n then
    if n = 8 ∧ a % 8 = 0 then (.ok, toBytes 8 (microLoad ((a - 0x4100000000) / 0x1000000) (a % 0x1000000) s), s) else unmappedRead a n s
  else if inWindow a n then windowRw (a - 0x4400000000) n none s
  else dataRead i a n s

/-- Whether initiator i may store to the microword slot at a (Table MIC-1). -/
def mayStore (i : Initiator) (a : Nat) : Bool := mayMicro i ((a - 0x4100000000) / 0x1000000) (a % 0x1000000 / 32)

/-- A write outside the control pages. -/
def devWrite (i : Initiator) (a : Nat) (v : List Byte) (s : State) : RStat × State :=
  let n := v.length
  if inMicrostore a n then
    if n = 8 ∧ a % 8 = 0 then (if mayStore i a then .ok else .unmapped, microStore i ((a - 0x4100000000) / 0x1000000) (a % 0x1000000) (ofBytes v) s)
    else (.unmapped, s.reportUnmapped a)
  else if inWindow a n then let x := windowRw (a - 0x4400000000) n (some (ofBytes v)) s; (x.1, x.2.2)
  else dataWrite i a v s

end Sys2Proof.Machine
end

