-- ==== Sys2Proof/Machine/Pages.lean ====
section
/-! DEFINITION. The control-register pages as they are read, who may write them, and what a read of the device answers for any initiator (R15–R17, R28–R33,
Table SYS-6). -/
namespace Sys2Proof.Machine

/-- A job's descriptor as a number (Table HOST-3). -/
def Job.num (j : Job) : Nat := ofBytes j.desc

/-- OPCODE. -/
def Job.op (j : Job) : Nat := bits j.num 0 8

/-- The field of n bytes at an offset of the descriptor (Table HOST-4). -/
def Job.f (j : Job) (off n : Nat) : Nat := bits j.num (8 * off) (8 * n)

/-- The tree offers of a partition in flight. -/
def State.trees (s : State) (p : Nat) : Trees := tget (konst Trees.none) s.arr.trees p

/-- ARR_PSTATp.SUSP of a sequencer's partition (R105, R108). -/
def Seq.susp (q : Seq) : Bool := q.frame.isSome && !q.resuming

/-- SEQs_SR.AB: the queue that receives pushes holds an entry and is not halted, or an instruction of it executes (R199). -/
def Seq.ab (q : Seq) : Bool :=
  let execs := match q.run with | some r => r.lane == q.susp | none => false
  (if q.susp then !q.lHalt && !q.lane.isEmpty else !q.qHalt && !q.queue.isEmpty) || execs

/-- SR.AB of a core (R199). -/
def State.ab (s : State) (c : Nat) : Bool := decide (c < 5) && (s.drives c).isSome && (s.seq c).ab

/-- A register of the page occupies the offset; the pages of the host block and its doorbells have maps of their own (R17, R295). -/
def occupied (p off : Nat) : Bool := p == 0x38 || (p == 0x39 && off % 8 == 0 && decide (off < 0x20)) || pageIn p 0x1000 8 || (regAt (cr p off)).isSome

/-- Control-space offset of a CTk register. -/
def ct (k off : Nat) : Nat := cr (0x20 + k) off

/-- A 32-bit read of page CTk. -/
def ctRead (k off : Nat) (s : State) : Nat := if off = 8 then 0 else s.r32 (ct k off)

/-- ICUn_STAT: REQ and TOP (R228). `ie` and `pl` are those of the core's SR. -/
def icuStat (s : State) (n : Nat) : Nat :=
  let sr := (s.core n).sr.toNat
  let ie := sr.testBit 7
  let b := s.best n (bits sr 20 8)
  (if ie ∧ b.isSome then 2 ^ 31 else 0) + (b.getD 1023) * 65536

/-- A 32-bit read of ICUn with its computed fields. -/
def icuRead (n off : Nat) (s : State) : Nat :=
  if off = 8 then icuStat s n
  else if n = 5 ∧ off = 0x20 then ((s.mcq.head?.map (·.toNat)).getD 0) % 2 ^ 32
  else if n = 5 ∧ off = 0x24 then ((s.mcq.head?.map (·.toNat)).getD 0) / 2 ^ 32
  else if n = 5 ∧ off = 0x28 then setBits (s.r32 (icu 5 0x28)) 16 5 s.mcq.length
  else if off = 0x20 ∨ off = 0x24 ∨ off = 0x28 then 0
  else if off = 0x10 then 0
  else s.r32 (icu n off)

/-- A register of edge e. -/
def sm (e off : Nat) : Nat := cr (0x30 + e) off

/-- The times of a lane's retrains within the last 3,600 s (R307). -/
def State.retrains (s : State) (e k : Nat) : List Nat :=
  (tget (konst []) s.laneTimes (e * 34 + k)).filter (fun t => decide (s.ran < t + 3600000000000))

/-- A 32-bit read of SEAMe; RTCNT is counted over the last 3,600 s. -/
def seamRead (e off : Nat) (s : State) : Nat :=
  let k := (off - 0x100) / 8
  if 0x100 ≤ off ∧ off < 0x200 ∧ off % 8 = 4 then setBits (s.r32 (sm e off)) 22 2 (min 3 (s.retrains e k).length) else s.r32 (sm e off)

/-- The key of a table entry. -/
def srtKey (bank : Bool) (dim idx : Nat) : Nat := b2n bank * 512 + dim * 256 + idx

/-- A register of page SRT. -/
def srt (off : Nat) : Nat := cr 0x34 off

/-- SRT_ADDR: DX and DY, and both as a device address. -/
def State.ownX (s : State) : Nat := s.fld (srt 0) 0 8

@[inherit_doc State.ownX] def State.ownY (s : State) : Nat := s.fld (srt 0) 8 8

/-- The default entry of a table: local, the shorter way round, ties east or south (R314). -/
def State.routeDefault (s : State) (dim idx : Nat) : Nat :=
  let d := (idx + 256 - (if dim = 1 then s.ownY else s.ownX)) % 256
  if d = 0 then 0 else if d ≤ 128 then 1 else 2

/-- A table entry. -/
def State.srtEntry (s : State) (bank : Bool) (dim idx : Nat) : Nat :=
  match tget (konst none) s.router.tab (srtKey bank dim idx) with
  | some v => v.toNat
  | none => s.routeDefault dim idx

/-- A 32-bit read of page SRT, with the entries that SRT_RT selects. -/
def srtRead (off : Nat) (s : State) : Nat :=
  if off = 0x18 then
    let r := s.r32 (srt 0x18)
    let e := fun b => s.srtEntry b (bits r 24 1) (bits r 16 8)
    bits r 16 9 * 65536 + e s.router.bank * 16 + e (!s.router.bank)
  else if off = 0x20 then 0
  else s.r32 (srt off)

/-- A register of page PWR. -/
def pw (off : Nat) : Nat := cr 8 off

/-- A 32-bit read of page PWR, with PWR_FUSE: FMAX and VMAX, and IMAX, 720 A (R363, R449). -/
def powerRead (off : Nat) (s : State) : Nat :=
  if off = 0x28 then Config.vmax.toNat * 65536 + Config.fmax.toNat else if off = 0x2c then 720 else s.r32 (pw off)

/-- A 32-bit read of page NVM: its writer and the fault log's count and next slot. -/
def nvmRead (off : Nat) (s : State) : Nat :=
  if off = 0 then s.nvmStat
  else if off = 8 then flogNext s.flogTotal
  else if off = 0xc then min s.flogTotal (2 ^ 32 - 1)
  else 0

/-- MGE_MAC: 0x025A over the low half of the serial number. -/
def mgeMac : Nat := 0x025A * 2 ^ 32 + Config.serial.toNat % 2 ^ 32

/-- A 32-bit read of page MGE. -/
def mgeRead (off : Nat) (s : State) : Nat := if off = 0x18 then mgeMac % 2 ^ 32 else if off = 0x1c then mgeMac / 2 ^ 32 else s.r32 (cr 0x4c off)

/-- FN_STAT. -/
def fnStat (f : Fn) : Nat := b2n f.wrej * 2 ^ 63 + f.coll.toNat * 2 ^ 32 + f.evdrop.toNat * 2 ^ 16 + f.dbdrop.toNat

/-- The double-word at an offset of the function page of function f acting for function g with queue select q; `pf` shows the registers of
a physical function. -/
def fnPage (f g q off : Nat) (pf : Bool) (s : State) : Nat :=
  let k := s.queue q
  let own := k.owner == some g
  if off = 8 then fnStat (s.fn f)
  else if off = 0x10 then q
  else if off = 0x18 then (if own then k.base.toNat else 0)
  else if off = 0x20 then (if own then k.ctx.toNat + b2n (k.state == .enabled || k.state == .error) * 2 ^ 63 else 0)
  else if off = 0x28 then (if own then k.stat else 0)
  else if 0x100 ≤ off ∧ off < 0x200 then
    (if off % 16 = 0 then (tget (konst 0) (s.fn g).winBase ((off - 0x100) / 16)).toNat else (tget (konst 0) (s.fn g).winCtl ((off - 0x100) / 16)).toNat)
  else if pf ∧ off = 0x1000 then g
  else if pf ∧ off = 0x1008 then s.fcfg g
  else 0

/-- A 32-bit read of page HOST: the function-page layout for HOST_FSEL and HOST_QSEL. -/
def hostRead (off : Nat) (s : State) : Nat :=
  if off = 0x10 ∨ off = 0x1000 ∨ off = 0x1100 ∨ off = 0x1108 then s.r32 (cr 0x38 off)
  else
    let f := s.fld (cr 0x38 0x1000) 0 8
    bits (fnPage f f (s.fld (cr 0x38 0x10) 0 16) (off / 8 * 8) true s) (off % 8 * 8) 32

/-- A 32-bit read of page ERRLOG: counts, the oldest entry, the overflow counts and the last record of each class. -/
def errRead (off : Nat) (s : State) : Nat :=
  if off = 0 then s.errlog.length + b2n (decide (errCap ≤ s.errlog.length)) * 2 ^ 31
  else if 0x100 ≤ off ∧ off < 0x120 then bits (s.errlog.headD ErrEntry.zero).word (8 * (off - 0x100)) 32
  else if 0x400 ≤ off ∧ off < 0x600 then bits (tget (konst ErrEntry.zero) s.errLast ((off - 0x400) / 32)).word (8 * (off % 32)) 32
  else if off = 8 then 0
  else s.r32 (cr 5 off)

/-- A job that has started and not completed. -/
def Job.running (j : Job) : Bool := j.start.isSome && j.done.isNone

/-- The running job of queue q with one of the opcodes, and its index. -/
def State.runningJob (s : State) (q : Nat) (ops : List Nat) : Option (Nat × Job) :=
  match (s.queue q).jobs.findIdx? (fun j => j.running && ops.contains j.op) with
  | some i => ((s.queue q).jobs[i]?).map (fun j => (i, j))
  | none => none

/-- The partition of a queue's jobs: its lowest quadrant (R286). -/
def State.jobPart (s : State) (q : Nat) : Nat := (s.partOf (s.queue q).part).headD (s.queue q).part

/-- The queue whose plane job or key load runs on partition p. -/
def State.planeQueue (s : State) (p : Nat) : Option Nat :=
  (s.host.queues.find? (fun e => s.jobPart e.1 == p && e.2.jobs.any (fun j => j.running && (j.op == 2 || j.op == 3 || j.op == 6)))).map (·.1)

/-- WQ_PJOBp: the program or plane job that runs on partition p. -/
def State.pjob (s : State) (p : Nat) : Nat :=
  match s.prog p with
  | some g => 2 ^ 31 + 2 ^ 16 + g.queue
  | none => match s.planeQueue p with
    | some q => 2 ^ 31 + (match s.runningJob q [2, 3, 6] with | some j => j.2.op | none => 0) * 2 ^ 16 + q
    | none => 0

/-- A 32-bit read of page WQ. -/
def wqRead (off : Nat) (s : State) : Nat := if off % 8 = 0 ∧ off < 0x20 then s.pjob (off / 8) else 0

/-- A 32-bit read of page SEC with its computed fields: SEC_LIFE, SEC_FUSE and SEC_XIDX. -/
def secRead (off : Nat) (s : State) : Nat :=
  if off = 0 then
    let m := (s.sec.life.foldl (fun x c => x + c.toNat % 2) 0, s.sec.life.foldl (fun x c => x + c.toNat / 2) 0)
    s.sec.svn * 65536 + b2n (decide (2 ≤ m.1)) + 2 * b2n (decide (2 ≤ m.2))
  else if off = 8 then
    Config.etx.toNat * 2 ^ 24 + Config.lanes.toNat * 65536 + Config.swing.toNat * 4096 + Config.rate.toNat * 1024 + Config.fioDrive.toNat * 256
  else if off = 0x40 then s.sec.next % 2 ^ 32
  else if off = 0x44 then s.sec.next / 2 ^ 32 % 256
  else if off = 0x38 ∨ off = 0x3c then 0
  else s.r32 (cr 3 off)

/-- ARR_PSTATp with QNE and SUSP; 0 where p names no partition. -/
def State.pstat (s : State) (p : Nat) : Nat :=
  let x := s.seq (s.driver p)
  if s.quads p = [] then s.r32 (cr 9 (0x300 + 8 * p))
  else s.r32 (cr 9 (0x300 + 8 * p)) + b2n (x.queue != [] || x.run.isSome) * 2 + b2n x.susp

/-- A 32-bit read of page ARR. -/
def arrRead (off : Nat) (s : State) : Nat := if 0x300 ≤ off ∧ off < 0x320 then s.pstat ((off - 0x300) / 8) else s.r32 (cr 9 off)

/-- The physical column that holds a logical column of a cluster (R178). -/
def State.physCol (s : State) (pc l : Nat) : Nat := tget colMap0 s.arr.colMap (pc * 288 + l)

/-- Array domain of a tile (R34). -/
def tileDomain (t : Nat) : Nat := t / 8 / 2 * 4 + t % 8 / 2

/-- LAMP_CDATA of the column that LAMP_CSEL selects (R191). While the domain has no power, and up to the
end of start-up, no column map is in force (R187), and it reads its reset value: no logical column (log entry 38). -/
def State.colData (s : State) : Nat :=
  let t := s.fld (cr 6 0x18) 19 6
  let cl := s.fld (cr 6 0x18) 12 7
  let col := s.fld (cr 6 0x18) 0 9
  if 66 ≤ cl ∨ 304 ≤ col then 0
  else if !s.domUp (tileDomain t) || decide (s.fld (cr 0 0x18) 0 3 ≤ 2) then 0x1FF * 2 ^ 16
  else
    let pc := t * 66 + cl
    let l := ((List.range 288).find? (fun l => s.physCol pc l == col)).getD 0x1FF
    b2n (tget (konst false) s.arr.colRet (pc * 304 + col)) * 2 ^ 31 + b2n (s.arr.migrations.any (fun g => g.pc == pc && g.q == col)) * 2 ^ 30
      + l * 2 ^ 16 + (tget (konst 0) s.arr.colCnt (pc * 304 + col)).toNat

/-- LAMP_STAT.SCFREE: spare clusters that answer for no logical cluster. -/
def State.freeClusters (s : State) : Nat := 128 - s.arr.subst.length

/-- LAMP_STAT with SWP, SCFREE and MIGA (R191). -/
def State.lampStat (s : State) : Nat :=
  let n := s.arr.migrations.length + s.arr.substs.length
  let v := setBits (setBits (s.r32 (cr 6 0x20)) 0 13 n) 16 8 s.freeClusters
  setBits v 29 1 (b2n (s.arr.migrations.any (·.ended) || s.arr.substs.any (·.ended)))

/-- The physical cluster that answers for cluster c of tile t (R185). -/
def State.physOf (s : State) (t c : Nat) : Nat := t * 66 + tget subst0 s.arr.subst (t * 64 + c)

/-- The logical cluster (tile × 64 + number) that a physical cluster answers for, if any. -/
def State.logicalOf (s : State) (pc : Nat) : Option Nat :=
  let t := pc / 66
  if pc % 66 < 64 then
    if s.physOf t (pc % 66) = pc then some (t * 64 + pc % 66) else none
  else (s.arr.subst.find? (fun e => e.1 / 64 == t && e.2 == pc % 66)).map (·.1)

/-- A cluster that a substitution has retired (R186). -/
def State.retired (s : State) (pc : Nat) : Bool := decide (pc % 66 < 64) && (s.logicalOf pc).isNone

/-- LAMP_COLFREE.FREE: free spare columns in clusters that are not retired. Every switch retires one column and takes one spare (R180). It falls at the switch, as
SCFREE does (log entry 43). -/
def State.freeColumns (s : State) : Nat :=
  67584 - 16 * s.arr.subst.length - (s.arr.colRet.filter (fun e => e.2 && !s.retired (e.1 / 304))).length

/-- A 32-bit read of page LAMP. -/
def lampRead32 (off : Nat) (s : State) : Nat := 
  if off = 0x1c then s.colData else if off = 0x20 then s.lampStat else if off = 0x24 then s.freeColumns else s.r32 (cr 6 off)

/-- SEQs_TREE of the partition that sequencer q drives (R138). A vendor routine's offers enter their tree within one command (log entry 9), so the counts of
results in flight stay at the largest that the register shows. -/
def State.treeStat (s : State) (q : Nat) : Nat :=
  match s.drives q with
  | none => 0
  | some p =>
    let t := s.trees p
    let part := fun (l : List Offer) => (l.filter (fun o => o.scope == 0)).length
    let dev := fun (tr : Bool) (l : List Offer) => (l.filter (fun o => o.scope == 1 || (o.scope == 2 && !(tr && s.bit (cr 0x34 0x10) 19)))).length
    let sys := fun (l : List Offer) => l.any (fun o => o.scope == 2) && s.bit (cr 0x34 0x10) 19
    min 12 (part t.wick) + min 24 (part t.count) * 2 ^ 4 + min 24 (part t.first) * 2 ^ 9 + min 64 (dev true t.wick) * 2 ^ 14 + b2n (decide (0 < dev true t.count)) * 2 ^ 21
      + b2n (decide (0 < dev false t.first)) * 2 ^ 22 + b2n (sys t.wick) * 2 ^ 23 + b2n (sys t.count) * 2 ^ 24

/-- The quadrant whose half-edge h of edge e lies along its device edge (R121). -/
def halfQuad (e h : Nat) : Nat := match e with | 0 => h | 1 => 2 * h + 1 | 2 => 2 + h | _ => 2 * h

/-- The half-edges of edge e that quadrants own (R121). -/
def ownedHalves (qs : List Nat) (e : Nat) : List Nat := (List.range 2).filter (fun h => qs.contains (halfQuad e h))

/-- SEQs_EDGEQ: the vectors held for each edge, the lower count of two half-edges (R138). -/
def State.edgeQ (s : State) (q : Nat) : Nat :=
  match s.drives q with
  | none => 0
  | some p =>
    (List.range 4).foldl (fun v e =>
      let hs := (ownedHalves (s.quads p) e).map (fun h => (s.half e h).rxEv.length)
      v + (match hs with | [] => 0 | n :: ns => ns.foldl min n) * 2 ^ (7 * e)) 0

/-- SR.RB of a core: a tree result of its partition has been offered and has not landed (R199). -/
def State.rb (s : State) (c : Nat) : Bool :=
  match s.drives c with
  | some p => c < 5 && s.trees p != Trees.none
  | none => false

/-- SEQs_SR with its computed bits MB, DB, RB and AB (R199). -/
def State.srOf (s : State) (c : Nat) : Nat :=
  let k := s.core c
  setBits k.sr.toNat 28 4 (b2n (k.muls != []) * 8 + b2n k.div.isSome * 4 + b2n (s.rb c) * 2 + b2n (s.ab c))

/-- A 32-bit read of a sequencer page. -/
def seqRead (q off : Nat) (s : State) : Nat :=
  if off = 0 then s.srOf q
  else if off = 0x38 then setBits (s.r32 (sq q 0x38)) 31 1 (b2n ((s.core q).run == .halted))
  else if off = 0x858 then 0
  else if off = 0x880 then s.treeStat q
  else if off = 0x888 then s.edgeQ q
  else s.r32 (sq q off)

/-- A 32-bit read of page MAINT. -/
def maintRead (off : Nat) (s : State) : Nat := if off = 0 then s.maintRun else s.r32 (cr 7 off)

/-- A 32-bit read of page BANKb: NEXT shows the row tested next. -/
def bankRead (b off : Nat) (s : State) : Nat := if off = 8 then setBits (s.r32 (bk b 8)) 0 2 0 else if off = 0x20 then setBits (s.r32 (bk b 0x20)) 16 11 (s.dueRow b) else s.r32 (bk b off)

/-- A 32-bit read of a register of a listed page. -/
def pageRead32 (p off : Nat) (s : State) : Nat :=
  if pageIn p 0x10 5 then seqRead (p - 0x10) off s
  else if pageIn p 0x18 6 then icuRead (p - 0x18) off s
  else if pageIn p 0x20 4 then ctRead (p - 0x20) off s
  else if pageIn p 0x30 4 then seamRead (p - 0x30) off s
  else if pageIn p 0x100 64 then bankRead (p - 0x100) off s
  else match p with
    | 0 => if off = 0x20 then 0 else s.r32 (cr 0 off)
    | 1 => if off = 8 then s.fld (cr 1 8) 0 5 else s.r32 (cr 1 off)
    | 3 => secRead off s
    | 4 => nvmRead off s
    | 5 => errRead off s
    | 6 => lampRead32 off s
    | 7 => maintRead off s
    | 8 => powerRead off s
    | 9 => arrRead off s
    | 0x34 => srtRead off s
    | 0x38 => hostRead off s
    | 0x39 => wqRead off s
    | 0x40 => ringRead off s
    | 0x48 => if off = 8 then 0 else s.r32 (fb off)
    | 0x4c => mgeRead off s
    | _ => s.r32 (cr p off)

/-- A 32-bit word of a listed page: an offset that no register occupies reads as 0 (R17). -/
def pageWord (p off : Nat) (s : State) : Nat := if occupied p off then pageRead32 p off s else 0

/-- A register of page TIME. -/
def tm (off : Nat) : Nat := cr 2 off

/-- A read of n bytes of page TIME: a 64-bit read of TIME_NOW captures the fraction (R367). -/
def timeRead (off n : Nat) (s : State) : Nat × State :=
  if off = 0 ∧ n = 8 then (s.now.toNat, s.setR32 (tm 8) s.frac.toNat)
  else if off = 0 then (s.now.toNat % 2 ^ 32, s)
  else if off = 4 then (s.now.toNat / 2 ^ 32, s)
  else if 0x20 ≤ off ∧ off < 0x28 then (0, s)
  else (if n = 8 then s.r64 (tm off) else s.r32 (tm off), s)

/-- A read of n bytes, 4 or 8; a read of TIME_NOW captures the fraction (R367). -/
def pageRead (p off n : Nat) (s : State) : Nat × State :=
  if p = 2 then timeRead off n s
  else (pageWord p off s + (if n = 8 then 2 ^ 32 * pageWord p (off + 4) s else 0), s)

/-- A control-space address of n bytes that R32 accepts. -/
def ctlOk (a n : Nat) : Bool := (n == 4 || n == 8) && a % n == 0 && pageListed ((a - 0x4200000000) / 65536)

/-- What the target of a read answers (R17, R28–R33). -/
def targetRead (i : Initiator) (a n : Nat) (s : State) : RStat × List Byte × State :=
  if inControl a then
    if ctlOk a n then let x := pageRead ((a - 0x4200000000) / 65536) (a % 65536) n s; (.ok, toBytes n x.1, x.2) else unmappedRead a n s
  else devRead i a n s

/-- Whether initiator i is the core that ICUn serves, or the management core (R239). -/
def mayIcu (i : Initiator) (n : Nat) : Bool := match i with | .core c => c.val == n || c.val == 5 | _ => false

/-- Writers of the chapter-04 registers of sequencer q: its scalar core and the management core (R119). -/
def maySeq (i : Initiator) (q : Nat) : Bool := match i with | .core c => c.val == q || c.val == 5 | _ => false

/-- Who may write the registers of CTk and MCk (R162). -/
def mayEngine (i : Initiator) (k : Nat) (s : State) : Bool :=
  i == .mgmt || i == .hostBlock || (match i with | .core c => c.val == s.driver ((s.partOf k).headD k) | _ => false)

/-- A register of a sequencer page that no rule keeps from any initiator, being RO to all: a write of it is discarded (R15, R119, R193). -/
def seqRo (off : Nat) : Bool := off == 0 || (decide (0x800 ≤ off) && decide (off < 0x840)) || off == 0x854 || decide (0x880 ≤ off)

/-- Initiator i is a core. -/
def byCore : Initiator → Bool
  | .core _ => true
  | _ => false

/-- SEC_ALARM, SEC_POL, SEC_STAT, SEC_SNUF. -/
def secAlarm : Nat := cr 3 0x10

@[inherit_doc secAlarm] def secSnuf : Nat := cr 3 0x30

/-- Whether the register word at an offset takes a write of initiator i; any other is an unmapped write (R29): of page HOST the management core writes the two
selects and HOST_EVT, and no one anything else (R278). A register that is RO to every initiator, and
for which no rule names who may write it, discards the write (R15). -/
def accepts (i : Initiator) (p off : Nat) (s : State) : Bool :=
  if pageIn p 0x10 5 then
    if off = 0x20 then i == .mgmt || i == .core (Fin.ofNat 6 (p - 0x10))
    else if off = 0x28 ∨ off = 0x30 ∨ off = 0x34 ∨ off = 0x38 then i == .mgmt
    else if off = 0x3c then false
    else if seqRo off then true
    else maySeq i (p - 0x10)
  else if pageIn p 0x18 6 then (if off = 0x10 then byCore i else mayIcu i (p - 0x18))
  else if pageIn p 0x20 4 then off != 0x14 && mayEngine i (p - 0x20) s
  else if pageIn p 0x24 4 then decide (8 ≤ off) && mayEngine i (p - 0x24) s
  else if pageIn p 0x100 64 then (if off = 0 ∨ off = 8 then mayPower i (p - 0x100) s else off != 0x18 && i == .mgmt)
  else if p = 9 then
    if 0x200 ≤ off ∧ off < 0x220 then i == .mgmt || i == .pilot
    else if 0x300 ≤ off ∧ off < 0x320 then
      let k := (off - 0x300) / 8
      i == .mgmt || (s.quads k != [] && i == .core (Fin.ofNat 6 (s.driver k)))
    else i == .mgmt
  else if p = 0x34 ∧ 0x30 ≤ off ∧ off < 0x40 then byCore i
  else if p = 3 then i == .mgmt && decide (0x10 ≤ off) && !(decide (0x40 ≤ off) && decide (off < 0x100)) && !(decide (0x100 ≤ off) && s.bit secSnuf 30)
  else if p = 0x38 then i == .mgmt && [0x10, 0x1000, 0x1100].contains (off / 8 * 8)
  else if p = 0x39 then true
  else i == .mgmt

/-- The offsets of the register words that a write of n bytes meets. -/
def wordsAt (p off n : Nat) : List Nat := ((if n = 8 then [off, off + 4] else [off])).filter (occupied p)

/-- Whether a write of n bytes is one that the page takes (R17, R29). -/
def pageTakes (i : Initiator) (p off n : Nat) (s : State) : Bool := (wordsAt p off n).all (fun o => accepts i p o s)

/-- A 64-bit register begins at the offset. -/
def wideAt (p off : Nat) : Bool := match regAt (cr p off) with | some (d, w) => d.wide && w == 0 | none => false

/-- A 32-bit write of page BANKb. -/
def bankWrite (i : Initiator) (b off v : Nat) (s : State) : State :=
  if off = 0 then ownerWrite i b v s
  else if off = 8 then pwrWrite i b v s
  else if i = .mgmt then s.plainWrite32 (bk b off) v
  else s.reportUnmapped (0x4200000000 + bk b off)

/-- A write by an engine, or by the host block for a COPY: of the registers that these initiators may write a bank's power commands take effect here (R248); a
COPY reaches no control page (R290). -/
def unitPut (i : Initiator) (a : Nat) (v : List Byte) (s : State) : RStat × State :=
  if inControl a then
    let p := (a - 0x4200000000) / 65536
    let off := a % 65536
    if ctlOk a v.length && pageTakes i p off v.length s then
      (.ok, when (pageIn p 0x100 64) (each (wordsAt p off v.length) (fun o => bankWrite i (p - 0x100) o (bits (ofBytes v) (8 * (o - off)) 32))) s)
    else (.unmapped, s.reportUnmapped a)
  else devWrite i a v s

end Sys2Proof.Machine
end

