-- ==== Sys2Proof/Machine/Rows.lean ====
section
/-! DEFINITION. Plane rows of the partitions: reading through the corrector, writing, counting corrections (R46–R49, R165–R175). -/
namespace Sys2Proof.Machine

/-- Key of a stored row's error vector: physical cluster and row; row 4,096 is the shadow row. -/
def rowKey (pc row : Nat) : Nat := pc * 8192 + row

/-- The shadow row's number in `rowErr`. -/
def shadowRow : Nat := 4096

/-- Quadrant of a tile (Table SYS-1). -/
def tileQuad (t : Nat) : Nat := t / 8 / 4 * 2 + t % 8 / 4

/-- The plane that has the 256 bits of v in logical cluster lc (tile × 64 + number) and 0 elsewhere (R164). -/
def clusterPlane (lc v : Nat) : Plane :=
  let cx := lc / 64 % 8 * 8 + lc % 64 % 8
  let cy := lc / 64 / 8 * 8 + lc % 64 / 8
  BitVec.ofNat _ ((List.range 16).foldl (fun acc i => acc + v / 2 ^ (16 * i) % 65536 * 2 ^ ((16 * cy + i) * 1024 + 16 * cx)) 0)

/-- The 256 bits of logical cluster lc in a plane. -/
def clusterBits (lc : Nat) (p : Plane) : Nat :=
  let cx := lc / 64 % 8 * 8 + lc % 64 % 8
  let cy := lc / 64 / 8 * 8 + lc % 64 / 8
  (List.range 16).foldl (fun acc i => acc + p.toNat / 2 ^ ((16 * cy + i) * 1024 + 16 * cx) % 65536 * 2 ^ (16 * i)) 0

/-- A plane of array memory. -/
def State.plane (s : State) (a : Nat) : Plane := tget (konst 0) s.arr.mem a

/-- The plane at bit address a replaced. -/
def State.setPlane (s : State) (a : Nat) (v : Plane) : State := s.modArr (fun r => { r with mem := tset (konst 0) r.mem a v })

/-- The error vector of a stored row. -/
def State.err (s : State) (pc row : Nat) : BitVec 288 := tget (konst 0) s.arr.rowErr (rowKey pc row)

/-- The error vector replaced. -/
def State.setErr (s : State) (pc row : Nat) (e : BitVec 288) : State :=
  s.modArr (fun r => { r with rowErr := tset (konst 0) r.rowErr (rowKey pc row) e })

/-- PWR_DSTATd.TJ, milli-degrees (R372). -/
def State.tj (s : State) (d : Nat) : Int := signed 32 (s.fld (cr 8 (0x300 + 8 * d)) 32 32)

/-- PWR_DSTATd.VSET, microvolts. -/
def State.vset (s : State) (d : Nat) : Nat := s.fld (cr 8 (0x300 + 8 * d)) 12 20

/-- The retirement threshold θ of a cluster (R175). -/
def State.theta (s : State) (pc : Nat) : Nat :=
  let d := tileDomain (pc / 66)
  let thr := cr 6 8
  s.fld thr 0 12 + s.fld thr 12 8 * ((max 0 (s.tj d - 85000)).toNat / 5000) + s.fld thr 20 8 * ((720000 - s.vset d) / 10000)

-- Spares (R177, R183, R186)

/-- Free spare columns of a physical cluster, lowest first (R177). -/
def State.freeCols (s : State) (pc : Nat) : List Nat :=
  ((List.range 16).map (· + 288)).filter (fun c => !tget (konst false) s.arr.colRet (pc * 304 + c)
    && !s.arr.colMap.any (fun e => e.1 / 288 == pc && e.2 == c) && !s.arr.migrations.any (fun g => g.pc == pc && g.q == c))

/-- The spare cluster a substitution in a tile would take: 64, else 65 (R183). -/
def State.freeCluster (s : State) (t : Nat) : Option Nat :=
  [64, 65].find? (fun c => !s.arr.subst.any (fun e => e.1 / 64 == t && e.2 == c) && !s.arr.substs.any (fun g => g.tile == t && g.target == c))

/-- A substitution of the logical cluster that a physical cluster answers for is possible (R183, R186). -/
def State.canSubst (s : State) (pc : Nat) : Bool := decide (pc % 66 < 64) && (s.logicalOf pc).isSome && (s.freeCluster (pc / 66)).isSome && s.bit (cr 6 0) 2

/-- A repair event of the array repair class: DETAIL LAMP_CSEL and LAMP_STAT (Table LIFE-5). -/
def repairReport (sev : Nat) (s : State) : State := s.reportN 4 sev 6 (s.r32 (cr 6 0x18)) s.lampStat

/-- SPARES_EXHAUSTED: cluster pc needs a spare for a column, or for itself (304), and there is none: EXH is set and logged, once for each need, and the device
degrades (R186, R383). -/
def sparesExhausted (pc col : Nat) (s : State) : State :=
  if s.arr.exh.contains (pc, col) then s
  else degrade 18 (repairReport 2 ((s.modArr (fun a => { a with exh := a.exh ++ [(pc, col)] })).setB (cr 6 0x20) 30))

/-- A substitution of the logical cluster that a physical cluster answers for is in progress. -/
def State.leaving (s : State) (pc : Nat) : Bool := s.arr.substs.any (fun g => s.physOf g.tile g.cl == pc)

/-- A candidate column of a cluster without a free spare column: with no substitution possible or under way, the spares are exhausted (R186). A switched-off
migration looks for none (R176). -/
def needColumn (pc col : Nat) (s : State) : State :=
  if !s.bit (cr 6 0) 1 || s.freeCols pc != [] || s.canSubst pc || s.leaving pc then s else sparesExhausted pc col s

/-- A cluster that is to be substituted, where that is not possible nor under way (R186). -/
def needCluster (pc : Nat) (s : State) : State := if s.canSubst pc || s.leaving pc then s else sparesExhausted pc 304 s

/-- A correction counted against one physical column, which becomes a candidate at θ (R174, R175). -/
def countColumn (pc col : Nat) (s : State) : State :=
  if tget (konst false) s.arr.colRet (pc * 304 + col) then s
  else
    let n := min 65535 ((tget (konst 0) s.arr.colCnt (pc * 304 + col)).toNat + 1)
    let s1 := s.modArr (fun r => { r with colCnt := tset (konst 0) r.colCnt (pc * 304 + col) (BitVec.ofNat 16 n) })
    if s.theta pc ≤ n ∧ ¬ s.arr.candidates.contains (pc, col) then
      needColumn pc col (s1.modArr (fun r => { r with candidates := r.candidates ++ [(pc, col)] }))
    else s1

/-- A correction counted against every column that holds a bit of the error value (R174). Columns that become candidates at one correction do so by rising
logical column (R176; log entry 43). -/
def countFix (pc : Nat) (e : BitVec 288) (s : State) : State :=
  each ((List.range 288).filter (fun l => e.getLsbD l)) (fun l s => countColumn pc (s.physCol pc l) s) s

/-- The spare clusters that mirror a physical cluster (R184). -/
def State.mirrors (s : State) (pc : Nat) : List Nat :=
  (s.arr.substs.filter (fun g => s.physOf g.tile g.cl == pc)).map (fun g => g.tile * 66 + g.target)

/-- A write of row r has reached a set of physical clusters: the copy writes of that row are cancelled (R178, R184). -/
def cancelCopies (row : Nat) (hit : Nat → Bool) (s : State) : State :=
  s.modArr (fun r => { r with
    migrations := r.migrations.map (fun g => if g.copy = some row ∧ hit g.pc = true then { g with copy := none } else g)
    substs := r.substs.map (fun g => if g.copy = some row ∧ hit (s.physOf g.tile g.cl) = true then { g with copy := none } else g) })

/-- A pending write-back of a row is cancelled (R173). -/
def cancelWriteBack (pc row : Nat) (s : State) : State :=
  s.modArr (fun r => { r with writeBacks := r.writeBacks.filter (· != (pc, row)) })

/-- The stored row takes the corrector's value, and a spare that mirrors the cluster takes it too: what remains of the error is a codeword and becomes
data (R166, R168, R184). With e = 0 nothing is written: a row with no syndrome is the data it holds. -/
def writeBackRow (pc row : Nat) (e : BitVec 288) (s : State) : State :=
  let rest := s.err pc row ^^^ e
  let ms := s.mirrors pc
  let s0 := each ms (fun m s => if e = 0 then s.setErr m row (s.err m row ^^^ rest) else cancelWriteBack m row (s.setErr m row 0)) s
  let s1 := (if e = 0 then s0 else cancelCopies row (fun c => c == pc || ms.contains c) s0).setErr pc row 0
  match s.logicalOf pc with
  | none => s1
  | some lc =>
    let flip := clusterPlane lc (rest.toNat % 2 ^ 256)
    if row = shadowRow then s1.modArr (fun r => { r with sh := r.sh ^^^ flip }) else s1.setPlane row (s1.plane row ^^^ flip)

/-- An uncorrectable row is recorded in LAMP_UEREC, LAMP_STAT and the error log (R170); src as LAMP_UEREC.SRC. The second in a window needs a substitution
(R183, R186). -/
def recordUe (pc row src upc : Nat) (s : State) : State :=
  let r := cr 6 0x28
  let old := s.r32 r
  let ovf := if s.bit r 31 then 1 else bits old 30 1
  let v := 2 ^ 31 + ovf * 2 ^ 30 + pc / 66 * 2 ^ 24 + pc % 66 * 2 ^ 17 + src * 2 ^ 14 + row % 4096
  let s1 := ((s.setR32 r v).setB (cr 6 0x20) 31).reportN 3 1 6 v upc
  let l := tget (konst []) s.arr.ueWin pc
  if l.contains row then s1
  else when (l.length == 1) (needCluster pc) (s1.modArr (fun a => { a with ueWin := tset (konst []) a.ueWin pc (l ++ [row]) }))

/-- What a port read gives: the bits as the PEs use them, whether a row was uncorrectable, and the state after the correction. -/
structure PortRead where
  bits : Plane
  bad : Bool
  st : State

/-- One bad row met by a port: corrected, counted and written back, or recorded uncorrectable and used as read (R168–R170). -/
def fixRow (row src upc : Nat) (r : PortRead) (pcErr : Nat × BitVec 288) : PortRead :=
  let pc := pcErr.1
  match decodeRow pcErr.2 with
  | .uncorrectable =>
    let flip := match r.st.logicalOf pc with | some lc => clusterPlane lc (pcErr.2.toNat % 2 ^ 256) | none => 0
    { bits := r.bits ^^^ flip, bad := true, st := recordUe pc row src upc r.st }
  | .fix e =>
    let flip := match r.st.logicalOf pc with | some lc => clusterPlane lc ((pcErr.2 ^^^ e).toNat % 2 ^ 256) | none => 0
    { bits := r.bits ^^^ flip, bad := r.bad, st := cancelWriteBack pc row (writeBackRow pc row e (countFix pc e r.st)) }
  | .clean =>
    let flip := match r.st.logicalOf pc with | some lc => clusterPlane lc (pcErr.2.toNat % 2 ^ 256) | none => 0
    { bits := r.bits ^^^ flip, bad := r.bad, st := writeBackRow pc row 0 r.st }

/-- The rows at an address that are stored wrong in clusters in service of some quadrants. -/
def State.badRows (s : State) (qs : List Nat) (row : Nat) : List (Nat × BitVec 288) :=
  (s.arr.rowErr.filter (fun e => e.1 % 8192 == row && qs.contains (tileQuad (e.1 / 8192 / 66)) && (s.logicalOf (e.1 / 8192)).isSome)).map
    (fun e => (e.1 / 8192, e.2))

/-- A port reads the row at an address in every cluster of the partition (R46, R167–R170). -/
def portRead (s : State) (qs : List Nat) (row src upc : Nat) : PortRead :=
  (s.badRows qs row).foldl (fixRow row src upc) ⟨s.plane row, false, s⟩

/-- A physical cluster that rows of the partition are written in: in service, or the target of a substitution in progress (R184). -/
def State.written (s : State) (qs : List Nat) (pc : Nat) : Bool :=
  qs.contains (tileQuad (pc / 66)) && ((s.logicalOf pc).isSome || s.arr.substs.any (fun g => g.tile * 66 + g.target == pc))

/-- A whole row written in every cluster that rows of the partition are written in: fresh check symbols, pending write-backs and copy writes of the
row cancelled there (R47, R173, R178). -/
def writeRow (qs : List Nat) (row : Nat) (v : Plane) (s : State) : State :=
  let m := quadsPlane qs
  let s1 := s.setPlane row ((s.plane row &&& ~~~m) ||| (v &&& m))
  cancelCopies row (s.written qs) (s1.modArr (fun r => { r with
    rowErr := r.rowErr.filter (fun e => !(e.1 % 8192 == row && s.written qs (e.1 / 8192)))
    writeBacks := r.writeBacks.filter (fun w => !(w.2 == row && s.written qs w.1)) }))

end Sys2Proof.Machine
end

