-- ==== Sys2Proof/Machine/Transfer.lean ====
section
/-! DEFINITION. A plane transfer's passes and presentations, its end, and what a swap means to it (R152–R160). -/
namespace Sys2Proof.Machine

/-- The transfer of the partition named p, if one runs. -/
def State.xfer (s : State) (p : Nat) : Option Transfer := tget (konst none) s.arr.transfers p

/-- The transfer replaced. -/
def State.setXfer (s : State) (p : Nat) (t : Option Transfer) : State :=
  s.modArr (fun r => { r with transfers := tset (konst none) r.transfers p t })

/-- A transfer changed. -/
def State.modXfer (s : State) (p : Nat) (f : Transfer → Transfer) : State := s.setXfer p ((s.xfer p).map f)

/-- Clusters of a partition marked ready, or not (R58). -/
def State.markReady (s : State) (qs : List Nat) (r : Bool) : State :=
  s.modArr (fun a => { a with ready := if r then a.ready ||| quadsClusters qs else a.ready &&& ~~~(quadsClusters qs) })

/-- Every cluster of the quadrants reports its shadow row ready (R58). -/
def State.allReady (s : State) (qs : List Nat) : Bool := s.arr.ready &&& quadsClusters qs == quadsClusters qs

/-- The quadrants of p as a set of engines. -/
def quadSet (qs : List Nat) : BitVec 4 := qs.foldl (fun m q => m ||| BitVec.ofNat 4 (2 ^ q)) 0

/-- TRANSFER_END (R160, R163): every engine of the partition shows STATE and CODE, its shadow rows are not ready, and its completion
source pulses. -/
def transferEnd (p code : Nat) (s : State) : State :=
  let qs := s.quads p
  let s1 := (s.setXfer p none).markReady qs false
  each qs (fun k s => ((s.setF (ct k 0x10) 20 4 code).setF (ct k 0x10) 18 2 (if code = 0 then 2 else 3)).pulse (8 + k)) s1

/-- The number of the first presentation of each pass: entries in order while the sum of DLEN stays at or below 512 (R152). -/
def passStarts : List MapEntry → Nat → Nat → List Nat
  | [], _, _ => []
  | e :: es, start, len =>
    if len = 0 then start :: passStarts es start e.dlen
    else if len + e.dlen ≤ 512 then passStarts es start (len + e.dlen)
    else (start + len) :: passStarts es (start + len) e.dlen

/-- P, the number of presentations (R152). -/
def Transfer.total (t : Transfer) : Nat := t.map.foldl (fun n e => n + e.dlen) 0

/-- The first presentation of pass w; P beyond the last. -/
def Transfer.passStart (t : Transfer) (w : Nat) : Nat := (passStarts t.map 0 0).getD w t.total

/-- The number of passes. -/
def Transfer.passes (t : Transfer) : Nat := (passStarts t.map 0 0).length

/-- The map entry and bit of presentation j (R152). -/
def presEntry : List MapEntry → Nat → Option (MapEntry × Nat)
  | [], _ => none
  | e :: es, j => if j < e.dlen then some (e, j) else presEntry es (j - e.dlen)

/-- The bit address of presentation j. -/
def Transfer.addr (t : Transfer) (j : Nat) : BitVec 12 :=
  match presEntry t.map j with
  | some (e, k) => e.daddr + BitVec.ofNat 12 k
  | none => 0

/-- CTk_PROG.DONE of every engine of the partition. -/
def setProg (qs : List Nat) (n : Nat) (s : State) : State := each qs (fun k s => s.setF (ct k 0x14) 0 13 n) s

/-- A swap at address wa was made in partition p: it is the swap of the current presentation (R155–R158). -/
def swapAccount (p : Nat) (wa : BitVec 12) (s : State) : State :=
  let qs := s.quads p
  match (s.xfer p).filter (fun t => !t.ending) with
  | none => s
  | some t =>
    if t.out then
      match t.restore with
      | some _ => s.setXfer p (some { t with restore := none, mark := quadSet qs })
      | none => s.setXfer p (some { t with capture := quadSet qs, restore := if t.keep then some wa else none })
    else
      let n := t.pres + 1
      let s1 := setProg qs n (s.setXfer p (some { t with pres := n }))
      match t.fail with
      | some (w, code) => if n = t.passStart w then transferEnd p code s1 else s1
      | none => if n = t.total then transferEnd p 0 s1 else s1

end Sys2Proof.Machine
end

