-- ==== Sys2Proof/Machine/Pe.lean ====
section
/-! DEFINITION. One array cycle of a partition: tables, ports, loads, neighbour moves, seam vectors, swaps and offers (R37–R59, R120–R131). -/
namespace Sys2Proof.Machine

/-- A destination: none, f or g (R39). -/
inductive Dst where
  | none | f | g
  deriving DecidableEq, Repr

/-- The x input (Table PE-2). -/
inductive XSrc where
  | x | d | n | e | k
  deriving DecidableEq, Repr

/-- The tree source (Table PE-2). -/
inductive RSrc where
  | none | f | g | k | e
  deriving DecidableEq, Repr

/-- How K combines with the result (R41). -/
inductive KMode where
  | load | and | or
  deriving DecidableEq, Repr

/-- The controls of one issued microword (Table PE-2), with its address and tree fields resolved. -/
structure Ctl where
  ra : BitVec 12 := 0
  wa : BitVec 12 := 0
  /-- `some β` when ASRC = BCAST -/
  bcast : Option Bool := none
  xsrc : XSrc := .x
  tf : Byte := 0
  tg : Byte := 0
  mdst : Dst := .none
  xdst : Dst := .none
  cdst : Dst := .none
  edst : Dst := .none
  eor : Bool := false
  kdst : Dst := .none
  kmode : KMode := .load
  nout : Dst := .none
  /-- 0 N1, 1 E1, 2 S1, 3 W1, 4 N16, 5 E16, 6 S16, 7 W16 -/
  ndir : BitVec 3 := 0
  rsrc : RSrc := .none
  u : Bool := false
  swap : Bool := false
  kpl : Bool := false
  stx : BitVec 4 := 0
  srx : BitVec 4 := 0
  wen : Bool := false
  ten : Bool := false
  fen : Bool := false
  fclr : Bool := false
  scope : BitVec 2 := 0
  pos : BitVec 6 := 0
  fin : Bool := false
  /-- a user microword: seam acts as fill 0 (R117) -/
  user : Bool := false

/-- A truth table over planes: bit i of T where i = 4a + 2x + c (R38). -/
def table (t : Byte) (a x c : Plane) : Plane :=
  (List.range 8).foldl (fun acc i =>
    if t.getLsbD i then
      acc ||| ((if i / 4 % 2 = 1 then a else ~~~a) &&& (if i / 2 % 2 = 1 then x else ~~~x) &&& (if i % 2 = 1 then c else ~~~c))
    else acc) 0

/-- The selected result. -/
def Dst.sel (d : Dst) (f g : Plane) : Plane := match d with | .none => 0 | .f => f | .g => g

/-- A destination takes a result. -/
def Dst.on (d : Dst) : Bool := d != .none

/-- old outside m, new inside. -/
def merge (m old new : Plane) : Plane := (old &&& ~~~m) ||| (new &&& m)

/-- Whether edge e of the partition is a device edge. -/
def isDeviceEdge (qs : List Nat) (e : Nat) : Bool := ownedHalves qs e != []

/-- The mode that acts on edge e of partition p: 0 torus, 1 fill 0, 2 fill 1, 3 seam (Table REACH-1, R84, R117). -/
def State.edgeMode (s : State) (p e : Nat) (user : Bool) : Nat :=
  let m := bits (tget (konst 0x55) s.arr.edge p).toNat (2 * e) 2
  if m = 3 ∧ (user ∨ ¬ isDeviceEdge (s.quads p) e) then 1 else m


/-- The PE indices of half-edge h of edge e, in order along the edge (R121). -/
def edgePe (e h i : Nat) : Nat :=
  let j := 512 * h + i
  match e with | 0 => j | 1 => j * 1024 + 1023 | 2 => 1023 * 1024 + j | _ => j * 1024

/-- The edge vector that a plane drives on a half-edge (R122). -/
def edgeVector (e h : Nat) (p : Plane) : BitVec 512 :=
  BitVec.ofNat _ ((List.range 512).foldl (fun acc i => acc + b2n (p.getLsbD (edgePe e h i)) * 2 ^ i) 0)

/-- The plane that has a vector on the edge row of a half-edge (R123). -/
def vectorPlane (e h : Nat) (v : BitVec 512) : Plane :=
  BitVec.ofNat _ ((List.range 512).foldl (fun acc i => acc + b2n (v.getLsbD i) * 2 ^ edgePe e h i) 0)

/-- Whether a waiting flit may go on the wire as far as its credit allows; EV takes its credit when it is driven (R122, R303). -/
def Half.mayGo (h : Half) : Numbered → Bool
  | .ev _ => true
  | .red _ => decide (0 < h.crRed)
  | .msg vc1 _ _ _ => decide (0 < (if vc1 then h.crM1 else h.crM0))

/-- The rank of a flit in the order of R301. -/
def Numbered.rank : Numbered → Nat
  | .red _ => 0 | .ev _ => 1 | .msg _ _ _ _ => 2

/-- The index of the next flit to send: RED before EV before MSG, each in its order (R301). -/
def Half.pick (h : Half) : Option Nat :=
  match h.out.findIdx? (fun f => f.rank == 0 && h.mayGo f) with
  | some i => some i
  | none => match h.out.findIdx? (fun f => f.rank == 1) with
    | some i => some i
    | none => h.out.findIdx? (fun f => f.rank == 2 && h.mayGo f)

/-- A flit's credit is taken. -/
def Half.charge (h : Half) : Numbered → Half
  | .ev _ => h
  | .red _ => { h with crRed := h.crRed - 1 }
  | .msg vc1 _ _ _ => if vc1 then { h with crM1 := h.crM1 - 1 } else { h with crM0 := h.crM0 - 1 }

/-- A CTL goes before all else: a NAK is due, or 127 slots have passed since the last CTL (items 1 and 2 of R301). It goes at its own event, CTL_FLIT_DUE. -/
def Half.owesCtl (h : Half) : Bool := h.nakDue.isSome || decide (127 ≤ h.slots)

/-- The flit of the next slot that is no CTL: an LMF, a replayed flit, then a new numbered flit while the replay buffer has room (items 3–7 of R301, R302);
none where the half-edge is not UP, owes a CTL, or has nothing that may go. -/
def Half.slot (h : Half) : Option Half :=
  if h.link ≠ .up ∨ h.owesCtl then none
  else match h.lmf with
    | l :: ls => some ({ h with lmf := ls }.emit (lmfFlit l))
    | [] => match h.resend with
      | f :: fs => some ({ h with resend := fs }.emit (encodeFlit f.1 f.2.body))
      | [] =>
        if 256 ≤ h.replay.length then none
        else h.pick.bind (fun i => (h.out[i]?).map (fun f =>
          { (h.charge f) with out := h.out.eraseIdx i, replay := h.replay ++ [(h.nextSeq, f)], nextSeq := h.nextSeq + 1 }.emit (encodeFlit h.nextSeq f.body)))

/-- At most n flit slots. -/
def Half.pump : Nat → Half → Half
  | 0, h => h
  | n + 1, h => match h.slot with
    | some h' => Half.pump n h'
    | none => h

/-- The transmitter sends all it may (R301–R303). -/
def Half.flow (h : Half) : Half := Half.pump (h.lmf.length + h.resend.length + h.out.length) h

/-- A numbered flit is given to a half-edge's transmitter, which sends what it may. -/
def Half.send (h : Half) (f : Numbered) : Half := { h with out := h.out ++ [f] }.flow

/-- STX on edge e: one vector and one credit on each owned half-edge (R122). -/
def sendVectors (qs : List Nat) (drive : Plane) (e : Nat) (s : State) : State :=
  each (ownedHalves qs e) (fun h s => s.modHalf e h (fun x => { (x.send (.ev (edgeVector e h drive))) with crEv := x.crEv - 1 })) s

/-- SRX on edge e: the oldest vector of each owned half-edge removed (R123). -/
def takeVectors (qs : List Nat) (e : Nat) (s : State) : State :=
  each (ownedHalves qs e) (fun h s => s.modHalf e h (fun x => { x with rxEv := x.rxEv.tail, frEv := x.frEv + 1 })) s

/-- The bits that SRX brings to the edge row of e. -/
def State.received (s : State) (qs : List Nat) (e : Nat) : Plane :=
  (ownedHalves qs e).foldl (fun acc h => acc ||| vectorPlane e h ((s.half e h).rxEv.headD 0)) 0

/-- Columns x0 … x0+w−1 and rows y0 … y0+h−1. -/
def rect (x0 y0 w h : Nat) : Plane := BitVec.ofNat _ (colsMask x0 w &&& rowsMask y0 h)

/-- The N plane that a move loads in the partition of quadrants qs, at partition p (R44, R120). -/
def moved (s : State) (p : Nat) (qs : List Nat) (drive : Plane) (c : Ctl) : Plane :=
  let x0 := 512 * (p % 2)
  let y0 := 512 * (p / 2)
  let w := if qs.contains (p + 1) ∧ p % 2 = 0 then 1024 else 512
  let h := if qs.contains (p + 2) ∧ p / 2 = 0 then 1024 else 512
  let dist := if c.ndir.toNat < 4 then 1 else 16
  let e := c.ndir.toNat % 4
  -- the source of each PE lies `dist` towards edge e
  let step : Plane → Plane := fun v => match e with
    | 0 => v <<< (1024 * dist) | 1 => v >>> dist | 2 => v >>> (1024 * dist) | _ => v <<< dist
  let wrap : Plane → Plane := fun v => match e with
    | 0 => v >>> (1024 * (h - dist)) | 1 => v <<< (w - dist) | 2 => v <<< (1024 * (h - dist)) | _ => v >>> (w - dist)
  let rim : Plane := match e with
    | 0 => rect x0 y0 w dist | 1 => rect (x0 + w - dist) y0 dist h | 2 => rect x0 (y0 + h - dist) w dist | _ => rect x0 y0 dist h
  let outside : Plane := match s.edgeMode p e c.user with
    | 0 => wrap drive
    | 1 => 0
    | 2 => BitVec.allOnes _
    | _ => if dist = 1 ∧ c.srx.getLsbD e then s.received qs e else 0
  merge rim (step drive) outside

/-- The offer of a cycle added to the trees that take it (R126, R127, R130). No vendor routine makes a 65th unmatched device-scope offer; one that replaced
words make is kept like the others (R133; log entry 34). -/
def offer (p : Nat) (c : Ctl) (v : Plane) (s : State) : State :=
  let o : Offer := { scope := c.scope, exc := c.rsrc == .e, pos := c.pos, fin := c.fin, fclr := c.fen && c.fclr, bits := v, got := none, joined := false }
  let oF := { o with scope := if c.scope = 0 then 0 else 1 }
  let t := tget (konst Trees.none) s.arr.trees p
  let t' : Trees := ⟨if c.wen then t.wick ++ [o] else t.wick, if c.ten then t.count ++ [o] else t.count, if c.fen then t.first ++ [oF] else t.first⟩
  s.modArr (fun r => { r with trees := tset (konst Trees.none) r.trees p t' })

/-- ARR_KEYSEGp: base and length in effect (R83). -/
def State.keyBase (s : State) (p : Nat) : Nat := s.fld (cr 9 (0x200 + 8 * p)) 0 12
/-- ARR_KEYSEGp.LEN. -/
def State.keyLen (s : State) (p : Nat) : Nat := s.fld (cr 9 (0x200 + 8 * p)) 16 13
/-- Whether an address lies in the key segment in effect. -/
def State.inKey (s : State) (p a : Nat) : Bool := decide (s.keyBase p ≤ a) && decide (a < s.keyBase p + s.keyLen p)

/-- Zeroing of a row in every physical cluster of the quadrants, with its copies and write-backs cancelled (R95, R189). -/
def zeroRow (qs : List Nat) (row : Nat) (s : State) : State :=
  let m := quadsPlane qs
  let hit := fun (pc : Nat) => qs.contains (tileQuad (pc / 66))
  cancelCopies row hit ((s.setPlane row (s.plane row &&& ~~~m)).modArr (fun r => { r with
    rowErr := r.rowErr.filter (fun e => !(e.1 % 8192 == row && hit (e.1 / 8192)))
    writeBacks := r.writeBacks.filter (fun w => !(w.2 == row && hit w.1)) }))

/-- The swap of the shadow row with the row at wa, whose corrected contents are d; a mirroring spare takes the row that comes in as it is (R56, R184). -/
def swapRows (qs : List Nat) (wa : BitVec 12) (d : Plane) (s : State) : State :=
  let m := quadsPlane qs
  let a := s.arr
  let errs := (a.rowErr.filter (fun e => e.1 % 8192 == shadowRow && qs.contains (tileQuad (e.1 / 8192 / 66)) && (s.logicalOf (e.1 / 8192)).isSome))
  let s1 := writeRow qs wa.toNat a.sh s
  let s2 := each errs (fun e s => each (e.1 / 8192 :: s.mirrors (e.1 / 8192)) (fun pc s => s.setErr pc wa.toNat e.2) (s.setErr (e.1 / 8192) shadowRow 0)) s1
  (s2.modArr (fun r => { r with sh := merge m a.sh d })).markReady qs false

/-- The clears of a landed FCLR take effect in partition p, which is not stalled (R131). -/
def settleClear (p : Nat) (s : State) : State :=
  let v := tget (konst (0 : Plane)) s.arr.clr p
  if v = 0 then s else s.modArr (fun a => { a with k := a.k &&& ~~~v, clr := tset (konst 0) a.clr p 0 })

/-- What a cycle leaves: the state, and the port and address of an uncorrectable row (1 A port, 2 D port) (R111). -/
structure CycleEnd where
  st : State
  abort : Option (Nat × Nat)

/-- One array cycle of partition p under the controls c (R38–R57). `upc` is recorded with an uncorrectable row. A row read once for both ports (R49), and of two
rows uncorrectable at once the A port's, is the one recorded; a zeroing of a key row that takes the place of a swap reads nothing on the D port (R46, R95; log
entry 32). Where a port finds a row uncorrectable, the word writes no memory, nor zeroes a key row (Table MIC-8). A cycle is one in which the partition is not stalled, so the clears of a landed FCLR follow its own K update (R131). -/
def cycle (p : Nat) (c : Ctl) (upc : Nat) (s : State) : CycleEnd :=
  let qs := s.quads p
  let m := quadsPlane qs
  let kplHit := c.kpl && s.inKey p c.wa.toNat
  let mdst := if kplHit || c.swap then .none else c.mdst
  let swap := c.swap && !kplHit
  -- ports (R46, R49)
  let ra : PortRead := match c.bcast with
    | some b => ⟨if b then BitVec.allOnes _ else 0, false, s⟩
    | none => portRead s qs c.ra.toNat 0 upc
  let dReads := (mdst.on && !c.u) || c.xsrc == .d || swap
  let same := c.bcast == none && c.ra == c.wa
  let rd : PortRead :=
    if !dReads then ⟨0, false, ra.st⟩
    else if same then ra
    else portRead ra.st qs c.wa.toNat (if swap then 2 else 1) upc
  let bad := ra.bad || rd.bad
  let r := s.arr
  let x : Plane := match c.xsrc with | .x => r.x | .d => rd.bits | .n => r.n | .e => r.e | .k => r.k
  let f := table c.tf ra.bits x r.c
  let g := table c.tg ra.bits x r.c
  let en := if c.u then m else r.k &&& m
  -- memory (R47, R52, R59, R95)
  let s1 := rd.st
  let s2 :=
    if bad then s1
    else if kplHit then zeroRow qs c.wa.toNat s1
    else if swap then swapRows qs c.wa rd.bits s1
    else if mdst.on then writeRow qs c.wa.toNat (merge en rd.bits (mdst.sel f g)) s1
    else s1
  -- registers (R40–R42, R44)
  let drive := c.nout.sel f g
  let n' := if c.nout.on then merge m r.n (moved s p qs drive c) else r.n
  let e' := if c.edst.on then merge en r.e (if c.eor then r.e ||| c.edst.sel f g else c.edst.sel f g) else r.e
  let kr := c.kdst.sel f g
  let k' := if c.kdst.on then
      merge m r.k (match c.kmode with | .load => kr | .and => r.k &&& kr | .or => r.k ||| kr) else r.k
  let s3 := s2.modArr (fun a => { a with
    x := if c.xdst.on then merge en r.x (c.xdst.sel f g) else r.x
    c := if c.cdst.on then merge en r.c (c.cdst.sel f g) else r.c
    e := e', k := k', n := n' })
  -- seam vectors (R122, R123)
  let seamEdge := fun (b : BitVec 4) e => b.getLsbD e && s.edgeMode p e c.user == 3
  let s4 := each ((List.range 4).filter (seamEdge c.stx)) (sendVectors qs drive) s3
  let s5 := each ((List.range 4).filter (seamEdge c.srx)) (takeVectors qs) s4
  -- trees (R45, R96)
  let src : Plane := match c.rsrc with | .none => 0 | .f => f | .g => g | .k => r.k | .e => r.e
  let s6 := if c.wen || c.ten || c.fen then offer p c (src &&& en) s5 else s5
  let s7 := if swap && !bad then swapAccount p c.wa s6 else s6
  { st := settleClear p s7, abort := if ra.bad then some (1, c.ra.toNat) else if rd.bad then some (2, c.wa.toNat) else none }

end Sys2Proof.Machine
end

