-- ==== Sys2Proof/Machine/Vendor.lean ====
section
/-! DEFINITION. The vendor routines of array opcodes 0x01–0x70, as runs of array cycles in the order the catalogue gives (chapter 03). -/
namespace Sys2Proof.Machine

/-- Whether an opcode runs a user micro-routine (R82). -/
def isUser (op : Byte) : Bool := decide (0xE0 ≤ op.toNat)

/-- A routine under way: the state, the port and address that aborted it (R111), the microwords it has issued, and the μPC and failing groups of the word that
stalls it (R114). -/
structure Run where
  st : State
  ab : Option (Nat × Nat) := none
  cnt : Nat := 0
  bad : Option (Nat × Nat) := none
  /-- microwords of the present part that issued before such a stall, which are not issued again, and what they read, oldest first -/
  skip : Nat := 0
  old : List Plane := []
  /-- the microword passed last has been issued now -/
  live : Bool := true
  /-- the planes read in the present part, newest first -/
  seen : List Plane := []

/-- The words stored for the routine of instruction q that differ from those loaded: the management core has replaced them, or their parity fails (R86, R114). -/
def State.altered (s : State) (p : Nat) (q : QEntry) : List (Nat × BitVec 165) :=
  if isUser q.op then []
  else s.micro.filter (fun e => e.1 / 32768 == s.driver p && !inUser (e.1 % 32768) && Config.inRoutine q.op.toNat q.n (e.1 % 32768))

/-- The word at a μPC of the routine of instruction q, where its parity fails: the μPC and the failing groups (R114). -/
def State.badFetch (s : State) (p : Nat) (q : QEntry) (upc : Nat) : Option (Nat × Nat) :=
  ((s.altered p q).find? (fun e => e.1 % 32768 == upc && badGroups e.2.toNat != 0)).map (fun e => (upc, badGroups e.2.toNat))

/-- The routine has aborted or stalled: no further microword issues (R112, R114). -/
def Run.stops (r : Run) : Bool := r.ab.isSome || r.bad.isSome

/-- The next microword of a vendor routine is fetched: it has issued before a stall, its parity fails, or it issues (R114). -/
def fetchWord {α : Type} (p : Nat) (q : QEntry) (stop : α) (again issue_ : Run → α × Run) (r : Run) : α × Run :=
  if r.stops then (stop, r)
  else if 0 < r.skip then again { r with skip := r.skip - 1, cnt := r.cnt + 1, live := false }
  else match r.st.badFetch p q (vupc q r.cnt) with
    | some b => (stop, { r with bad := some b })
    | none => issue_ { r with live := true }

/-- A truth table from its function of a, x and c (R38). -/
def tt (f : Bool → Bool → Bool → Bool) : Byte :=
  BitVec.ofNat 8 ((List.range 8).foldl (fun n i => n + b2n (f (i / 4 % 2 == 1) (i / 2 % 2 == 1) (i % 2 == 1)) * 2 ^ i) 0)

/-- Majority of three. -/
def maj (a b c : Bool) : Bool := (a && b) || (a && c) || (b && c)

-- Tables of Table PE-3, and those formed in the same way
def ttZero : Byte := 0x00
def ttOne : Byte := 0xFF
def ttA : Byte := 0xF0
def ttX : Byte := 0xCC
def ttC : Byte := 0xAA
def ttNotA : Byte := 0x0F
def ttNotC : Byte := 0x55
def ttSum : Byte := 0x96
def ttCarry : Byte := 0xE8
def ttAddOvf : Byte := 0x42
def ttDiff : Byte := 0x69
def ttBorrow : Byte := 0x8E
def ttSubOvf : Byte := 0x24
def ttMismatch : Byte := 0xBE
/-- a − x: borrow chain, overflow -/
def ttBorrowA : Byte := tt (fun a x c => maj a (!x) c)
def ttSubOvfA : Byte := tt (fun a x c => maj a (!x) c != c)

/-- The k-th microword's loop, k = 0 … n − 1, in rising order. -/
def rising (n : Nat) (f : Nat → Run → Run) (r : Run) : Run := (List.range n).foldl (fun r k => f k r) r

/-- The same in falling order. -/
def falling (n : Nat) (f : Nat → Run → Run) (r : Run) : Run := (List.range n).foldl (fun r k => f (n - 1 - k) r) r

/-- Address a + k, modulo 4,096 (R50). -/
def at_ (a : BitVec 12) (k : Nat) : BitVec 12 := a + BitVec.ofNat 12 k

/-- Bit k of β. -/
def QEntry.beta_ (q : QEntry) (k : Nat) : Bool := q.beta.getLsbD k

/-- Whether the mode's writes take place in every PE (Table AOP-2). -/
def QEntry.all (q : QEntry) : Bool := q.mode == 0 || q.mode == 3 || q.mode == 4

/-- Modifier S. -/
def QEntry.sgn (q : QEntry) : Bool := q.mod.getLsbD 7
/-- Modifier T. -/
def QEntry.sat (q : QEntry) : Bool := q.mod.getLsbD 6
/-- Modifier RED. -/
def QEntry.red (q : QEntry) : Bool := q.mod.getLsbD 1

/-- A microword whose A port does not read: ASRC = BCAST (R43, the dashes of Tables PE-4 to PE-6). -/
def noA : Option Bool := some false

/-- A vendor microword of an instruction. -/
def vw (p : Nat) (q : QEntry) (c : Ctl) (r : Run) : Run :=
  (fetchWord p q () (fun r => ((), r))
    (fun r => let e := cycle p { c with u := c.u || q.all } (vupc q r.cnt) r.st; ((), { r with st := e.st, ab := e.abort, cnt := r.cnt + 1 })) r).2

/-- X, C and N of the partition hold values the spec does not give after a vendor routine (R67): free values. -/
def scramble (p : Nat) (s : State) : State :=
  let m := quadsPlane (s.quads p)
  (s.modArr (fun a => { a with
    x := merge m a.x (Config.freePlane (3 * s.free)), c := merge m a.c (Config.freePlane (3 * s.free + 1))
    n := merge m a.n (Config.freePlane (3 * s.free + 2)) })).draw

/-- The final cycle of R78: E offered to the wick in the exception class. -/
def offerE (p : Nat) (q : QEntry) (r : Run) : Run := vw p q { bcast := noA, rsrc := .e, wen := true, fin := true } r

-- Moves and logic (Table AOP-5)

/-- D := table of A, bit by bit; falling when D lies above A (R79). -/
def vMove (p : Nat) (q : QEntry) (t : Byte) (r : Run) : Run :=
  let step := fun k => vw p q { ra := at_ q.a k, wa := at_ q.d k, tf := t, mdst := .f }
  if q.a.toNat < q.d.toNat then falling q.n step r else rising q.n step r

/-- D := β. -/
def vMovb (p : Nat) (q : QEntry) (r : Run) : Run :=
  rising q.n (fun k => vw p q { bcast := some (q.beta_ k), wa := at_ q.d k, tf := ttA, mdst := .f }) r

/-- D := table of the field at `src` (a) and old D (x), in place on D. -/
def vInPlace (p : Nat) (q : QEntry) (src : BitVec 12) (t : Byte) (r : Run) : Run :=
  rising q.n (fun k => vw p q { ra := at_ src k, wa := at_ q.d k, xsrc := .d, tf := t, mdst := .f }) r

/-- The same with β as a. -/
def vInPlaceB (p : Nat) (q : QEntry) (t : Byte) (r : Run) : Run :=
  rising q.n (fun k => vw p q { bcast := some (q.beta_ k), wa := at_ q.d k, xsrc := .d, tf := t, mdst := .f }) r

/-- D := the field at `src`, in rising order: the first part of a longer form (R79). -/
def vCopy (p : Nat) (q : QEntry) (src : BitVec 12) (r : Run) : Run :=
  rising q.n (fun k => vw p q { ra := at_ src k, wa := at_ q.d k, tf := ttA, mdst := .f }) r

/-- AND, OR, XOR, ANDN: f of A and B; in place on A or B, else D := B first (R71, R79). -/
def vLogic (p : Nat) (q : QEntry) (f : Bool → Bool → Bool) (r : Run) : Run :=
  if q.d = q.a then vInPlace p q q.b (tt (fun a x _ => f x a)) r
  else vInPlace p q q.a (tt (fun a x _ => f a x)) (if q.d = q.b then r else vCopy p q q.b r)

/-- ANDB, ORB, XORB: f of A and β; in place on A, else D := A first. -/
def vLogicB (p : Nat) (q : QEntry) (f : Bool → Bool → Bool) (r : Run) : Run :=
  vInPlaceB p q (tt (fun a x _ => f x a)) (if q.d = q.a then r else vCopy p q q.a r)

-- Addition and subtraction (Table AOP-6)

/-- How a saturating form fills D where the result did not fit. -/
inductive Fill where
  /-- signed: the sign of the exact result is the inverse of the wrapped sign bit, held in C -/
  | bySign
  | max
  | ones
  | zeros
  deriving DecidableEq, Repr

/-- The n further cycles of T: D becomes the bound where X is 1 (R79). -/
def vSaturate (p : Nat) (q : QEntry) (fill : Fill) (r : Run) : Run :=
  rising q.n (fun k => vw p q { ra := at_ q.d k, wa := at_ q.d k, mdst := .f, tf :=
      let top := k + 1 == q.n
      match fill with
      | .bySign => if top then tt (fun a x c => if x then !c else a) else tt (fun a x c => if x then c else a)
      | .max => if top then tt (fun a x _ => if x then false else a) else tt (fun a x _ => if x then true else a)
      | .ones => tt (fun a x _ => if x then true else a)
      | .zeros => tt (fun a x _ => if x then false else a) }) r

/-- The ripple cycles of an addition or subtraction with `src` (a; none is β) into D (x): sum, chain and overflow tables. -/
def vRipple (p : Nat) (q : QEntry) (src : Option (BitVec 12)) (c0 : Bool) (sum chain ovf : Byte) (r : Run) : Run :=
  let r0 := vw p q { bcast := noA, tg := if c0 then ttOne else ttZero, cdst := .g } r
  rising q.n (fun k => vw p q
    { ra := match src with | some a => at_ a k | none => 0
      bcast := match src with | some _ => none | none => some (q.beta_ k)
      wa := at_ q.d k, xsrc := .d, tf := sum, mdst := .f
      tg := if k + 1 == q.n then ovf else chain
      cdst := if k + 1 == q.n then (if q.sat then .f else .none) else .g
      xdst := if k + 1 == q.n && q.sat then .g else .none
      edst := if k + 1 == q.n && !q.sat then .g else .none, eor := true }) r0

/-- The end of an add-group instruction up to its offer of E: the saturating cycles with T. -/
def vArithEnd (p : Nat) (q : QEntry) (fill : Fill) (r : Run) : Run := if q.sat then vSaturate p q fill r else r

/-- D := A + B (R71, R77, R79). -/
def vAdd (p : Nat) (q : QEntry) (src : Option (BitVec 12)) (r : Run) : Run :=
  vArithEnd p q (if q.sgn then .bySign else .ones) (vRipple p q src false ttSum ttCarry (if q.sgn then ttAddOvf else ttCarry) r)

/-- D := D − src. -/
def vSubFrom (p : Nat) (q : QEntry) (src : Option (BitVec 12)) (r : Run) : Run :=
  vArithEnd p q (if q.sgn then .bySign else .zeros)
    (vRipple p q src true ttDiff ttBorrow (if q.sgn then ttSubOvf else tt (fun a x c => !maj (!a) x c)) r)

/-- D := src − D. -/
def vSubBy (p : Nat) (q : QEntry) (src : Option (BitVec 12)) (r : Run) : Run :=
  vArithEnd p q (if q.sgn then .bySign else .zeros)
    (vRipple p q src true ttDiff ttBorrowA (if q.sgn then ttSubOvfA else tt (fun a x c => !maj a (!x) c)) r)

/-- ADD. -/
def vAddAB (p : Nat) (q : QEntry) (r : Run) : Run :=
  if q.d = q.a then vAdd p q (some q.b) r
  else vAdd p q (some q.a) (if q.d = q.b then r else vCopy p q q.b r)

/-- SUB. -/
def vSubAB (p : Nat) (q : QEntry) (r : Run) : Run :=
  if q.d = q.a then vSubFrom p q (some q.b) r
  else vSubBy p q (some q.a) (if q.d = q.b then r else vCopy p q q.b r)

/-- D made equal to A first, unless it is A: the β forms (R79). -/
def vOnA (p : Nat) (q : QEntry) (r : Run) : Run := if q.d = q.a then r else vCopy p q q.a r

/-- NEG: 0 − A. -/
def vNeg (p : Nat) (q : QEntry) (r : Run) : Run :=
  let r0 := vw p q { bcast := noA, tg := ttOne, cdst := .g } r
  let r1 := rising q.n (fun k => vw p q
    { ra := at_ q.a k, wa := at_ q.d k, tf := tt (fun a _ c => !a != c), mdst := .f
      tg := if k + 1 == q.n then tt (fun a _ c => a && c) else tt (fun a _ c => !a && c)
      cdst := if k + 1 == q.n then .none else .g
      xdst := if k + 1 == q.n && q.sat then .g else .none
      edst := if k + 1 == q.n && !q.sat then .g else .none, eor := true }) r0
  vArithEnd p q .max r1

/-- ABS: A negated where its sign bit, read first, is 1. -/
def vAbs (p : Nat) (q : QEntry) (r : Run) : Run :=
  let r0 := vw p q { ra := at_ q.a (q.n - 1), tf := ttA, xdst := .f, cdst := .f } r
  let r1 := rising q.n (fun k => vw p q
    { ra := at_ q.a k, wa := at_ q.d k, xsrc := .x, tf := tt (fun a x c => (a != x) != c), mdst := .f
      tg := if k + 1 == q.n then tt (fun a x c => a && x && c) else tt (fun a x c => (a != x) && c)
      cdst := if k + 1 == q.n then .none else .g
      xdst := if k + 1 == q.n && q.sat then .g else .none
      edst := if k + 1 == q.n && !q.sat then .g else .none, eor := true }) r0
  vArithEnd p q .max r1

-- Field reads and writes of the longer routines

/-- A plane that the present part read before it stalled, given again. -/
def Run.readAgain (r : Run) : Plane × Run := (r.old.headD 0, { r with old := r.old.tail, seen := r.old.headD 0 :: r.seen })

/-- A row read on a port, 0 A or 1 D, in a microword of its own. -/
def rdPort (port p : Nat) (q : QEntry) (row : BitVec 12) (r : Run) : Plane × Run :=
  fetchWord p q 0 Run.readAgain (fun r =>
    let x := portRead r.st (r.st.quads p) row.toNat port (vupc q r.cnt)
    (x.bits, { r with st := x.st, ab := if x.bad then some (port + 1, row.toNat) else none, cnt := r.cnt + 1, seen := x.bits :: r.seen })) r

/-- A row read on the A port. -/
def rdA (p : Nat) (q : QEntry) (row : BitVec 12) (r : Run) : Plane × Run := rdPort 0 p q row r

/-- A row read on the D port. -/
def rdD (p : Nat) (q : QEntry) (row : BitVec 12) (r : Run) : Plane × Run := rdPort 1 p q row r

/-- The PEs that take part in writes. -/
def takes (p : Nat) (q : QEntry) (s : State) : Plane :=
  let m := quadsPlane (s.quads p)
  if q.all then m else s.arr.k &&& m

/-- A row written in the PEs that take part; a conditioned write reads the row on the D port (R46, R47). -/
def wr (p : Nat) (q : QEntry) (row : BitVec 12) (v : Plane) (r : Run) : Run :=
  let d := if q.all then (0, r) else rdD p q row r
  if d.2.stops || !d.2.live then d.2
  else { d.2 with st := writeRow (d.2.st.quads p) row.toNat (merge (takes p q d.2.st) d.1 v) d.2.st }

/-- E set, by OR, in the PEs that take part (R71). -/
def orE (p : Nat) (q : QEntry) (v : Plane) (r : Run) : Run :=
  if r.stops || !r.live then r else { r with st := r.st.modArr (fun a => { a with e := merge (takes p q r.st) a.e (a.e ||| v) }) }

/-- A field read bit by bit in rising order. -/
def rdField (p : Nat) (q : QEntry) (a : BitVec 12) (n : Nat) (r : Run) : List Plane × Run :=
  (List.range n).foldl (fun x k => let y := rdA p q (at_ a k) x.2; (x.1 ++ [y.1], y.2)) ([], r)

/-- The corrected bits of the rows of a field as they stand before a part writes any of them, looked at without a read; what they were then, where the part goes on
after a stall. -/
def peekField (p : Nat) (a : BitVec 12) (n : Nat) (r : Run) : List Plane × Run :=
  (List.range n).foldl (fun x k =>
    let y := if 0 < x.2.skip then x.2.readAgain
      else let v := (portRead x.2.st (x.2.st.quads p) (at_ a k).toNat 0 0).bits; (v, { x.2 with seen := v :: x.2.seen })
    (x.1 ++ [y.1], y.2)) ([], r)

-- Shifts and rotates (Table AOP-9)

/-- One cycle of a shift: bit k of D takes what bit `src k` of A held at the start, read on the A port in the same cycle, or `fill` where there is no such bit. -/
def vShiftBit (p : Nat) (q : QEntry) (old : List Plane) (src : Nat → Option Nat) (fill : Plane) (k : Nat) (r : Run) : Run :=
  match src k with
  | some j => wr p q (at_ q.d k) (old.getD j 0) (rdA p q (at_ q.a j) r).2
  | none => wr p q (at_ q.d k) fill r

/-- The n cycles of a shift, bit by bit, in falling order when D lies above A and in rising order otherwise, each bit as if every source bit had been read
first (R79; log entry 12). -/
def vShiftBits (p : Nat) (q : QEntry) (src : Nat → Option Nat) (fill : List Plane → Plane) (r : Run) : Run :=
  let old := peekField p q.a q.n r
  (if q.a.toNat < q.d.toNat then falling q.n else rising q.n) (vShiftBit p q old.1 src (fill old.1)) old.2

/-- SHL by s; with S, min(s, n) + 1 cycles come first and record in E whether a lost bit differs from the new top bit (Table AOP-11). -/
def vShl (p : Nat) (q : QEntry) (r : Run) : Run :=
  let s := q.beta.toNat
  let shift := vShiftBits p q (fun k => if s ≤ k then some (k - s) else none) (fun _ => 0)
  if q.sgn then
    let top := if s < q.n then rdA p q (at_ q.a (q.n - 1 - s)) r else (0, r)
    let lost := (List.range (min s q.n)).foldl (fun x i => let y := rdA p q (at_ q.a (q.n - 1 - i)) x.2; (x.1 ||| (y.1 ^^^ top.1), y.2)) ((0 : Plane), top.2)
    shift (orE p q lost.1 lost.2)
  else shift r

/-- SHR (filled with 0) and SAR (filled with the sign). -/
def vShr (p : Nat) (q : QEntry) (arith : Bool) (r : Run) : Run :=
  let s := q.beta.toNat
  let fill : List Plane → Plane := fun old => if arith then old.getD (q.n - 1) 0 else 0
  vShiftBits p q (fun k => if k + s < q.n then some (k + s) else if arith then some (q.n - 1) else none) fill r

/-- ROL by s mod n, and ROR as ROL by n − s: bit by bit where D and A are disjoint, else A is read whole before D is written (R79, Table AOP-9). -/
def vRol (p : Nat) (q : QEntry) (right : Bool) (r : Run) : Run :=
  let s := q.beta.toNat % q.n
  let l := if right then (q.n - s) % q.n else s
  if q.a.toNat + q.n ≤ q.d.toNat ∨ q.d.toNat + q.n ≤ q.a.toNat then
    rising q.n (fun k r => let x := rdA p q (at_ q.a ((k + q.n - l) % q.n)) r; wr p q (at_ q.d k) x.1 x.2) r
  else
    let x := rdField p q q.a q.n r
    rising q.n (fun k => wr p q (at_ q.d k) (x.1.getD ((k + q.n - l) % q.n) 0)) x.2

-- Comparisons and associative operations (R72–R74)

/-- The predicate routine after its setup and scan, up to its final cycle: write r, update K. r is C inverted when `inv`. In mode 0x5 the K update has the
table of not r, which R68 needs; row 34 of Table PE-5 prints that of r for every mode (log entry 32). -/
def vPredEnd (p : Nat) (q : QEntry) (inv : Bool) (r : Run) : Run :=
  let t := if inv then ttNotC else ttC
  let nt := if inv then ttC else ttNotC
  let r1 := vw p q { bcast := noA, wa := q.d, tf := t, mdst := .f } r
  match q.mode.toNat with
    | 2 => vw p q { bcast := noA, tf := t, kdst := .f, kmode := .and } r1
    | 3 => vw p q { bcast := noA, tf := t, kdst := .f, kmode := .or } r1
    | 4 => vw p q { bcast := noA, tf := t, kdst := .f, kmode := .load } r1
    | 5 => vw p q { bcast := noA, tf := nt, kdst := .f, kmode := .and } r1
    | _ => vw p q { bcast := noA } r1

/-- The final cycle of a predicate opcode: the new K in modes 0x2–0x5, else r read back from the match bit; FIND offers it to the first-responder tree too
(Table PE-5, R72, R73). -/
def vPredOffer (p : Nat) (q : QEntry) (r : Run) : Run :=
  let base : Ctl := { bcast := noA, wen := true, ten := q.red, fen := q.op == 0x40, fin := true }
  if 2 ≤ q.mode.toNat then vw p q { base with rsrc := .k } r else vw p q { base with rsrc := .f, xsrc := .d, wa := q.d, tf := ttX } r

/-- Setup and scan: C starts at c0 and follows the chain; a is field `src` or bit k of β, x is A[k]. -/
def vScan (p : Nat) (q : QEntry) (src : Option (BitVec 12)) (c0 : Bool) (chain : Nat → Byte) (ks : List Nat) (r : Run) : Run :=
  let r0 := vw p q { bcast := noA, tg := if c0 then ttOne else ttZero, cdst := .g } r
  ks.foldl (fun r k => vw p q
    { ra := match src with | some b => at_ b k | none => 0
      bcast := match src with | some _ => none | none => some (q.beta_ k)
      wa := at_ q.a k, xsrc := .d, tg := chain k, cdst := .g } r) r0

/-- The chain of x ≥ a, and of a ≥ x, at bit k: inverted at the sign bit of a signed comparison. -/
def geChain (q : QEntry) (swap : Bool) (k : Nat) : Byte :=
  if (q.sgn && k + 1 == q.n) != swap then ttBorrowA else ttBorrow

/-- CMPEQ … CMPGE and their β forms: `rel` 0 EQ, 1 NE, 2 LT, 3 LE, 4 GT, 5 GE of A with `src`. -/
def vCompare (p : Nat) (q : QEntry) (src : Option (BitVec 12)) (rel : Nat) (r : Run) : Run :=
  let ks := List.range q.n
  match rel with
  | 0 => vPredEnd p q true (vScan p q src false (fun _ => ttMismatch) ks r)
  | 1 => vPredEnd p q false (vScan p q src false (fun _ => ttMismatch) ks r)
  | 2 => vPredEnd p q true (vScan p q src true (geChain q false) ks r)
  | 3 => vPredEnd p q false (vScan p q src true (geChain q true) ks r)
  | 4 => vPredEnd p q true (vScan p q src true (geChain q true) ks r)
  | _ => vPredEnd p q false (vScan p q src true (geChain q false) ks r)

/-- TESTZ and TESTNZ: A compared with 0. -/
def vTest (p : Nat) (q : QEntry) (nz : Bool) (r : Run) : Run :=
  vPredEnd p q (!nz) (vScan p { q with beta := 0 } none false (fun _ => ttMismatch) (List.range q.n) r)

/-- FIND (R73). -/
def vFind (p : Nat) (q : QEntry) (r : Run) : Run :=
  vPredEnd p q true (vScan p q none false (fun _ => ttMismatch) (List.range q.n) r)

/-- MATCH.MASKED: scan cycles only for the care bits (R74). -/
def vMatch (p : Nat) (q : QEntry) (r : Run) : Run :=
  vPredEnd p q true (vScan p q none false (fun _ => ttMismatch) ((List.range q.n).filter (fun k => q.care.getLsbD k)) r)

-- Reductions (Table AOP-8)

/-- ANY, COUNT: A[0] offered once. -/
def vReduce (p : Nat) (q : QEntry) (count : Bool) (r : Run) : Run :=
  vw p q { ra := q.a, tf := ttA, rsrc := .f, wen := !count, ten := count, scope := q.scope, fin := true } r

/-- READOUT: bit k offered at position k, the last with END (R76, R127). -/
def vReadout (p : Nat) (q : QEntry) (r : Run) : Run :=
  rising q.n (fun k => vw p q { ra := at_ q.a k, tf := ttA, rsrc := .f, wen := true, scope := q.scope, pos := BitVec.ofNat 6 k, fin := k + 1 == q.n }) r

-- Multiplication and division (R79)

/-- A routine in progress on an instruction. -/
structure RunT where
  r : Run
  t : Routine

/-- Sum of two numbers held as planes, lowest bit first, with the carry out. -/
def addPlanes : List Plane → List Plane → Plane → List Plane × Plane
  | x :: xs, y :: ys, c => let z := addPlanes xs ys ((x &&& y) ||| (x &&& c) ||| (y &&& c)); ((x ^^^ y ^^^ c) :: z.1, z.2)
  | _, _, c => ([], c)

/-- Bit k of a field held as planes, extended by zeros or by its sign. -/
def extBit (sgn : Bool) (xs : List Plane) (k : Nat) : Plane := if k < xs.length then xs.getD k 0 else if sgn then xs.getD (xs.length - 1) 0 else 0

/-- A × 2^i modulo 2^w, where A is held as planes. -/
def shifted (sgn : Bool) (xs : List Plane) (i w : Nat) : List Plane := (List.range w).map (fun k => if k < i then 0 else extBit sgn xs (k - i))

/-- The product of two n-bit fields modulo 2^2n, signed or unsigned. -/
def fieldProduct (sgn : Bool) (as_ bs : List Plane) : List Plane :=
  let w := 2 * as_.length
  (List.range w).foldl (fun acc i => (addPlanes acc ((shifted sgn as_ i w).map (· &&& extBit sgn bs i)) 0).1) (List.replicate w 0)

/-- Step i of MUL (w = n) or MULW (w = 2n): reads B[i] and every bit of A, and adds A × 2^i into D where B[i] = 1, reading and writing D in rising order;
with S, A is two's complement. Step 0 meets a D of 0. With MUL and S clear, what passes beyond D sets E. -/
def mulStep (p : Nat) (w i : Nat) (x : RunT) : RunT :=
  let q := x.t.q
  let b := rdA p q (at_ q.b i) x.r
  let as_ := rdField p q q.a q.n b.2
  let add := (shifted q.sgn as_.1 i w).map (· &&& b.1)
  let z : Run × Plane := (List.range w).foldl (fun z k =>
    let d := if i = 0 then (0, z.1) else rdD p q (at_ q.d k) z.1
    let y := add.getD k 0
    (wr p q (at_ q.d k) (d.1 ^^^ y ^^^ z.2) d.2, (d.1 &&& y) ||| (d.1 &&& z.2) ||| (y &&& z.2))) (as_.2, 0)
  let beyond := (List.range (i + q.n - w)).foldl (fun v j => v ||| (as_.1.getD (w - i + j) 0 &&& b.1)) z.2
  { x with r := if w = q.n ∧ ¬ q.sgn then orE p q beyond z.1 else z.1 }

/-- The sign pass of MUL and MULW: B's top bit weighs −2^(n−1), so A × 2^n is taken from D where it is 1; E of MUL where the signed product does not fit. -/
def mulSign (p : Nat) (w : Nat) (x : RunT) : RunT :=
  let q := x.t.q
  let as_ := rdField p q q.a q.n x.r
  let bs := rdField p q q.b q.n as_.2
  let sb := bs.1.getD (q.n - 1) 0
  let less := (shifted true as_.1 q.n w).map (fun v => ~~~(v &&& sb))
  let z : Run × Plane := (List.range w).foldl (fun z k =>
    let d := rdD p q (at_ q.d k) z.1
    let y := less.getD k 0
    (wr p q (at_ q.d k) (d.1 ^^^ y ^^^ z.2) d.2, (d.1 &&& y) ||| (d.1 &&& z.2) ||| (y &&& z.2))) (bs.2, BitVec.allOnes _)
  let whole := fieldProduct true as_.1 bs.1
  let top := whole.getD (q.n - 1) 0
  let lost := (whole.drop q.n).foldl (fun v y => v ||| (y ^^^ top)) 0
  { x with r := if w = q.n then orE p q lost z.1 else z.1 }

/-- Bit j of the magnitude of a two's-complement field held as planes. -/
def magnitude (xs : List Plane) (j : Nat) : Plane :=
  xs.getD j 0 ^^^ (xs.getD (xs.length - 1) 0 &&& (List.range j).foldl (fun v k => v ||| xs.getD k 0) 0)

/-- The setup cycle of MULW and DIV. -/
def mulDivSetup (p : Nat) (x : RunT) : RunT := { x with r := vw p x.t.q { bcast := noA } x.r }

/-- The first pass of DIV with S reads A and B. -/
def divSigns (p : Nat) (x : RunT) : RunT :=
  let q := x.t.q
  { x with r := (rdField p q q.b q.n (rdField p q q.a q.n x.r).2).2 }

/-- Bits at least those of b: the difference modulo 2^length, and where there is no borrow. -/
def lessPlanes (xs bs : List Plane) : List Plane × Plane := addPlanes xs (bs.map (fun v => ~~~v)) (BitVec.allOnes _)

/-- Step i of DIV: dividend bit A[n − 1 − i] enters the partial remainder in D[n … 2n − 1], from which the magnitude of B is taken where it fits; quotient bit
D[n − 1 − i]. With S the remainder of a negative dividend is held as its complement, whose top bit is the dividend's sign from step 0 on, and the quotient bit
is inverted where the signs differ. The last step finds a zero divisor. -/
def divStep (p : Nat) (i : Nat) (x : RunT) : RunT :=
  let q := x.t.q
  let n := q.n
  let j := n - 1 - i
  let a := rdA p q (at_ q.a j) x.r
  let first : Plane := if q.sgn then a.1 else 0
  let rem := (List.range n).foldl (fun y k => let d := if i = 0 then (first, y.2) else rdD p q (at_ q.d (n + k)) y.2; (y.1 ++ [d.1], d.2)) (([] : List Plane), a.2)
  let bs := rdField p q q.b n rem.2
  let neg : Plane := if q.sgn then rem.1.getD (n - 1) 0 else 0
  let inv : Plane := if q.sgn then neg ^^^ bs.1.getD (n - 1) 0 else 0
  let sh := (a.1 :: rem.1).map (· ^^^ neg)
  let df := lessPlanes sh ((if q.sgn then (List.range n).map (magnitude bs.1) else bs.1) ++ [0])
  let r1 := rising n (fun k => wr p q (at_ q.d (n + k)) (merge df.2 (sh.getD k 0) (df.1.getD k 0) ^^^ neg)) bs.2
  let r2 := wr p q (at_ q.d j) (df.2 ^^^ inv) r1
  { x with r := if i + 1 = n then orE p q (~~~(bs.1.foldl (· ||| ·) 0)) r2 else r2 }

/-- The last pass of DIV with S: reads D and B. Where the remainder's magnitude has reached B's, as it can for a negative dividend, the quotient takes one more
and the remainder is 0; a quotient held inverted is made two's complement. E where most negative is divided by −1. A zero divisor leaves the quotient all ones
and the dividend as the remainder. -/
def divSign (p : Nat) (x : RunT) : RunT :=
  let q := x.t.q
  let n := q.n
  let bs := rdField p q q.b n x.r
  let rem := (List.range n).foldl (fun y k => let d := rdD p q (at_ q.d (n + k)) y.2; (y.1 ++ [d.1], d.2)) (([] : List Plane), bs.2)
  let quo := (List.range n).foldl (fun y k => let d := rdD p q (at_ q.d k) y.2; (y.1 ++ [d.1], d.2)) (([] : List Plane), rem.2)
  let neg := rem.1.getD (n - 1) 0
  let sb := bs.1.getD (n - 1) 0
  let zero := ~~~(bs.1.foldl (· ||| ·) 0)
  let next := (addPlanes (rem.1.map (· ^^^ neg)) (List.replicate n 0) (BitVec.allOnes _)).1
  let exact := (List.range n).foldl (fun v k => v &&& ~~~(next.getD k 0 ^^^ magnitude bs.1 k)) (neg &&& ~~~zero)
  let inc := (addPlanes quo.1 (List.replicate n 0) (neg ^^^ sb ^^^ exact)).1
  let most := (List.range (n - 1)).foldl (fun v k => v &&& quo.1.getD k 0) (exact &&& sb &&& ~~~(quo.1.getD (n - 1) 0))
  let r1 := rising n (fun k => wr p q (at_ q.d k) (inc.getD k 0 ||| zero)) quo.2
  { x with r := orE p q most (rising n (fun k => wr p q (at_ q.d (n + k)) (rem.1.getD k 0 &&& ~~~exact)) r1) }

/-- The number of setup cycles, steps and passes of MUL, MULW and DIV, the final cycle not counted. -/
def mulDivParts (q : QEntry) : Nat :=
  q.n + match q.op.toNat with
  | 0x27 => b2n q.sgn
  | 0x28 => 1 + b2n q.sgn
  | _ => 1 + 2 * b2n q.sgn

/-- Part k of MUL, MULW or DIV, in order: setup, first pass, steps, last pass (R79). -/
def mulDivPart (p k : Nat) (x : RunT) : RunT :=
  let q := x.t.q
  match q.op.toNat with
  | 0x27 => if k < q.n then mulStep p q.n k x else mulSign p q.n x
  | 0x28 => if k = 0 then mulDivSetup p x else if k ≤ q.n then mulStep p (2 * q.n) (k - 1) x else mulSign p (2 * q.n) x
  | _ =>
    let first := 1 + b2n q.sgn
    if k = 0 then mulDivSetup p x else if k < first then divSigns p x
    else if k < first + q.n then divStep p (k - first) x else divSign p x

-- HASH.KR (R80)

/-- The lane that ρ reaches after t moves from (1, 0): (x, y) is followed by (y, 2x + 3y) (FIPS 202, 3.2.2). -/
def rhoLane : Nat → Nat × Nat
  | 0 => (1, 0)
  | t + 1 => let l := rhoLane t; (l.2, (2 * l.1 + 3 * l.2) % 5)

/-- How far ρ turns lane (x, y): the triangular number of its place in that walk; lane (0, 0) is not on it and stays. -/
def rhoTurn (x y : Nat) : Nat :=
  match (List.range 24).find? (fun t => rhoLane t == (x, y)) with
  | some t => (t + 1) * (t + 2) / 2 % 64
  | none => 0

/-- The shift register of ι after t steps, which fold x^8 into 1 + x^4 + x^5 + x^6 (FIPS 202, 3.2.5). -/
def iotaReg : Nat → Nat
  | 0 => 1
  | t + 1 => let v := 2 * iotaReg t; if v < 256 then v else v ^^^ 0x171

/-- Bit z of ι's constant in round i: only the bits 2^j − 1 can be 1. -/
def iotaBit (i z : Nat) : Bool := (List.range 7).any (fun j => z + 1 == 2 ^ j && (iotaReg (7 * i + j)).testBit 0)

/-- A row of A after θ: lane (x, y), bit z; the parities are read from B. -/
def hashTheta (p : Nat) (q : QEntry) (x y z : Nat) (r : Run) : Plane × Run :=
  let a := rdA p q (at_ q.a (64 * (x + 5 * y) + z)) r
  let c1 := rdA p q (at_ q.b (64 * ((x + 4) % 5) + z)) a.2
  let c2 := rdA p q (at_ q.b (64 * ((x + 1) % 5) + (z + 63) % 64)) c1.2
  (a.1 ^^^ c1.1 ^^^ c2.1, c2.2)

/-- A row after ρ and π: lane (x, y) of the result comes from lane ((x + 3y) mod 5, x). -/
def hashPi (p : Nat) (q : QEntry) (x y z : Nat) (r : Run) : Plane × Run :=
  let sx := (x + 3 * y) % 5
  hashTheta p q sx x ((z + 64 - rhoTurn sx x) % 64) r

/-- One bit of D: χ and ι. -/
def hashBit (p : Nat) (q : QEntry) (x y z : Nat) (r : Run) : Run :=
  let b0 := hashPi p q x y z r
  let b1 := hashPi p q ((x + 1) % 5) y z b0.2
  let b2 := hashPi p q ((x + 2) % 5) y z b1.2
  let v := b0.1 ^^^ (~~~b1.1 &&& b2.1) ^^^ (if x = 0 ∧ y = 0 ∧ iotaBit q.beta.toNat z then BitVec.allOnes _ else 0)
  wr p q (at_ q.d (64 * (x + 5 * y) + z)) v b2.2

/-- Part k of HASH.KR: one row of the column parities of A into B, 320 in all, then one row of the round into D, 1,600 in all. Each is a resumption point
(log entry 12). -/
def hashPart (p k : Nat) (q : QEntry) (r : Run) : Run :=
  if k < 320 then
    let c := (List.range 5).foldl (fun a y => let b := rdA p q (at_ q.a (64 * (k / 64 + 5 * y) + k % 64)) a.2; (a.1 ^^^ b.1, b.2)) ((0 : Plane), r)
    wr p q (at_ q.b k) c.1 c.2
  else let i := k - 320; hashBit p q (i / 64 % 5) (i / 320) (i % 64) r

/-- The one part of a routine without resumption points inside it, up to the microword that offers E or the predicate; MUL, MULW, DIV, HASH.KR, SELFIRST, NMOV and the plane
functions are apart. -/
def vendor (p : Nat) (q : QEntry) (r : Run) : Run :=
  match q.op.toNat with
  | 0x00 => vw p q { bcast := noA } r
  | 0x01 => vMove p q ttA r
  | 0x02 => vMovb p q r
  | 0x03 => vMove p q ttNotA r
  | 0x04 => vLogic p q (fun a b => a && b) r
  | 0x05 => vLogic p q (fun a b => a || b) r
  | 0x06 => vLogic p q (fun a b => a != b) r
  | 0x07 => vLogic p q (fun a b => a && !b) r
  | 0x08 => vLogicB p q (fun a b => a && b) r
  | 0x09 => vLogicB p q (fun a b => a || b) r
  | 0x0A => vLogicB p q (fun a b => a != b) r
  | 0x0B => vw p q { bcast := noA, xsrc := .e, wa := q.d, tf := ttX, mdst := .f } r
  | 0x0C => vw p q { ra := q.a, xsrc := .k, wa := q.d, tf := ttX, mdst := .f, tg := ttA, kdst := .g, kmode := .and } r
  | 0x0D => vw p q { ra := q.d, xsrc := .k, tf := tt (fun a x _ => a && !x), kdst := .f, kmode := .load } r
  | 0x0E => vw p q { ra := q.a, tf := ttA, kdst := .f, kmode := .load } r
  | 0x0F => vw p q { bcast := noA, tf := ttZero, edst := .f, eor := false } r
  | 0x20 => vAddAB p q r
  | 0x21 => vSubAB p q r
  | 0x22 => vAdd p q none (vOnA p q r)
  | 0x23 => vSubFrom p q none (vOnA p q r)
  | 0x24 => vSubBy p q none (vOnA p q r)
  | 0x25 => vNeg p q r
  | 0x26 => vAbs p q r
  | 0x30 => vCompare p q (some q.b) 0 r
  | 0x31 => vCompare p q (some q.b) 1 r
  | 0x32 => vCompare p q (some q.b) 2 r
  | 0x33 => vCompare p q (some q.b) 3 r
  | 0x34 => vCompare p q (some q.b) 4 r
  | 0x35 => vCompare p q (some q.b) 5 r
  | 0x36 => vTest p q false r
  | 0x37 => vTest p q true r
  | 0x38 => vCompare p q none 0 r
  | 0x39 => vCompare p q none 1 r
  | 0x3A => vCompare p q none 2 r
  | 0x3B => vCompare p q none 3 r
  | 0x3C => vCompare p q none 4 r
  | 0x3D => vCompare p q none 5 r
  | 0x40 => vFind p q r
  | 0x41 => vMatch p q r
  | 0x43 => vReduce p q false r
  | 0x44 => vReduce p q true r
  | 0x45 => vReadout p q r
  | 0x50 => vShl p q r
  | 0x51 => vShr p q false r
  | 0x52 => vShr p q true r
  | 0x53 => vRol p q false r
  | 0x54 => vRol p q true r
  | _ => r

/-- A predicate opcode (Table AOP-7). -/
def QEntry.isPred (q : QEntry) : Bool := (decide (0x30 ≤ q.op.toNat) && decide (q.op.toNat ≤ 0x3D)) || q.op == 0x40 || q.op == 0x41

/-- An opcode that can set E, and so ends with an offer of it (R78). -/
def QEntry.setsE (q : QEntry) : Bool := (decide (0x20 ≤ q.op.toNat) && decide (q.op.toNat ≤ 0x29) && q.op != 0x28) || (q.op == 0x50 && q.sgn)

/-- The last microword of a routine that ends with an offer (R72, R78). -/
def vendorTail (p : Nat) (q : QEntry) (r : Run) : Run := if q.isPred then vPredOffer p q r else if q.setsE then offerE p q r else r

/-- The number of parts of a vendor routine, its offering microword not counted. -/
def vendorParts (q : QEntry) : Nat :=
  match q.op.toNat with
  | 0x27 | 0x28 | 0x29 => mulDivParts q
  | 0x70 => 1920
  | _ => 1

/-- Part k of a vendor routine. -/
def vendorPart (p k : Nat) (x : RunT) : RunT :=
  let y := match x.t.q.op.toNat with
    | 0x27 | 0x28 | 0x29 => mulDivPart p k x
    | 0x70 => { x with r := hashPart p k x.t.q x.r }
    | _ => { x with r := vendor p x.t.q x.r }
  if y.r.bad.isSome then { y with t := { y.t with inPart := y.r.cnt + x.t.inPart - x.t.issued, reads := y.r.seen.reverse } }
  else { y with t := { y.t with steps := k + 1, inPart := 0, reads := [] } }

/-- The run of a routine from where it stands: the microwords of the present part that have issued are not issued again (R114). -/
def Routine.toRun (t : Routine) (s : State) : Run := { st := s, cnt := t.issued - t.inPart, skip := t.inPart, old := t.reads, live := t.inPart == 0 }

end Sys2Proof.Machine
end

