-- ==== Sys2Proof/Machine/ArrayPush.lean ====
section
/-! DEFINITION. From an array instruction to a queue entry: the checks of R62 and the capture of its values (R60–R70, R80–R82). -/
namespace Sys2Proof.Machine

/-- How an opcode uses FB (R60, Table AOP-1). -/
inductive FbUse where
  | none | field | beta | scope (devOnly : Bool)
  deriving DecidableEq, Repr

/-- What the catalogue permits an opcode (Tables AOP-5 to AOP-10). -/
structure OpInfo where
  /-- extents of A, B, D; 0 where the opcode does not name the field -/
  ea : Nat := 0
  eb : Nat := 0
  ed : Nat := 0
  dRead : Bool := false
  bWrite : Bool := false
  fb : FbUse := .none
  /-- permitted modes, bit m -/
  modes : Nat := 3
  /-- permitted modifier bits, STRIDE aside -/
  mods : Nat := 0
  /-- the n the opcode requires; 0 any -/
  n : Nat := 0

def mS : Nat := 0x80
def mT : Nat := 0x40
def mDir : Nat := 0x38
def mStride : Nat := 0x04
def mRed : Nat := 0x02
def mKey : Nat := 0x01

/-- The catalogue (R71); none for a reserved opcode. -/
def opInfo (op n : Nat) : Option OpInfo :=
  if op = 0x00 then some { modes := 1 }
  else if op = 0x01 ∨ op = 0x03 then some { ea := n, ed := n, mods := mKey }
  else if op = 0x02 then some { ed := n, fb := .beta, mods := mKey }
  else if 0x04 ≤ op ∧ op ≤ 0x07 then some { ea := n, eb := n, ed := n, fb := .field, mods := mKey }
  else if 0x08 ≤ op ∧ op ≤ 0x0A then some { ea := n, ed := n, fb := .beta, mods := mKey }
  else if op = 0x0B then some { ed := 1, n := 1 }
  else if op = 0x0C then some { ea := 1, ed := 1, modes := 1, n := 1 }
  else if op = 0x0D then some { ed := 1, dRead := true, modes := 1, n := 1 }
  else if op = 0x0E then some { ea := 1, modes := 1, n := 1 }
  else if op = 0x0F then some { n := 1 }
  else if op = 0x20 ∨ op = 0x21 then some { ea := n, eb := n, ed := n, fb := .field, mods := mS + mT }
  else if 0x22 ≤ op ∧ op ≤ 0x24 then some { ea := n, ed := n, fb := .beta, mods := mS + mT }
  else if op = 0x25 ∨ op = 0x26 then some { ea := n, ed := n, mods := mT }
  else if op = 0x27 then some { ea := n, eb := n, ed := n, fb := .field, mods := mS }
  else if op = 0x28 ∨ op = 0x29 then some { ea := n, eb := n, ed := 2 * n, fb := .field, mods := mS }
  else if 0x30 ≤ op ∧ op ≤ 0x35 then some { ea := n, eb := n, ed := 1, fb := .field, modes := 0x3f, mods := mS + mRed }
  else if op = 0x36 ∨ op = 0x37 then some { ea := n, ed := 1, modes := 0x3f, mods := mRed }
  else if 0x38 ≤ op ∧ op ≤ 0x3D then some { ea := n, ed := 1, fb := .beta, modes := 0x3f, mods := mS + mRed }
  else if op = 0x40 ∨ op = 0x41 then some { ea := n, ed := 1, fb := .beta, modes := 0x3f, mods := mRed + mKey }
  else if op = 0x42 then some { fb := .scope true, modes := 2 }
  else if op = 0x43 ∨ op = 0x44 then some { ea := 1, fb := .scope false, n := 1 }
  else if op = 0x45 then some { ea := n, fb := .scope true }
  else if op = 0x50 then some { ea := n, ed := n, fb := .beta, mods := mS }
  else if 0x51 ≤ op ∧ op ≤ 0x54 then some { ea := n, ed := n, fb := .beta }
  else if op = 0x60 then some { ea := n, ed := n, mods := mDir }
  else if op = 0x70 then some { ea := 1600, eb := 320, ed := 1600, bWrite := true, fb := .beta, mods := mKey, n := 64 }
  else if 0xE0 ≤ op ∧ op ≤ 0xFF then
    some { ea := n, eb := n, ed := n, fb := .field, modes := 0x3f, mods := mS + mT + mRed + mKey }
  else none

/-- Whether two runs of bit addresses share one. -/
def overlap (a la b lb : Nat) : Bool := decide (a < b + lb) && decide (b < a + la)

/-- The captured value of a broadcast selector, and the care mask; none where the selector is illegal (Table AOP-4). -/
def capture (k : Core) (sel : Nat) : Option (Dword × Dword) :=
  let kind := sel / 256
  let v := sel % 256
  let g := fun i => if i = 0 then (0 : Nat) else (tget (konst (0 : Word)) k.g i).toNat
  match kind with
  | 0 => some (BitVec.ofNat 64 (g (v % 16)), 0)
  | 1 => if v % 16 = 15 then none else some (BitVec.ofNat 64 (g (v % 16) + 2 ^ 32 * g (v % 16 + 1)), 0)
  | 2 => if 8 ≤ v then none else some (tget (konst 0) k.bkey v, tget (konst 0) k.bcare v)
  | 3 => some (BitVec.ofNat 64 v, 0)
  | 4 => some (BitVec.ofNat 64 (if 128 ≤ v then 2 ^ 64 - 256 + v else v), 0)
  | _ => none

/-- The outcome of the checks of R62. -/
inductive PushCheck where
  | illegal
  | illegalState
  /-- subcode and INFO of the array segment fault (Table DCY-10) -/
  | segFault (sub info : Nat)
  | ok (q : QEntry)
  deriving DecidableEq, Repr

/-- A field: letter, offset, extent, read, write. -/
abbrev Field := Nat × Nat × Nat × Bool × Bool

/-- The check of a field (R63, R81): the subcode of its fault, if any. -/
def fieldFault (k : Core) (keyOk : Bool) (kb kl : Nat) (f : Field) : Option (Nat × Nat) :=
  let (letter, off, ext, rd, wr) := f
  let info := letter * 2 ^ 24 + off % 4096
  if k.asLim.toNat < off + ext ∨ 4096 < k.asBase.toNat + off + ext then some (1, info)
  else if (rd && !k.asR) || (wr && !k.asW) then some (2, info)
  else if !keyOk && kl ≠ 0 && overlap (k.asBase.toNat + off) ext kb kl then some (3, info)
  else none

/-- The entry μPC of a fabric plane function: ARR_FOPj.ENTRY (R82, R85). -/
def fopEntry (s : State) (op : Nat) : BitVec 15 := BitVec.ofNat 15 (0x3000 + s.fld (cr 9 (0x400 + 8 * (op - 0xE0))) 0 12)

/-- The steps 1 to 4 of R62 for an array instruction of core c at iteration i of a repeat prefix. -/
def arrayCheck (s : State) (c : Nat) (w : Dword) (i : Nat) : PushCheck :=
  let k := s.core c
  let op := bits w.toNat 54 8
  let n := bits w.toNat 48 6 + 1
  let mode := bits w.toNat 8 4
  let mod := bits w.toNat 0 8
  let fb := bits w.toNat 24 12
  let fop := cr 9 (0x400 + 8 * (op - 0xE0))
  match opInfo op n with
  | none => .illegal
  | some o =>
    let step := if mod / 4 % 2 = 1 then n * i else 0
    let fa := bits w.toNat 36 12 + step
    let fd := bits w.toNat 12 12 + step
    let fbo := if o.fb = .field then fb + step else fb
    let fields : List Field := [(0x41, fa, o.ea, true, false), (0x42, fbo, o.eb, !o.bWrite, o.bWrite), (0x44, fd, o.ed, o.dRead, !o.dRead)].filter (fun f => f.2.2.1 ≠ 0)
    let cap : Option (Dword × Dword) := if o.fb = .beta then capture k fb else some (0, 0)
    let scopeBad : Bool := match o.fb with
      | .scope dev => fb % 4 == 3 || (dev && fb % 4 == 2)
      | _ => false
    match cap with
    | none => .illegal
    | some (beta, care) =>
      if 6 ≤ mode ∨ ¬ o.modes.testBit mode ∨ (BitVec.ofNat 8 mod &&& ~~~(BitVec.ofNat 8 (o.mods + mStride)) ≠ 0)
          ∨ (o.n ≠ 0 ∧ n ≠ o.n) ∨ scopeBad
          ∨ ((op = 0x40 ∨ op = 0x41) ∧ mod % 2 = 1 ∧ (mod / 2 % 2 = 1 ∨ mode ≠ 1))
          ∨ (op = 0x41 ∧ fb / 256 ≠ 2)
          ∨ (op = 0x70 ∧ (fb / 256 = 2 ∨ 24 ≤ beta.toNat ∨ overlap fa 1600 fb 320 ∨ overlap fa 1600 fd 1600 ∨ overlap fb 320 fd 1600))
          ∨ ((op = 0x27 ∨ op = 0x28 ∨ op = 0x29) ∧ (overlap fa o.ea fd o.ed ∨ overlap fbo o.eb fd o.ed))
          ∨ (0xE0 ≤ op ∧ ¬ s.bit fop 31) then .illegal
      else match s.drives c with
        | none => .illegalState
        | some p =>
          let kb := s.keyBase p
          let kl := s.keyLen p
          match fields.findSome? (fieldFault k (mod % 2 = 1) kb kl) with
          | some (sub, info) => .segFault sub info
          | none =>
            .ok { op := BitVec.ofNat 8 op, len := BitVec.ofNat 6 (n - 1)
                  a := BitVec.ofNat 12 (k.asBase.toNat + fa)
                  b := if o.fb = .field ∨ op = 0x70 then BitVec.ofNat 12 (k.asBase.toNat + fbo) else 0
                  d := BitVec.ofNat 12 (k.asBase.toNat + fd), mode := BitVec.ofNat 4 mode, mod := BitVec.ofNat 8 mod
                  scope := match o.fb with | .scope _ => BitVec.ofNat 2 fb | _ => 0
                  beta := beta, care := care
                  entry := if 0xE0 ≤ op then fopEntry s op else 0
                  lo := BitVec.ofNat 13 k.asBase.toNat, hi := BitVec.ofNat 13 (min (k.asBase.toNat + k.asLim.toNat) 4096)
                  klen := BitVec.ofNat 13 kl, kbase := BitVec.ofNat 12 kb }

/-- The queue that receives pushes is full: 64 entries, or 16 in the lane (R62, R106). -/
def Seq.full (q : Seq) : Bool := if q.susp then decide (16 ≤ q.lane.length) else decide (64 ≤ q.queue.length)

/-- A push (R62 step 5, R106). -/
def Seq.push (q : Seq) (e : QEntry) : Seq := if q.susp then { q with lane := q.lane ++ [e] } else { q with queue := q.queue ++ [e] }

end Sys2Proof.Machine
end

