-- ==== Sys2Proof/Machine/Dir.lean ====
section
/-! DEFINITION. The directory of the staging lines, delivery of packets, what a ring domain loses when it turns OFF, and the accesses of a unit of the device
carried to their end (R140, R145, R260–R271, R351–R353). -/
namespace Sys2Proof.Machine

/-- A line of the directory, and its transactions. -/
def State.dline (s : State) (l : Nat) : DirLine := tget (konst DirLine.none) s.dir l
@[inherit_doc State.dline] def State.dbusy (s : State) (l : Nat) : DirBusy := tget (konst ⟨none, []⟩) s.dirBusy l
/-- A line of the directory replaced. -/
def setLine (l : Nat) (v : DirLine) (s : State) : State := { s with dir := tset (konst DirLine.none) s.dir l v }
/-- Its transactions replaced. -/
def setBusy (l : Nat) (v : DirBusy) (s : State) : State := { s with dirBusy := tset (konst ⟨none, []⟩) s.dirBusy l v }

/-- Agent c as a set. -/
def agent (c : CoreId) : BitVec 6 := BitVec.ofNat 6 (2 ^ c.val)

/-- A directory line without agent c. -/
def DirLine.without (l : DirLine) (c : Nat) : DirLine :=
  let h := l.holders &&& ~~~(BitVec.ofNat 6 (2 ^ c))
  if h = 0 then DirLine.none else { l with holders := h }

/-- The ports of a line's home and of an agent (Table RING-2). -/
def homePort (l : Nat) : Nat × Nat := (hStop (l * 64 / stackSize), 1)
@[inherit_doc homePort] def agentPort (c : CoreId) : Nat × Nat := (seqStop c.val, 0)

/-- A snoop to an agent, and its response. -/
def sendSnoop (l : Nat) (inval : Bool) (c : CoreId) (s : State) : State :=
  sendPacket (.core c) .snp (homePort l) (agentPort c) (BitVec.ofNat 40 (l * 64)) (.snoop inval) none s
@[inherit_doc sendSnoop] def sendSnoopRsp (l : Nat) (c : CoreId) (s : State) : State :=
  sendPacket (.core c) .snp (agentPort c) (homePort l) (BitVec.ofNat 40 (l * 64)) .snoopRsp none s

/-- The agents of a set. -/
def agentsOf (w : BitVec 6) : List CoreId := (List.range 6).filterMap (fun c => if w.getLsbD c then some (Fin.ofNat 6 c) else none)

/-- The directory set of a line of a stack, of 512 (R271). -/
def dirSetOf (l : Nat) : Nat := Config.dirSet l % 512

/-- A snoop and its response pass the probes within one command. -/
def snoopTrip (l : Nat) (inval : Bool) (c : CoreId) (s : State) : State :=
  let p : Packet := { tag := s.nextTag, ref := s.nextTag, init := .core c, net := .snp, sstop := Fin.ofNat 16 (homePort l).1, sport := 1
                      dstop := Fin.ofNat 16 (agentPort c).1, dport := 0, addr := BitVec.ofNat 40 (l * 64), cargo := .snoop inval, prio := 0
                      ring := (s.routeOf 2 (homePort l).1 (agentPort c).1).ring, resends := 0, left := 0, stage := .served, answered := false, status := none
                      data := none, discard := false }
  let q : Packet := { p with sstop := p.dstop, sport := 0, dstop := p.sstop, dport := 1, cargo := .snoopRsp
                             ring := (s.routeOf 2 (agentPort c).1 (homePort l).1).ring }
  probe false q (probe true q (probe false p (probe true p { s with nextTag := s.nextTag + 1 })))

/-- Agent c's copy of line l is invalidated or downgraded; a dirty one is written back, and replaces the line in the stack, check symbols and all (R143, R271). -/
def yieldLine (l : Nat) (inval : Bool) (c : CoreId) (s : State) : State :=
  let d := s.dline l
  setLine l (if inval then d.without c.val else { d with excl := false, old := none }) (when d.dirty (setLineErr (l * 64) 0) s)

/-- A snoop carried to its agent and back within one command. -/
def snoopNow (l : Nat) (inval : Bool) (c : CoreId) (s : State) : State := yieldLine l inval c (snoopTrip l inval c s)

/-- A new line needs room: the line of the entry that its set reuses is back-invalidated in every holder first (R271). -/
def makeRoom (l : Nat) (s : State) : State :=
  let k := l * 64 / stackSize
  let set := s.dir.filter (fun e => e.1 * 64 / stackSize == k && dirSetOf e.1 == dirSetOf l)
  if s.dline l = DirLine.none ∧ 16 ≤ set.length then
    match set[Config.dirVictim s.free % set.length]? with
    | some e => each (agentsOf e.2.holders) (snoopNow e.1 true) s.draw
    | none => s
  else s

/-- The data of line l. -/
def State.lineBits (s : State) (l : Nat) : BitVec 512 := BitVec.ofNat 512 (s.num (l * 64) 64)

/-- The line with data v as agent c holds it once granted: M for a store; for a load as it was in its own hands, E when alone, S beside others (R271). The home
takes the data that a dirty holder supplies, so that memory holds v under the new owner's copy (DEDUCED; log entry 43). -/
def DirLine.grant (l : DirLine) (c : CoreId) (write : Bool) (v : BitVec 512) : DirLine :=
  if write then ⟨agent c, true, if l.holders = agent c ∧ l.dirty then l.old else some v⟩
  else if l.excl ∧ l.holders = agent c then l
  else if l.holders &&& ~~~(agent c) = 0 then ⟨agent c, true, .none⟩
  else ⟨l.holders ||| agent c, false, .none⟩

/-- The agent that a request of an initiator concerns. -/
def agentOf : Initiator → CoreId
  | .core c => c
  | _ => 5

/-- A line enters the caches of agent c. -/
def holdLine (l : Nat) (c : CoreId) (write : Bool) (s : State) : State :=
  let s1 := makeRoom l s
  setLine l ((s1.dline l).grant c write (s1.lineBits l)) s1

/-- The holder of a line stores to it: it is dirty from now on, and memory keeps what it held (R271, R376). -/
def soil (l : Nat) (s : State) : State :=
  if (s.dline l).dirty then s else setLine l { s.dline l with old := some (s.lineBits l) } s

/-- A request of a caching agent granted: its response, with the line's data unless it upgrades; a line that cannot be read is granted to no one (R142). -/
def grant (l : Nat) (p : Packet) (s : State) : State :=
  let c := agentOf p.init
  let write := p.op != some .rds
  if p.op = some .upg then answer p .ok [] (holdLine l c write s)
  else
    let x := stagingRead (l * 64) 64 s
    answer p x.1 x.2.1 (if x.1 = .ok then holdLine l c write x.2.2 else x.2.2)

/-- The agents that a request of agent c snoops: a holder in M or E for a load, every other holder for a store. -/
def State.snoops (s : State) (l : Nat) (c : CoreId) (write : Bool) : BitVec 6 :=
  let d := s.dline l
  if !write && !d.excl then 0 else d.holders &&& ~~~(agent c)

/-- The agents that a request snoops. -/
def State.snooped (s : State) (l : Nat) (p : Packet) : BitVec 6 := s.snoops l (agentOf p.init) (p.op != some .rds)

/-- The agents that an access of initiator i with a request snoops of line l: for a read by an initiator that caches nothing the one that may hold it dirty, for a
write every holder (R145, R271). -/
def State.snoopsOf (s : State) (i : Initiator) (op : RingOp) (l : Nat) : BitVec 6 :=
  let d := s.dline l
  match op with
  | .rd _ | .rdl _ => if d.excl then d.holders else 0
  | .wr _ _ | .wrp _ _ | .wrl _ _ => d.holders
  | .rds => s.snoops l (agentOf i) false
  | .rdx | .upg => s.snoops l (agentOf i) true
  | .wbk _ | .evs => 0

/-- A write, which leaves no copy. -/
def RingOp.writes : RingOp → Bool
  | .wr _ _ | .wrp _ _ | .wrl _ _ => true
  | _ => false

/-- A snoop of one of these lines, or its response, has no route: the access is never answered (R267, R271). -/
def State.snoopLost (s : State) (i : Initiator) (op : RingOp) (ls : List Nat) : Bool :=
  ls.any (fun l => (agentsOf (s.snoopsOf i op l)).any (fun c => s.noRoute 2 (homePort l).1 (agentPort c).1 || s.noRoute 2 (agentPort c).1 (homePort l).1))

/-- Before an access of an initiator that caches nothing the copies that it meets are written back, and invalidated where it writes (R145). -/
def recallCopies (i : Initiator) (op : RingOp) (ls : List Nat) (s : State) : State :=
  each ls (fun l s => each (agentsOf (s.snoopsOf i op l)) (snoopNow l op.writes) s) s

/-- The lines that a request for staging memory touches. -/
def Packet.linesOf (p : Packet) : List Nat :=
  let a := p.addr.toNat
  match p.op with
  | some (.rdl n) => (List.range n.bytes).map (· + a / 64)
  | some (.wrl d _) => (List.range d.length).map (· + a / 64)
  | _ => [a / 64]

/-- WBK: the line written back by its holder, who keeps it clean. -/
def writeBack (l : Nat) (c : CoreId) (v : BitVec 512) (s : State) : State :=
  let d := s.dline l
  if d.excl ∧ d.holders = agent c then setLine l { d with old := none } (stagingWrite (l * 64) (toBytes 64 v.toNat) s).2 else s

/-- A request for staging memory is served by its controller, after the snoops that one of an initiator that caches nothing asks for; one whose snoop no route leads
on stays unanswered (R143, R145, R265, R267, R271). -/
def serveLine (p : Packet) (s : State) : State :=
  let a := p.addr.toNat
  let l := a / 64
  let plain := match p.op with | some (.rd _) | some (.wr _ _) | some (.wrp _ _) | some (.rdl _) | some (.wrl _ _) => p.op | _ => none
  if plain.any (fun op => s.snoopLost p.init op p.linesOf) then s
  else
  let s := match plain with | some op => recallCopies p.init op p.linesOf s | none => s
  match p.op with
  | some (.rd n) => let x := stagingRead a n.bytes s; answer p x.1 x.2.1 x.2.2
  | some (.wr n v) => let x := stagingWrite a (toBytes n.bytes v.toNat) s; answer p x.1 [] x.2
  | some (.wrp n v) => (stagingWrite a (toBytes n.bytes v.toNat) s).2
  | some (.rdl n) => let x := stagingRead (l * 64) (64 * n.bytes) s; answer p x.1 x.2.1 x.2.2
  | some (.wrl d _) => let x := stagingWrite (l * 64) (d.flatMap (fun v => toBytes 64 v.toNat)) s; answer p x.1 [] x.2
  | some (.wbk v) => writeBack l (agentOf p.init) v s
  | some .evs => answer p .ok [] (setLine l ((s.dline l).without (agentOf p.init).val) s)
  | some _ =>
    let w := s.snooped l p
    if w = 0 then grant l p s
    else each (agentsOf w) (sendSnoop l (p.op != some .rds)) (setBusy l { s.dbusy l with now := some ⟨p, w⟩ } s)
  | none => s

/-- A line in a transaction. -/
def State.lineBusy (s : State) (l : Nat) : Bool := (s.dbusy l).now.isSome

/-- A request for staging memory: it waits at the first of its lines that is held in a transaction, in arrival order, or is served (R271). -/
def dirRequest (p : Packet) (s : State) : State :=
  match p.linesOf.find? s.lineBusy with
  | some l => setBusy l { s.dbusy l with queue := (s.dbusy l).queue ++ [p] } s
  | none => serveLine p s

/-- The requests that waited for a line are served in arrival order, until one holds it again; `fuel` bounds their number. -/
def nextTxn : Nat → Nat → State → State
  | 0, _, s => s
  | fuel + 1, l, s =>
    match (s.dbusy l).now, (s.dbusy l).queue with
    | none, p :: r => nextTxn fuel l (dirRequest p (setBusy l ⟨none, r⟩ s))
    | _, _ => s

/-- A snoop reaches its agent, which downgrades or invalidates its copy and answers; a snoop response reaches the home, which grants the line after the last. -/
def receiveSnp (p : Packet) (s : State) : State :=
  let l := p.addr.toNat / 64
  let c := agentOf p.init
  match p.cargo with
  | .snoop inval =>
    sendSnoopRsp l c (yieldLine l inval c s)
  | .snoopRsp =>
    (match (s.dbusy l).now with
    | none => s
    | some t =>
      let w := t.await &&& ~~~(agent c)
      if w ≠ 0 then setBusy l { s.dbusy l with now := some { t with await := w } } s
      else
        let s1 := grant l t.req (setBusy l { s.dbusy l with now := none } s)
        nextTxn ((s1.dbusy l).queue.length + 1) l s1)
  | _ => s

/-- An SNP packet is ejected. -/
def ejectSnp (p : Packet) (s : State) : State := receiveSnp p (probe false p (dropPacket p.tag s))

/-- The snoops, then the snoop responses, of a line are ejected. -/
def finishOnce (l : Nat) (s : State) : State :=
  let snp := fun (c : Cargo → Bool) (s : State) => s.packets.filter (fun p => p.net == .snp && p.addr.toNat / 64 == l && c p.cargo)
  let s1 := each (snp (fun c => c != .snoopRsp) s) ejectSnp s
  each (snp (fun c => c == .snoopRsp) s1) ejectSnp s1

/-- The transactions that hold a line, or wait for it, end before an access that meets them goes on (R271). -/
def finishLine (l : Nat) (s : State) : State :=
  if s.lineBusy l then times ((s.dbusy l).queue.length + 1) (fun _ => finishOnce l) s else s

-- Delivery (R260, R265, R270)

/-- The transaction of a line ends without its grant: its request is answered RETRY_EXHAUSTED, and the next one starts (R270). -/
def abandonTxn (l : Nat) (s : State) : State :=
  match (s.dbusy l).now with
  | none => s
  | some t =>
    let s1 := answer t.req .retryExhausted t.req.zeros (setBusy l { s.dbusy l with now := none } s)
    nextTxn ((s1.dbusy l).queue.length + 1) l s1

/-- The transaction of a packet that its source has sent as often as it may ends: the requester receives RETRY_EXHAUSTED, whichever packet of the transaction it
was; of a delivery notice the waiting copy is given up (R270; log entry 43). -/
def giveUp (x : Packet) (s : State) : State :=
  let s1 := dropPacket x.tag s
  match x.cargo with
  | .req _ => endAtSource x .retryExhausted s
  | .rsp _ _ | .lines _ => (match s1.packet x.ref with | some q => endAtSource q .retryExhausted s1 | none => s1)
  | .snoop _ | .snoopRsp => abandonTxn (x.addr.toNat / 64) s1
  | .dlv => dropPacket x.ref s1
  | .retry => s1

/-- A packet was cut as often as it may be: its transaction ends, logged; of a RETRY notice, that of the packet it names (R270). -/
def exhausted (x : Packet) (s : State) : State :=
  let s1 := s.reportN 8 3 0x40 (x.dstop.val * 256 + x.dport) x.tag
  match x.cargo, s1.packet x.ref with
  | .retry, some y => giveUp y (dropPacket x.tag s1)
  | _, _ => giveUp x s1

/-- The source of a cut packet has its RETRY: it sends the packet again, or ends its transaction after 4 resends (R270). -/
def retried (x : Packet) (s : State) : State :=
  if x.stage ≠ .cut then s
  else if 4 ≤ x.resends then exhausted x s
  else setPacket { x with stage := .waiting, resends := x.resends + 1, left := x.flits } s

/-- A source port receives a response, data or a notice (R260, R270). -/
def receiveBack (p : Packet) (s : State) : State :=
  match s.packet p.ref with
  | none => s
  | some x =>
    match p.cargo with
    | .rsp st d => finishRequest { x with status := some st, data := if d = [] then x.data else some d } s
    | .lines d => finishRequest { x with data := some d } s
    | .dlv => if x.stage = .served then dropPacket x.tag s else setPacket { x with answered := true } s
    | .retry => retried x s
    | _ => s

/-- A request of the fabric window: left to the design, or answered by the port (R33, R349, R354). -/
def serveWindow (p : Packet) (n : Nat) (write : Option Nat) (s : State) : State :=
  let a := p.addr.toNat - 0x4400000000
  if s.designSilent a then s.draw
  else let x := windowRw a n write s; answer p x.1 x.2.1 x.2.2

/-- How a target answers a read and a write of an initiator. -/
structure Target where
  rd : Initiator → Nat → Nat → State → RStat × List Byte × State
  wr : Initiator → Nat → List Byte → State → RStat × State

/-- The target serves a request. -/
def serve (t : Target) (p : Packet) (s : State) : State :=
  let a := p.addr.toNat
  let line := a / 64 * 64
  if a < stagingEnd then dirRequest p s
  else match p.op with
    | some (.rd n) => if inWindow a n.bytes then serveWindow p n.bytes none s else let x := t.rd p.init a n.bytes s; answer p x.1 x.2.1 x.2.2
    | some (.wr n v) =>
      let d := toBytes n.bytes v.toNat
      if inWindow a n.bytes then serveWindow p n.bytes (some (ofBytes d)) s else let x := t.wr p.init a d s; answer p x.1 [] x.2
    | some (.wrp n v) => (t.wr p.init a (toBytes n.bytes v.toNat) s).2
    | some (.rdl n) => let x := t.rd p.init line (64 * n.bytes) s; answer p x.1 x.2.1 x.2.2
    | some (.wrl d _) => let x := t.wr p.init line (d.flatMap (fun v => toBytes 64 v.toNat)) s; answer p x.1 [] x.2
    | some (.wbk _) => s.reportUnmapped a
    | some op => answer p .unmapped op.zeros (s.reportUnmapped a)
    | none => s

/-- The tail of a packet enters an ejection or wake buffer: a posted one is acknowledged (R260). -/
def acknowledge (p : Packet) (s : State) : State := if p.posted then sendBack p .rsp .dlv s else s

/-- A packet reaches its port: a response or a notice leaves its source's store; a request is served, or met by an isolated port (R260, R265). One that a wake
buffer held has passed the probes, and has been acknowledged, when it entered it (R272). -/
def deliverTo (t : Target) (p : Packet) (s : State) : State :=
  let held := p.stage == .held
  let s1 := when (!held) (probe false p) s
  if p.op.isNone then pump (if p.net = .snp then receiveSnp p (dropPacket p.tag s1) else receiveBack p (dropPacket p.tag s1))
  else
    let q := { p with stage := .served }
    let s2 := if p.posted && p.answered then dropPacket p.tag s1 else setPacket q s1
    let s3 := when (!held) (acknowledge p) s2
    if s.isolated p.dstop.val p.dport then (if p.posted then pump (s3.incF (cr 0x40 0x140) 0 32 1) else pump (answer q .targetIsolated p.zeros s3))
    else pump (serve t q s3)

/-- Delivery as the units of the device see it: a write of a control page by a core or by firmware waits for its own command (log entry 9). -/
def deliverUnit (p : Packet) (s : State) : State :=
  if p.op.any RingOp.writes && inControl p.addr.toNat && byCore p.init then s else deliverTo ⟨targetRead, unitPut⟩ p s

-- What the domain of a port loses and keeps (R351–R353)

/-- Every cache line of an agent is written back and invalidated (R353). -/
def dropAgent (c : Nat) (s : State) : State :=
  each (s.dir.filter (fun e => e.2.holders.getLsbD c)) (fun e => yieldLine e.1 true (Fin.ofNat 6 c)) s

/-- Every line of a stack is back-invalidated in its holders (R271, R353). -/
def dropStackLines (k : Nat) (s : State) : State :=
  each (s.dir.filter (fun e => e.1 * 64 / stackSize == k)) (fun e s => each (agentsOf e.2.holders) (snoopNow e.1 true) s) s

/-- What domain S of sequencer c loses: its caches, and all that is none of the registers of Table DCY-1, the SEQ registers, the microstore with its committed
words and its spare rows, and the ICU (R352, R353). -/
def loseSequencer (c : Nat) (s : State) : State :=
  ((dropAgent c s).modSeq c (fun q => { Seq.reset with newWords := q.newWords, redir := q.redir, hadError := q.hadError })).modCore c (fun k => { k with
    holdP := 0, holdQR := 0, holdW := 0, holdT := 0, copTag := 0 })

/-- A half-edge without power is DISABLED, and SEAMe_STAT shows it (R304). -/
def halfOff (e h : Nat) (s : State) : State :=
  ((s.setHalf e h Half.reset).setF (cr (0x30 + e) 0x10) (4 * h) 3 0).setF (cr (0x30 + e) 0x10) (8 + 5 * h) 5 0

/-- What the drain of a domain S, H or L does before its bridges are isolated, and what it then loses (Table PWR-1, R353). -/
def ringLost (d : Nat) (s : State) : State :=
  if d < 21 then loseSequencer (d - 16) s
  else if d < 25 then (dropStackLines (d - 21) s).modStack (d - 21) (fun x => { x with refresh := true })
  else halfOff (d - 25) 1 (halfOff (d - 25) 0 s)

/-- The domain of a port is ON by the time an access that is carried to its end reaches it: a gated clock resumes; a drain that has not passed the point of no
return is aborted; behind it the domain turns OFF and wakes again (R264, R351). A domain that is held OFF stays so. -/
def wakeNow (d : Nat) (s : State) : State :=
  match s.dom d with
  | 0 => s
  | 1 => setDom d 0 s
  | 2 => if s.pnr d = 0 then setDom d 0 s else domOn d (setPnr d 0 (when (decide (16 ≤ d) && decide (d < 29)) (ringLost d) s))
  | _ => if s.heldOff d then s else domOn d s

-- Accesses carried to their end within one command

/-- An earlier packet is carried to its destination before a later access of the same ports: the RETRY of a cut one arrives, its stop switches, its flits have
their tokens, and it is delivered (R262, R269, R270; log entry 9). -/
def force (dl : Packet → State → State) (tag : Nat) (s : State) : State :=
  let step := fun (f : Packet → State → State) (s : State) => match s.packet tag with | some p => f p s | none => s
  let s1 := step (fun p s => if p.stage = .cut then retried p { s with packets := s.packets.filter (fun x => !(x.cargo == .retry && x.ref == p.tag)) } else s) s
  let s2 := step (fun p s =>
    if p.stage = .waiting then
      let n := netIdx p.net
      let d := (p.dstop.val, p.dport)
      let src := (p.sstop.val, p.sport)
      let s := switchWay n src d s
      if p.local_ then setPacket { p with stage := .flying, left := 0 } s
      else if s.noRoute n src.1 d.1 then stopped p s
      else
        let q := { p with stage := .flying, left := 0, ring := (s.routeOf n src.1 d.1).ring }
        probe true q (setPacket q (match p.op with | some op => spend src d op s | none => s))
    else s) s1
  step (fun p s => if p.stage = .flying ∨ p.stage = .parked then dl { p with left := 0 } (setPacket { p with left := 0 } s) else s) s2

/-- The earlier requests from one port to another on a network are delivered before a later access of the same ports (R262). -/
def clearWay (dl : Packet → State → State) (src d : Nat × Nat) (net : Net) (s : State) : State :=
  each ((s.packets.filter (fun p => p.op.isSome && p.net == net && p.sstop.val == src.1 && p.sport == src.2 && p.dstop.val == d.1 && p.dport == d.2)).map (·.tag))
    (force dl) s

/-- The domain whose bridge can hold a packet: not F, whose registers are kept and whose bridge answers for the window (R354, Table PWR-1). -/
def Packet.bridge (p : Packet) : Option Nat := if p.dstop = 8 ∧ p.dport = 0 then none else p.domain

/-- The packets that the wake buffers of a domain hold are delivered in arrival order, before any later packet (R264). -/
def deliverBuffer (dl : Packet → State → State) (d : Nat) (s : State) : State := each (s.packets.filter (fun p => p.stage == .held && p.bridge == some d)) dl s

/-- The domain of an address is ON by the time an access reaches it, with what its wake buffers held delivered (R264). -/
def awaken (dl : Packet → State → State) (a : Nat) (s : State) : State := match wakes a with | some d => deliverBuffer dl d (wakeNow d s) | none => s

/-- The lines of n bytes at a are in no transaction (R271). -/
def finishLines (a n : Nat) (s : State) : State := if a < stagingEnd then each (linesOf a n) (fun l s => finishLine (l / 64) s) s else s

/-- The n bytes at a can be served. -/
def settle (dl : Packet → State → State) (a n : Nat) (s : State) : State := finishLines a n (awaken dl a s)

/-- The lines of staging memory that n bytes at a touch, by number. -/
def lineNos (a n : Nat) : List Nat := if a < stagingEnd then (linesOf a n).map (· / 64) else []

/-- A response of an access from a port, or its line data, has no route back: the stop of its target answers TARGET_ISOLATED (R267; log entry 43). -/
def State.noReturn (s : State) (src d : Nat × Nat) (op : RingOp) (st : RStat) : Bool :=
  !op.posted && (s.noRoute 1 d.1 src.1 || (op.readsLines && st == .ok && s.noRoute 3 d.1 src.1))

/-- The stop of a target switches where a cut holds the response (R269). -/
def switchBack (src d : Nat × Nat) (op : RingOp) (s : State) : State :=
  when (!op.posted) (fun s => when op.readsLines (switchWay 3 d src) (switchWay 1 d src s)) s

/-- An access of n bytes from a source port carried over the ring to its end, its target's answer given by `f`: its stop switches where a cut holds it, no route
ends it at its source; what the wake buffers of its target hold, then earlier packets of the same ports, go first; an isolated port answers in its target's stead, as
the stop does for a port that waits for a snoop that no route leads on (R258–R272). -/
def carry (dl : Packet → State → State) (src : Nat × Nat) (i : Initiator) (a n : Nat) (op : RingOp) (f : State → RStat × List Byte × State) (s : State) :
    RStat × List Byte × State :=
  match decodePort a with
  | none => f s
  | some d =>
    let net := netIdx op.net
    let s1 := switchWay net src d s
    let none_ := List.replicate (if op.readBytes = 0 then 0 else n) (0 : Byte)
    if s1.noRoute net src.1 d.1 then (.targetIsolated, none_, s1)
    else
      let s2 := when (!s1.isolated d.1 d.2) (awaken dl a) s1
      let s3 := spend src d op (clearWay dl src d op.net s2)
      if s3.isolated d.1 d.2 then (.targetIsolated, none_, trip src i a op .targetIsolated s3)
      else
        let s4 := finishLines a n s3
        let x := if s4.snoopLost i op (lineNos a n) then (.targetIsolated, none_, isolatePort d.1 d.2 s4.nextTag s4) else f s4
        let s5 := switchBack src d op x.2.2
        let y := if s5.noReturn src d op x.1 then (RStat.targetIsolated, none_) else (x.1, x.2.1)
        (y.1, y.2, trip src i a op y.1 s5)

/-- The bytes of a long access that its next request covers: up to a line in staging memory, a naturally aligned chunk elsewhere. -/
def unit (a n : Nat) : Nat := if a < stagingEnd then min n (64 - a % 64) else chunk a n

/-- The size of a chunk. -/
def chunkSize (n : Nat) : Size := if n = 8 then .b8 else if n = 4 then .b4 else if n = 2 then .b2 else .b1

/-- An engine's access to its own stack, which takes no ring (R140). -/
def ownStack (i : Initiator) (a : Nat) : Bool := match i with | .engine k => decide (a < stagingEnd) && a / stackSize == k.val | _ => false

/-- One request of a long read from a port: a line, or a chunk elsewhere. -/
def unitRead (src : Nat × Nat) (i : Initiator) (a n : Nat) (s : State) : RStat × List Byte × State :=
  let op : RingOp := if a < stagingEnd then .rdl .b1 else .rd (chunkSize n)
  let get := fun (s : State) => targetRead i a n (recallCopies i op (lineNos a n) s)
  if ownStack i a then get (settle deliverUnit a n s) else carry deliverUnit src i a n op get s

/-- One request of a long write. -/
def unitWrite (src : Nat × Nat) (i : Initiator) (a : Nat) (v : List Byte) (s : State) : RStat × State :=
  let op : RingOp := if v.length = 64 then .wrl [BitVec.ofNat 512 (ofBytes v)] false else .wr (chunkSize v.length) (BitVec.ofNat 64 (ofBytes v))
  let put := fun (s : State) => let x := unitPut i a v (recallCopies i op (lineNos a v.length) s); (x.1, ([] : List Byte), x.2)
  let x := if ownStack i a then put (settle deliverUnit a v.length s) else carry deliverUnit src i a v.length op put s
  (x.1, x.2.2)

/-- A long read from a port: lines in staging memory, chunks elsewhere; it stops at the first error. -/
def runRead (src : Nat × Nat) (i : Initiator) : Nat → Nat → Nat → State → RStat × List Byte × State
  | 0, _, _, s => (.ok, [], s)
  | fuel + 1, a, n, s =>
    if n = 0 then (.ok, [], s)
    else
      let m := unit a n
      let x := unitRead src i a m s
      if x.1 ≠ .ok then (x.1, x.2.1, x.2.2)
      else let y := runRead src i fuel (a + m) (n - m) x.2.2; (y.1, x.2.1 ++ y.2.1, y.2.2)

/-- A long write in the same steps. -/
def runWrite (src : Nat × Nat) (i : Initiator) : Nat → Nat → List Byte → State → RStat × State
  | 0, _, _, s => (.ok, s)
  | fuel + 1, a, v, s =>
    if v = [] then (.ok, s)
    else
      let m := unit a v.length
      let x := unitWrite src i a (v.take m) s
      if x.1 ≠ .ok then x else runWrite src i fuel (a + m) (v.drop m) x.2

/-- A long access by an initiator. -/
def longRead (i : Initiator) (fuel a n : Nat) (s : State) : RStat × List Byte × State := runRead (sourcePort i) i fuel a n s
@[inherit_doc longRead] def longWrite (i : Initiator) (fuel a : Nat) (v : List Byte) (s : State) : RStat × State := runWrite (sourcePort i) i fuel a v s

/-- A read and a write of staging memory by a unit of the device at a port, line by line; past its end they are unmapped (R29). -/
def memRead (src : Nat × Nat) (i : Initiator) (a n : Nat) (s : State) : RStat × List Byte × State :=
  if stagingEnd < a + n then unmappedRead a n s
  else let x := runRead src i (n / 64 + 2) a n s; (x.1, if x.1 = .ok then x.2.1 else List.replicate n 0, x.2.2)
@[inherit_doc memRead] def memWrite (src : Nat × Nat) (i : Initiator) (a : Nat) (v : List Byte) (s : State) : RStat × State :=
  if stagingEnd < a + v.length then (.unmapped, s.reportUnmapped a) else runWrite src i (v.length / 64 + 2) a v s

/-- The port of the seam message router (Table RING-2). -/
def routerPort : Nat × Nat := (2, 1)

end Sys2Proof.Machine
end

