-- ==== Sys2Proof/Machine/Abort.lean ====
section
/-! DEFINITION. Microwords and their parity, routine aborts, takeover by S4 (R25, R26, R86–R89, R105, R111–R116, R433). -/
namespace Sys2Proof.Machine

/-- An instruction boundary of partition p: a written edge mode and committed user words take effect; a flush that was ordered during an instruction is made
once that instruction has ended, not where it is suspended, and the stopped program is gone (R84, R88, R180, R294). -/
def boundary (p : Nat) (s : State) : State :=
  let q := s.driver p
  let s1 := match tget (konst none) s.arr.newEdge p with
    | some m => s.modArr (fun a => { a with edge := tset (konst 0x55) a.edge p m, newEdge := tset (konst none) a.newEdge p none })
    | none => s
  let s2 := if (s1.seq q).flush ∧ ¬ (s1.seq q).inside then (s1.modSeq q (fun x => { x with flush := false, queue := [], qHalt := false })).setProgram p none else s1
  match (s2.seq q).newWords with
  | [] => s2
  | ws => (each ws (fun w s => s.setUword q w.1 w.2) s2).modSeq q (fun x => { x with newWords := [] })

/-- Whether a device address range lies in the staging memory that the part has (Table SYS-4, R2). -/
def inStaging (a n : Nat) : Bool := decide (a + n ≤ if Config.is30T then 0x1000000000 else 0x1800000000)

/-- User word w of the image at SEQq_UIMG as core c reads it over the ring, in three doubles where the image lies outside staging memory, as a microstore asks;
none where the read ends in an error (R29, R87, R115). -/
def imageWord (c : CoreId) (q w : Nat) (s : State) : Option Nat × State :=
  let x := longRead (.core c) 8 (s.fld (sq q 0x848) 6 26 * 64 + s.fld (sq q 0x84c) 0 8 * 2 ^ 32 + 32 * w) 24 s
  (if x.1 = .ok then some (ofBytes x.2.1 % 2 ^ 160) else none, x.2.2)

/-- Frame registers SEQs_ACF0–SEQs_ACF11 written (R105). -/
def writeAcf (q : Nat) (vals : List Nat) (s : State) : State :=
  each (List.range 12) (fun k s => s.setR32 (sq q (0x800 + 4 * k)) (vals.getD k 0)) s

/-- The fields of the frame registers for a suspended routine (R105, Table of R119). The μPC, counters and address registers of a vendor routine that does not run
word by word are those of its resumption point, of which the spec gives no values: free (log entry 2). -/
def acfRoutine (r : Routine) : List Nat :=
  let q := r.q
  let free := fun i => (Config.vendorFrame [q.op.toNat, q.n, q.a.toNat, q.b.toNat, q.d.toNat, r.steps] i).toNat
  let ar := fun i => if r.byWord then (tget (konst 0) r.ar i).toNat else free (4 + i) % 4096
  let lc := fun i => if r.byWord then (tget (konst 0) r.lc i).toNat else free (if i = 0 then 12 else i)
  let usr := isUser q.op
  [ 2 ^ 31 + b2n usr * 2 ^ 29 + (if r.byWord then r.upc.toNat else vupc q r.issued), lc 1 * 65536 + lc 0, lc 3 * 65536 + lc 2
  , ar 1 * 65536 + ar 0, ar 3 * 65536 + ar 2, ar 5 * 65536 + ar 4, ar 7 * 65536 + ar 6
  , r.beta.toNat, r.beta.toNat / 2 ^ 32
  , q.op.toNat * 2 ^ 24 + q.len.toNat * 65536 + q.mode.toNat * 256 + q.mod.toNat
  , if usr then q.hi.toNat * 65536 + q.lo.toNat else 0, q.klen.toNat * 65536 + q.kbase.toNat ]

/-- SEQs_ACF0.V cleared. -/
def clearFrameV (q : Nat) (s : State) : State := s.setF (sq q 0x800) 31 1 0

/-- APRE of core q completes with a status (R104): gd written, the next instruction follows. -/
def apreDone (q status : Nat) (s : State) : State :=
  match (s.core q).run with
  | .waiting (.apre d) => stopHere q <| s.modCore q (fun k =>
      { k with g := if d.val = 0 then k.g else tset (konst 0) k.g d.val (BitVec.ofNat 32 status), pc := k.pc + 4, run := .running })
  | _ => s

/-- APRE waits on sequencer q: a stop request is pending. -/
def State.stopReq (s : State) (q : Nat) : Bool := match (s.core q).run with | .waiting (.apre _) => true | _ => false

/-- ROUTINE_ABORT (R112): the routine of partition p ends, its queue halts, SR.AX and the abort record are set, source 36 + q is asserted and
the event is logged. `port` 0 none, 1 A, 2 D. -/
def abortCore (p cause port addr upc op : Nat) (lane : Bool) (s : State) : State :=
  let q := s.driver p
  let r0 := sq q 0x850
  let ovf := s.bit r0 31 || s.bit r0 30
  let v0 := 2 ^ 31 + b2n ovf * 2 ^ 30 + cause * 65536 + port * 4096 + addr
  let v1 := op * 2 ^ 24 + upc
  let s1 := (s.setR32 r0 v0).setR32 (sq q 0x854) v1
  let s2 := s1.modCore q (fun k => { k with sr := k.sr ||| 0x400 })
  let s3 := s2.modSeq q (fun x => { x with run := none, badWord := false, qHalt := x.qHalt || !lane, lHalt := x.lHalt || lane })
  apreDone q 3 (settleClear p (boundary p (s3.report 5 1 (0x10 + q) cause v0 v1)))

/-- The TARGET sources of ICUf pass to ICU4, with their coalescing timers: a COUNT above 0 starts the timer there (R230, R238). -/
def moveSource (f j : Nat) (s : State) : State :=
  if !s.target f j then s
  else
    let s1 := (s.setR32 (icuCfg 4 j) (s.r32 (icuCfg f j))).setR32 (icu 4 (0x3000 + 4 * j)) (s.r32 (icu f (0x3000 + 4 * j)))
    let s2 := s1.setR32 (icu 4 (0x2000 + 4 * j)) (s.r32 (icu f (0x2000 + 4 * j)))
    let s3 := ((s2.setIcuBit 4 0x100 j (s.icuBit f 0x100 j)).setIcuBit 4 0x200 j (s.icuBit f 0x200 j)).setIcuBit 4 0x300 j false
    let s4 := s3.setF (icuCfg f j) 31 1 0
    if 0 < s.icuCount f j then { s4 with timers := tset (konst none) s4.timers (4 * 1024 + j) (some s.ran) } else s4

/-- User word w carried from Sf to S4 (R26); one of an image that cannot be read goes there as all zeros, as one of Sf that fails its parity does (log entry
43). -/
def copyUserWord (f w : Nat) (s : State) : State :=
  let upc := 0x3000 + w
  if s.bit (sq f 0x848) 0 then
    match imageWord 5 f w s with
    | (some v, s1) => commitWord 4 upc v s1
    | (none, s1) => s1.setUword 4 upc 0
  else
    let v := s.uword f upc
    if badGroups v = 0 then commitWord 4 upc (v % 2 ^ 160) s else s.setUword 4 upc 0

/-- TAKEOVER_COPY (R26): the array programming of Sf, its user region and its sources go to S4. -/
def takeoverCopy (f : Nat) (s : State) : State :=
  let s1 := each [0x840, 0x848, 0x84c, 0x28, 0x30, 0x34] (fun off s => s.setR32 (sq 4 off) (s.r32 (sq f off))) s
  let s2 := each (List.range 4096) (copyUserWord f) s1
  let s3 := s2.setF (icu 4 0) 0 3 (s.fld (icu f 0) 0 3)
  each (List.range 1022) (moveSource f) s3

/-- A routine in progress or suspended on quadrant f is aborted with cause TAKEOVER; a suspended one is discarded (R25, R111). Where f is ganged under a lower
quadrant the routine is that of its partition's sequencer. -/
def abortForTakeover (f : Nat) (s : State) : State :=
  let p := (s.partOf f).headD f
  let d := s.driver p
  let s1 := match (s.seq d).run with
    | some r => abortCore p 7 0 0 ((s.seq d).pcOf r) r.q.op.toNat r.lane s
    | none => s
  match (s1.seq d).frame with
  | some (.routine r) =>
    clearFrameV d ((abortCore p 7 0 0 ((s1.seq d).pcOf r) r.q.op.toNat false s1).modSeq d (fun x => { x with frame := none, resuming := false }))
  | _ => s1

/-- TAKEOVER of Sf by S4 (R25): the copy, the failed sequencer gated, DEGRADED. Nothing when S4 already stands in. -/
def takeover (f : Quad) (s : State) : State :=
  match s.arr.takeover with
  | some _ => s
  | none =>
    let s1 := takeoverCopy f.val (abortForTakeover f.val s)
    let s2 := s1.modArr (fun a => { a with takeover := some f })
    let s3 := ((dropAgent f.val s2).setF (cr 8 (0x300 + 8 * (16 + f.val))) 0 3 3).modCore f.val (fun k => { k with run := .held })
    let s4 := s3.reportN 15 2 0 (s.r32 (cr 0 0x18)) (s.r32 (cr 1 0))
    degrade 16 s4

/-- A declaration that sequencer q has failed is recorded, and takeover asks for admission where the policy says so (R433, R435). -/
def declareFailed (q : Nat) (s : State) : State :=
  let s1 := s.reportN 15 2 (0x10 + q) (s.r32 (cr 0 0x18)) (s.r32 (cr 1 0))
  if h : q < 4 then
    if s.arr.takeover.isSome then s1.modArr (fun a => { a with failed := a.failed ||| BitVec.ofNat 4 (2 ^ q) })
    else if s.bit (cr 7 0x18) 31 then
      (match s1.admits (act 13 q 0) with
       | (false, s2) => s2
       | (true, s2) => (takeover ⟨q, h⟩ s2).release 13 q)
    else s1
  else s1

/-- An abort of a routine of partition p, and the declaration that a PARITY abort makes (R111, R112, R433). -/
def abortRoutine (p cause port addr upc op : Nat) (lane : Bool) (s : State) : State :=
  let s1 := abortCore p cause port addr upc op lane s
  if cause = 4 then declareFailed (s.driver p) s1 else s1

end Sys2Proof.Machine
end

