-- ==== Sys2Proof/Machine/Micro.lean ====
section
/-! DEFINITION. Issue of array instructions: boundaries, queue heads, waits and holds, user microwords (R66, R90–R99, R117, R118). -/
namespace Sys2Proof.Machine

/-- A micro channel (R347). -/
def State.micro_ (s : State) (k : Nat) : MicroPort := tget (konst MicroPort.none) s.fab.micro k

/-- The micro channel replaced. -/
def State.setMicro (s : State) (k : Nat) (m : MicroPort) : State :=
  { s with fab := { s.fab with micro := tset (konst MicroPort.none) s.fab.micro k m } }

/-- Partition p has no working sequencer (R25). -/
def State.noSeq (s : State) (p : Nat) : Bool := decide (s.driver p < 4) && s.arr.failed.getLsbD (s.driver p)

/-- A pending shape change alters the membership of partition p (R23). -/
def State.reshapes (s : State) (p : Nat) : Bool :=
  match s.arr.newShape with
  | some v => !(shapeParts v.toNat).contains (s.quads p)
  | none => false

/-- Microwords may issue to partition p: it exists, it has a sequencer, its domains are up, and no shape change that affects it is pending (R23, R25, R355). -/
def State.canIssue (s : State) (p : Nat) : Bool :=
  s.quads p != [] && !s.noSeq p && !s.reshapes p && (s.quads p).all (fun q => (quadDomains q).all s.domUp)

/-- The offers of a tree. -/
def Trees.of (t : Trees) : Tree → List Offer
  | .wick => t.wick | .count => t.count | .first => t.first

/-- An offer at device or system scope is in flight (R97, R126). -/
def wideInFlight (l : List Offer) : Bool := l.any (fun o => o.scope != 0)

/-- The trees a vendor routine offers to (Tables AOP-6 to AOP-9). -/
def QEntry.uses (q : QEntry) (t : Tree) : Bool :=
  let op := q.op.toNat
  let pred := (decide (0x30 ≤ op) && decide (op ≤ 0x3D)) || op == 0x40 || op == 0x41
  match t with
  | .wick => (decide (0x20 ≤ op) && decide (op ≤ 0x29) && op != 0x28) || pred || op == 0x43 || op == 0x45 || (op == 0x50 && q.sgn)
  | .count => (pred && q.red) || op == 0x44
  | .first => op == 0x40 || op == 0x42

/-- The hold of a vendor instruction on its trees: R97 at scope 00, the empty tree of R133 at scopes 01 and 10. -/
def State.treeHeld (s : State) (p : Nat) (q : QEntry) : Bool :=
  [Tree.wick, Tree.count, Tree.first].any (fun t =>
    q.uses t && (if q.scope = 0 then wideInFlight ((s.trees p).of t) else ((s.trees p).of t) != []))

/-- The reductions SELFIRST, ANY, COUNT and READOUT offer in their first microword (R133). -/
def QEntry.offersFirst (q : QEntry) : Bool := decide (0x42 ≤ q.op.toNat) && decide (q.op.toNat ≤ 0x45)

/-- The first microword of an instruction is held (R97, R133). -/
def State.startHeld (s : State) (p : Nat) (q : QEntry) : Bool := q.offersFirst && s.treeHeld p q

/-- The last microword of a vendor routine, which offers E or the predicate, is held (R97, R126). -/
def State.tailHeld (s : State) (p : Nat) (q : QEntry) : Bool := (q.isPred || q.setsE) && s.treeHeld p q

/-- A stop request acts on the decisions of sequencer q. While the lane drains after ARES it waits for the restored routine (log entry 34). -/
def State.stopActs (s : State) (q : Nat) : Bool := s.stopReq q && (s.seq q).frame.isNone

/-- The entry that would issue next in partition p, and whether it comes from the preemption lane (R66, R106, R108, R113). Entries that an ERASE abort left in
the lane issue once it is restarted, before the array queue's. -/
def State.head (s : State) (p : Nat) : Option (QEntry × Bool) :=
  let x := s.seq (s.driver p)
  if !s.canIssue p || x.run.isSome || s.stopActs (s.driver p) then none
  else if x.frame.isSome || (!x.lane.isEmpty && !x.lHalt) then (if x.lHalt then none else x.lane.head?.map (·, true))
  else if x.qHalt then none
  else x.queue.head?.map (·, false)

/-- The head entry leaves its queue. -/
def popHead (p : Nat) (lane : Bool) (s : State) : State :=
  (boundary p s).modSeq (s.driver p) (fun x => if lane then { x with lane := x.lane.tail } else { x with queue := x.queue.tail })

/-- The micro-state at an instruction's first microword (R92). -/
def Routine.start (q : QEntry) (lane : Bool) : Routine :=
  { q := q, lane := lane, upc := if isUser q.op then q.entry else BitVec.ofNat 15 (vupc q 0)
    ar := tset (konst 0) (tset (konst 0) (tset (konst 0) [] 0 q.a) 1 q.b) 2 q.d
    lc := tset (konst 0) [] 0 (BitVec.ofNat 16 q.n), beta := if isUser q.op then 0 else q.beta, issued := 0, steps := 0, byWord := isUser q.op }

/-- The routine in progress replaced. -/
def setRun (p : Nat) (r : Option Routine) (s : State) : State := s.modSeq (s.driver p) (fun x => { x with run := r })

/-- A vendor instruction has run: it aborts, or ends at a boundary with X, C and N free (R67, R111, R112). -/
def vendorEnd (p : Nat) (q : QEntry) (lane : Bool) (r : Run) : State :=
  match r.ab with
  | some (port, addr) => abortRoutine p 1 port addr (vupc q (r.cnt - 1)) q.op.toNat lane (scramble p r.st)
  | none => boundary p (setRun p none (if q.op = 0 then r.st else scramble p r.st))

-- Seam edges of a microword (R97, R122, R123)

/-- Every owned half-edge of e has transmit credit. -/
def State.hasCredit (s : State) (qs : List Nat) (e : Nat) : Bool := (ownedHalves qs e).all (fun h => decide (0 < (s.half e h).crEv))
/-- Every owned receive buffer of e holds a vector. -/
def State.hasData (s : State) (qs : List Nat) (e : Nat) : Bool := (ownedHalves qs e).all (fun h => (s.half e h).rxEv != [])

/-- STX and SRX bits that a microword must wait for. -/
def State.seamHeld (s : State) (p : Nat) (stx srx : BitVec 4) (user : Bool) : Bool :=
  (List.range 4).any (fun e => s.edgeMode p e user == 3 &&
    ((stx.getLsbD e && !s.hasCredit (s.quads p) e) || (srx.getLsbD e && !s.hasData (s.quads p) e)))

-- NMOV (Table PE-6, R125)

/-- Microword k of NMOV, k = 0 … n. -/
def nmovWord (p : Nat) (q : QEntry) (k : Nat) (s : State) : Ctl :=
  let dir := bits q.mod.toNat 3 3
  let e := dir % 4
  let seam := s.edgeMode p e false == 3 && decide (k < q.n)
  { ra := at_ q.a k, wa := at_ q.d (k - 1), tf := ttA, tg := ttX, xsrc := .n, bcast := if k < q.n then none else some false
    nout := if k < q.n then .f else .none, ndir := BitVec.ofNat 3 dir, mdst := if k = 0 then .none else .g, u := q.all
    stx := if seam then BitVec.ofNat 4 (2 ^ ((e + 2) % 4)) else 0, srx := if seam then BitVec.ofNat 4 (2 ^ e) else 0 }

/-- At most `fuel` microwords of NMOV; it stops before one that is held or whose parity fails. -/
def nmovWords (p : Nat) : Nat → RunT → RunT
  | 0, x => x
  | fuel + 1, x =>
    let c := nmovWord p x.t.q x.t.steps x.r.st
    let r := vw p x.t.q c x.r
    if x.r.stops ∨ x.t.q.n < x.t.steps ∨ x.r.st.seamHeld p c.stx c.srx false then x
    else if r.bad.isSome then { x with r := r }
    else nmovWords p fuel { r := r, t := { x.t with steps := x.t.steps + 1, issued := x.t.issued + 1 } }

/-- The physical row of a μPC: the row of its own number, or the spare row it is redirected to, spare row j being numbered 0x5000 + j (R86, R116; log entry
34). -/
def Seq.physRow (x : Seq) (upc : Nat) : Nat := match x.redir.find? (·.1 == upc) with | some e => 0x5000 + e.2 | none => upc

/-- MICROSTORE_PARITY_ERROR (R114): the word does not issue, the partition stalls, and a machine check is raised. An error at a writable μPC that has had one
since the reset is a repeat (R116). -/
def parityError (q upc : Nat) (groups : Nat) (s : State) : State :=
  let rec_ := 2 ^ 60 + q * 2 ^ 56 + groups * 2 ^ 48 + (s.seq q).physRow upc * 2 ^ 24 + upc
  let again := decide (upc < 0x4000) && (s.seq q).hadError.contains upc
  let s1 := ((s.modSeq q (fun x => { x with badWord := true, again := again, hadError := if again || decide (0x4000 ≤ upc) then x.hadError else x.hadError ++ [upc] })).incF (sq q 0x860) 0 8 1).machineCheck (BitVec.ofNat 64 rec_)
  s1.reportN 6 0 (0x10 + q) rec_ (s1.r32 (sq q 0x860))

/-- A vendor routine stops before its next microword; where that word fails its parity, the partition stalls (R98, R114). -/
def stopAt (p : Nat) (t : Routine) (r : Run) : State :=
  match r.bad with
  | some (upc, g) => parityError (r.st.driver p) upc g (setRun p (some { t with upc := BitVec.ofNat 15 upc }) r.st)
  | none => setRun p (some t) r.st

/-- NMOV runs until it ends or is held. -/
def nmovRun (p : Nat) (fuel : Nat) (t : Routine) (s : State) : State :=
  let x := nmovWords p fuel ⟨t.toRun s, t⟩
  if x.r.ab.isSome ∨ t.q.n < x.t.steps then vendorEnd p t.q t.lane x.r else stopAt p x.t x.r

-- Stored microwords (R90–R99, R117, R118)

/-- A destination code of Table MIC-3. -/
def dstOf : Nat → Dst
  | 1 => .f | 2 => .g | _ => .none

/-- A reserved code in a field of a microword (R91); in a user microword SCOPE is taken as 00 whatever it holds (R117). -/
def illegalWord (user : Bool) (w : Nat) : Bool :=
  decide (6 ≤ bits w 131 3) || bits w 91 2 == 3 || bits w 58 2 == 3 || bits w 41 2 == 3 || decide (5 ≤ bits w 38 3) || bits w 36 2 == 3
  || bits w 31 2 == 3 || bits w 29 2 == 3 || bits w 27 2 == 3 || bits w 24 2 == 3 || bits w 22 2 == 3 || bits w 20 2 == 3
  || decide (5 ≤ bits w 17 3) || decide (0x0E ≤ bits w 134 5) || (!user && bits w 44 2 == 3)

/-- A μPC at which no word of the routine lies: outside 0x0000–0x4FFF (R91), or in the user region, which only the fabric plane functions enter (R117; log entry
34). -/
def Routine.lost (r : Routine) : Bool := decide (0x5000 ≤ r.upc.toNat) || (inUser r.upc.toNat && !isUser r.q.op)

/-- AR i. -/
def Routine.ar_ (r : Routine) (i : Nat) : BitVec 12 := tget (konst 0) r.ar i
/-- LC i. -/
def Routine.lc_ (r : Routine) (i : Nat) : BitVec 16 := tget (konst 0) r.lc i

/-- Bit AR6 mod 64 of the captured β. -/
def Routine.betaBit (r : Routine) : Bool := r.beta.getLsbD ((r.ar_ 6).toNat % 64)

/-- The controls of a stored microword (Table MIC-3); STX, SRX, KPL and SCOPE are 0 in a user microword (R117). -/
def wordCtl (r : Routine) (w : Nat) : Ctl :=
  let u := bits w 41 2
  let user := inUser r.upc.toNat
  { ra := r.ar_ (bits w 70 3), wa := r.ar_ (bits w 65 3)
    bcast := if bits w 16 1 = 0 then none else some (match bits w 61 2 with | 0 => false | 1 => true | _ => r.betaBit)
    xsrc := match bits w 17 3 with | 0 => .x | 1 => .d | 2 => .n | 3 => .e | _ => .k
    tf := BitVec.ofNat 8 w, tg := BitVec.ofNat 8 (w / 256), mdst := dstOf (bits w 20 2), xdst := dstOf (bits w 22 2)
    cdst := dstOf (bits w 24 2), edst := dstOf (bits w 27 2), eor := bits w 26 1 == 1, kdst := dstOf (bits w 31 2)
    kmode := match bits w 29 2 with | 0 => .load | 1 => .and | _ => .or
    nout := dstOf (bits w 36 2), ndir := BitVec.ofNat 3 (bits w 33 3)
    rsrc := match bits w 38 3 with | 0 => .none | 1 => .f | 2 => .g | 3 => .k | _ => .e
    u := u == 1 || (u == 2 && r.q.all), swap := bits w 43 1 == 1, wen := bits w 49 1 == 1, ten := bits w 48 1 == 1
    fen := bits w 47 1 == 1, fclr := bits w 46 1 == 1, pos := BitVec.ofNat 6 (r.ar_ 6).toNat, fin := bits w 131 3 == 5
    kpl := !user && bits w 60 1 == 1, stx := if user then 0 else BitVec.ofNat 4 (bits w 54 4), srx := if user then 0 else BitVec.ofNat 4 (bits w 50 4)
    scope := if user then 0 else BitVec.ofNat 2 (bits w 44 2), user := user }

/-- A vector is present on edge e, or none is waited for (R463). -/
def State.edgeReady (s : State) (p e : Nat) (user : Bool) : Bool := s.edgeMode p e user != 3 || s.hasData (s.quads p) e

/-- A WAIT condition is met for a microword of partition p (Table MIC-4, R463). -/
def State.waitMet (s : State) (p code : Nat) (user : Bool) : Bool :=
  let t := s.trees p
  match code with
  | 0x01 => s.edgeReady p 0 user
  | 0x02 => s.edgeReady p 1 user
  | 0x03 => s.edgeReady p 2 user
  | 0x04 => s.edgeReady p 3 user
  | 0x05 => (List.range 4).all (fun e => s.edgeReady p e user)
  | 0x06 => s.allReady (s.quads p)
  | 0x07 => t.wick == []
  | 0x08 => t.count == []
  | 0x09 => t.first == []
  | 0x0A => t.wick == [] && t.count == [] && t.first == []
  | 0x0B => !s.arr.writeBacks.any (fun w => (s.quads p).contains (tileQuad (w.1 / 66)))
  | 0x0C => s.portOpen (s.driver p) && (s.micro_ (s.driver p)).rdy
  | 0x0D => (s.xfer p).isNone
  | _ => true

/-- A stored microword is held by its WAIT condition or an implicit hold (R97); a zeroing of a key row takes the place of the swap and is not held (R95). -/
def wordHeld (p : Nat) (r : Routine) (w : Nat) (s : State) : Bool :=
  let c := wordCtl r w
  let fab := bits w 58 2
  let t := s.trees p
  !s.waitMet p (bits w 134 5) c.user || (c.swap && !(c.kpl && s.inKey p c.wa.toNat) && !s.allReady (s.quads p))
  || s.seamHeld p c.stx c.srx c.user
  || (fab == 1 && !s.waitMet p 0x0C c.user) || (fab == 2 && ((s.micro_ (s.driver p)).offered == [] || !s.portOpen (s.driver p)))
  || (c.scope == 0 && ((c.wen && wideInFlight t.wick) || (c.ten && wideInFlight t.count) || (c.fen && wideInFlight t.first)))

/-- USER_ADDRESS_CHECK (R118): the port and address of the first check that fails, if any: RA before WA (log entry 32). -/
def boundFault (r : Routine) (c : Ctl) : Option (Nat × Nat) :=
  let bad := fun (a : BitVec 12) =>
    decide (a.toNat < r.q.lo.toNat) || decide (r.q.hi.toNat ≤ a.toNat) ||
    (decide (r.q.kbase.toNat ≤ a.toNat) && decide (a.toNat < r.q.kbase.toNat + r.q.klen.toNat))
  let d := (c.mdst.on && !c.u) || c.xsrc == .d || c.swap || c.mdst.on
  if !c.user then none
  else if c.bcast.isNone && bad c.ra then some (1, c.ra.toNat) else if d && bad c.wa then some (2, c.wa.toNat) else none

/-- Whether a COND code holds (Table MIC-3): W, T and F as they stand. -/
def State.cond (s : State) (q : Nat) (r : Routine) (c : Nat) : Bool :=
  match c with
  | 0 => r.betaBit
  | 1 => (s.core q).w != 0
  | 2 => (s.core q).t != 0
  | 3 => (s.core q).f.getLsbD 31
  | c => r.lc_ (c - 4) == 0

/-- Increment codes of RAINC and WAINC. -/
def incOf : Nat → BitVec 12
  | 1 => 1 | 2 => 0xfff | 3 => 64 | _ => 0

/-- The address registers after a microword (R93). -/
def nextAr (r : Routine) (w : Nat) : Table (BitVec 12) :=
  let ras := bits w 70 3
  let was := bits w 65 3
  let rinc := bits w 68 2
  let add := fun (t : Table (BitVec 12)) i v => tset (konst 0) t i (tget (konst 0) t i + v)
  let t1 := add r.ar ras (incOf rinc)
  let t2 := if was = ras ∧ rinc ≠ 0 then t1 else add t1 was (incOf (bits w 63 2))
  let t3 := if bits w 61 2 = 3 then add t2 6 1 else t2
  match bits w 91 2 with
  | 1 => tset (konst 0) t3 (bits w 88 3) (BitVec.ofNat 12 (bits w 73 12))
  | 2 => tset (konst 0) t3 (bits w 88 3) (r.ar_ (bits w 85 3) + BitVec.ofNat 12 (bits w 73 12))
  | _ => t3

/-- The loop counters after a microword (R93, R94). -/
def nextLc (r : Routine) (w : Nat) : Table (BitVec 16) :=
  let i := bits w 109 2
  if bits w 131 3 = 2 then tset (konst 0) r.lc i (r.lc_ i - 1)
  else match bits w 111 2 with
    | 1 => tset (konst 0) r.lc i (BitVec.ofNat 16 (bits w 93 16))
    | 2 => tset (konst 0) r.lc i (BitVec.ofNat 16 (r.q.n + bits w 93 16))
    | 3 => tset (konst 0) r.lc i (r.lc_ i - 1)
    | _ => r.lc

/-- A successor or target μPC: of a user microword it lies in the user region (R117). -/
def upcFrom (user : Bool) (v : Nat) : BitVec 15 := BitVec.ofNat 15 (if user then 0x3000 + v % 4096 else v)

/-- The next μPC, none at END (R94); W, T and F as they stand in the issue cycle. -/
def nextUpc (s : State) (q : Nat) (r : Routine) (w : Nat) : Option (BitVec 15) :=
  let user := inUser r.upc.toNat
  let seq := upcFrom user (r.upc.toNat + 1)
  let target := upcFrom user (bits w 113 15)
  match bits w 131 3 with
  | 0 => some seq
  | 1 => some target
  | 2 => some (if r.lc_ (bits w 109 2) - 1 ≠ 0 then target else seq)
  | 3 => some (if s.cond q r (bits w 128 3) then target else seq)
  | 4 => some (if s.cond q r (bits w 128 3) then seq else target)
  | _ => none

/-- SEQs_UCTL.RLIM as a bound, none for code 0 (R99). -/
def State.runBound (s : State) (q : Nat) : Option Nat := let k := s.fld (sq q 0x840) 4 4; if k = 0 then none else some (2 ^ (k + 9))

/-- The instruction of routine r is a user instruction that has issued as many microwords as its run bound permits, `more` to come. -/
def State.runOut (s : State) (q : Nat) (r : Routine) (more : Nat) : Bool :=
  isUser r.q.op && (match s.runBound q with | some b => decide (b ≤ r.issued + more) | none => false)

/-- The effect of POST and FETCH on the micro channel, and the captured β afterwards (R96, R347). -/
def fabStep (q : Nat) (r : Routine) (w : Nat) (s : State) : Dword × State :=
  let m := s.micro_ q
  match bits w 58 2 with
  | 1 => (r.beta, s.setMicro q { m with offered := m.offered ++
      (Config.designOffer q [(r.ar_ 0).toNat, (r.ar_ 1).toNat, (r.ar_ 2).toNat, r.beta.toNat, r.q.op.toNat]).toList })
  | 2 => (m.offered.headD 0, s.setMicro q { m with offered := m.offered.tail })
  | _ => (r.beta, s)

/-- Issue of stored microword w of routine r in partition p (R92–R99, R111). -/
def wordIssue (p : Nat) (r : Routine) (w : Nat) (s : State) : State :=
  let q := s.driver p
  let nxt := nextUpc s q r w
  let e := cycle p (wordCtl r w) r.upc.toNat s
  let b := fabStep q r w e.st
  let r' : Routine := { r with upc := nxt.getD r.upc, ar := nextAr r w, lc := nextLc r w, beta := b.1, issued := r.issued + 1 }
  match e.abort with
  | some (port, addr) => abortRoutine p 1 port addr r.upc.toNat r.q.op.toNat r.lane b.2
  | none =>
    if nxt.isNone then boundary p (setRun p none b.2)
    else if s.runOut q r 1 then abortRoutine p 6 0 0 r.upc.toNat r.q.op.toNat r.lane b.2
    else setRun p (some r') b.2

/-- A fabric plane function meets a port that answers not ready, in the ac in which its first microword would issue: it ends, with FNR (R82, R345). -/
def notReady (p : Nat) (s : State) : State := settleClear p (boundary p (setRun p none (s.setB (cr 9 (0x300 + 8 * p)) 2)))

/-- One decision of R98 about the next stored microword of partition p. A held word, one that stalls, and one before which a stop request finds a resumption
point leave everything as it is. The parity and the legality of the word are looked at as it is fetched, before the stop request (log entry 34). -/
def wordStep (p : Nat) (s : State) : State :=
  let q := s.driver p
  match (s.seq q).run with
  | none => s
  | some r =>
    let upc := r.upc.toNat
    let word := s.uword q upc
    let w := word % 2 ^ 160
    let ends := fun cause port addr => abortRoutine p cause port addr upc r.q.op.toNat r.lane s
    if !r.byWord || (s.seq q).badWord || !s.canIssue p then s
    else if s.runOut q r 0 then ends 6 0 0
    else if r.lost then ends 3 0 0
    else if badGroups word ≠ 0 then parityError q upc (badGroups word) s
    else if illegalWord (inUser upc) w then ends 3 0 0
    else if s.stopActs q ∧ (bits w 139 1 = 1 ∨ r.issued = 0) then s
    else if wordHeld p r w s then s
    else match boundFault r (wordCtl r w) with
      | some (port, addr) => ends 2 port addr
      | none => if isUser r.q.op ∧ r.issued = 0 ∧ ¬ s.portOpen q then notReady p s else wordIssue p r w s

/-- The routine in progress in partition p has its next microword held (step 3 of R98), or the next instruction its first. -/
def State.isHeld (s : State) (p : Nat) : Bool :=
  let q := s.driver p
  match (s.seq q).run with
  | none => match s.head p with | some (e, _) => s.startHeld p e | none => false
  | some r =>
    if r.byWord then
      let word := s.uword q r.upc.toNat
      !r.lost && badGroups word == 0 && !illegalWord (inUser r.upc.toNat) (word % 2 ^ 160) && wordHeld p r (word % 2 ^ 160) s
    else if r.q.op.toNat = 0x60 then
      let c := nmovWord p r.q r.steps s
      s.seamHeld p c.stx c.srx false
    else if r.q.op.toNat = 0x42 then r.steps != 0 && (s.trees p).first != []
    else decide (vendorParts r.q ≤ r.steps) && s.tailHeld p r.q

/-- Partition p is stalled: a microword of it is held, or waits for its reload (R51). -/
def State.stalled (s : State) (p : Nat) : Bool := (s.seq (s.driver p)).badWord || s.isHeld p

-- Landing of tree offers (R126–R131)

/-- The lowest set bit of a plane, if any. -/
def lowest (v : Plane) : Option Nat := (List.range 1024).findSome? (fun y =>
  let row := v.toNat / 2 ^ (1024 * y) % 2 ^ 1024
  if row = 0 then none else (List.range 1024).findSome? (fun x => if row.testBit x then some (1024 * y + x) else none))

/-- The number of ones of a plane. -/
def popCount (v : Plane) : Nat := (List.range 1024).foldl (fun n y => n + ones 1024 (v.toNat / 2 ^ (1024 * y))) 0

/-- F of a set of offering PEs (R129). -/
def firstF (v : Plane) : Nat := match lowest v with | some i => 2 ^ 31 + i | none => 0

/-- FCLR: K is to be cleared in the offering PEs but the one F names (R131). -/
def clearOthers (p : Nat) (v : Plane) (f : Nat) (s : State) : State :=
  let keep : Plane := if f < 2 ^ 31 then 0 else BitVec.ofNat _ (2 ^ (f - 2 ^ 31))
  s.modArr (fun a => { a with clr := tset (konst 0) a.clr p (tget (konst 0) a.clr p ||| (v &&& ~~~keep)) })

/-- The offers of a tree replaced. -/
def setTree (p : Nat) (t : Tree) (l : List Offer) (s : State) : State :=
  let x := s.trees p
  let y : Trees := match t with | .wick => { x with wick := l } | .count => { x with count := l } | .first => { x with first := l }
  s.modArr (fun a => { a with trees := tset (konst Trees.none) a.trees p y })

/-- An offer of the wick lands in sequencer q (R127). -/
def landWick (p : Nat) (o : Offer) (s : State) : State :=
  let q := s.driver p
  let v := (o.got.getD (b2n (o.bits != 0))) % 2
  if o.exc then if v = 1 then s.modCore q (fun k => { k with sr := k.sr ||| 0x400 }) else s
  else
    let asm := setBits (s.seq q).asm.toNat o.pos.toNat 1 v
    let s1 := s.modSeq q (fun x => { x with asm := BitVec.ofNat 64 asm })
    if o.fin then s1.modCore q (fun k => { k with w := BitVec.ofNat 64 (asm % 2 ^ (o.pos.toNat + 1)) }) else s1

/-- An offer of the count tree lands (R128). -/
def landCount (p : Nat) (o : Offer) (s : State) : State :=
  s.modCore (s.driver p) (fun k => { k with t := BitVec.ofNat 64 (o.got.getD (popCount o.bits)) })

/-- An offer of the first-responder tree lands; its clear waits while the partition is stalled (R129, R131). -/
def landFirst (p : Nat) (o : Offer) (stalled : Bool) (s : State) : State :=
  let f := o.got.getD (firstF o.bits)
  let s1 := s.modCore (s.driver p) (fun k => { k with f := BitVec.ofNat 32 f })
  if o.fclr then when (!stalled) (settleClear p) (clearOthers p o.bits f s1) else s1

/-- The oldest offer of a tree lands: a partition-scope offer, or one whose device or system result is formed (R126, R132). -/
def land (p : Nat) (t : Tree) (s : State) : State :=
  match (s.trees p).of t with
  | [] => s
  | o :: rest =>
    if o.scope ≠ 0 ∧ o.got.isNone then s
    else
      let s1 := setTree p t rest s
      match t with | .wick => landWick p o s1 | .count => landCount p o s1 | .first => landFirst p o (s.stalled p) s1

-- Vendor routines

/-- At most `fuel` further parts of a vendor routine; it stops before a word that fails its parity. -/
def vendorSteps (p : Nat) : Nat → RunT → RunT
  | 0, x => x
  | fuel + 1, x =>
    if x.r.stops ∨ vendorParts x.t.q ≤ x.t.steps then x
    else
      let y := vendorPart p x.t.steps x
      vendorSteps p fuel { y with r := if y.r.stops then y.r else { st := y.r.st, cnt := y.r.cnt }, t := { y.t with issued := y.r.cnt } }

/-- A vendor routine advances by `steps` parts, and ends after the last with the microword that offers its result, which may be held. -/
def vendorRun (p : Nat) (t : Routine) (steps : Option Nat) (s : State) : State :=
  let x := vendorSteps p (steps.getD (vendorParts t.q)) ⟨t.toRun s, t⟩
  if x.r.ab.isSome then vendorEnd p t.q t.lane x.r
  else if x.r.bad.isSome then stopAt p x.t x.r
  else if x.t.steps < vendorParts t.q ∨ x.r.st.tailHeld p t.q then setRun p (some x.t) (scramble p x.r.st)
  else
    let r := vendorTail p t.q x.r
    if r.bad.isSome then stopAt p x.t r else vendorEnd p t.q t.lane r

/-- SELFIRST (R76, R133): its first microword offers K; at scope 00 the instruction ends with the landing, 24 ac later, and at device scope its last microword
waits for it. -/
def selfirstRun (p : Nat) (t : Routine) (s : State) : State :=
  if t.steps = 0 then
    let r := vw p t.q { bcast := noA, rsrc := .k, fen := true, fclr := true, scope := t.q.scope } (t.toRun s)
    if r.bad.isSome then stopAt p t r
    else if t.q.scope = 0 then
      vendorEnd p t.q t.lane { r with st := settleClear p (times ((r.st.trees p).first.length) (fun _ s => land p .first s) r.st) }
    else setRun p (some { t with issued := 1, steps := 1 }) r.st
  else if (s.trees p).first = [] then
    let r := vw p t.q { bcast := noA } (t.toRun s)
    if r.bad.isSome then stopAt p t r else vendorEnd p t.q t.lane r
  else s

/-- The next microword of the routine is a resumption point (R100, R101): the first microword of an instruction, a word with RP = 1, the start of a step or pass
of MUL, MULW, DIV and HASH.KR, the waiting last microword of SELFIRST. -/
def atPoint (s : State) (p : Nat) (r : Routine) : Bool :=
  let q := s.driver p
  let op := r.q.op.toNat
  (r.issued == 0 && r.steps == 0) ||
  (if r.byWord then badGroups (s.uword q r.upc.toNat) == 0 && bits (s.uword q r.upc.toNat) 139 1 == 1
   else if op = 0x42 then true
   else op != 0x60 && decide (r.steps < vendorParts r.q) && r.inPart == 0)

/-- The routine t of partition p runs: word by word where at its start words of it are stored that the part did not load, else by parts; as far as `steps` and
its holds let it. A word whose parity fails stalls it there, and it goes on from that word (R98, R114, R115). -/
def runRoutine (p : Nat) (steps : Option Nat) (t : Routine) (s : State) : State :=
  let q := s.driver p
  let s0 := setRun p (some t) s
  if (s.seq q).badWord || !s.canIssue p || (s.stopActs q && atPoint s p t) then s0
  else
    let ws := if t.issued = 0 ∧ t.steps = 0 then (s.altered p t.q).filter (fun e => badGroups e.2.toNat == 0) else []
    if t.byWord ∨ ws ≠ [] then
      let t1 := if t.byWord then t else { Routine.start t.q t.lane with byWord := true }
      times (steps.getD 65536) (fun _ s => wordStep p s) (setRun p (some t1) s)
    else match t.q.op.toNat with
      | 0x60 => nmovRun p (steps.getD (t.q.n + 1)) t s
      | 0x42 => selfirstRun p t s
      | _ => vendorRun p t steps s

/-- The instruction of opcode op in partition p starts where it is the next and its first microword is not held, or goes on from where it stopped (R66, R97,
R100). -/
def runOp (p op : Nat) (steps : Option Nat) (s : State) : State :=
  match (s.seq (s.driver p)).run with
  | some t => if t.q.op.toNat = op then runRoutine p steps t s else s
  | none => match s.head p with
    | some (q, lane) => if q.op.toNat = op ∧ ¬ s.startHeld p q then runRoutine p steps (Routine.start q lane) (popHead p lane s) else s
    | none => s

/-- The routine in progress goes on by up to `steps` parts or microwords. -/
def goOn (p : Nat) (steps : Option Nat) (s : State) : State :=
  match (s.seq (s.driver p)).run with
  | some t => runRoutine p steps t s
  | none => s

end Sys2Proof.Machine
end

