-- ==== Sys2Proof/Machine/ArrayInsn.lean ====
section
/-! DEFINITION. The array instructions as commands: the head of a partition's queue or lane executes (chapter 03). A command whose opcode is
not at the head, or whose trees are not free, changes nothing (log entries 5, 8). -/
namespace Sys2Proof.Machine

/-- ANOP occupies one array cycle and changes nothing (R71). -/
def execAnop (p : Quad) (s : State) : Out := .next (runOp p 0x00 none s)

/-- MOV: D := A as if every source bit were read first (R79). -/
def execArrayMov (p : Quad) (s : State) : Out := .next (runOp p 0x01 none s)

/-- MOVB: D := β (R71). -/
def execMovb (p : Quad) (s : State) : Out := .next (runOp p 0x02 none s)

/-- NOT: D := the complement of A (R71). -/
def execArrayNot (p : Quad) (s : State) : Out := .next (runOp p 0x03 none s)

/-- AND: D := A and B (R71). -/
def execArrayAnd (p : Quad) (s : State) : Out := .next (runOp p 0x04 none s)

/-- OR: D := A or B (R71). -/
def execArrayOr (p : Quad) (s : State) : Out := .next (runOp p 0x05 none s)

/-- XOR: D := A xor B (R71). -/
def execArrayXor (p : Quad) (s : State) : Out := .next (runOp p 0x06 none s)

/-- ANDN: D := A and not B (R71). -/
def execArrayAndn (p : Quad) (s : State) : Out := .next (runOp p 0x07 none s)

/-- ANDB: D := A and β (R71). -/
def execAndb (p : Quad) (s : State) : Out := .next (runOp p 0x08 none s)

/-- ORB: D := A or β (R71). -/
def execOrb (p : Quad) (s : State) : Out := .next (runOp p 0x09 none s)

/-- XORB: D := A xor β (R71). -/
def execXorb (p : Quad) (s : State) : Out := .next (runOp p 0x0A none s)

/-- EMOV: D := E; E is unchanged (R78). -/
def execEmov (p : Quad) (s : State) : Out := .next (runOp p 0x0B none s)

/-- KPUSH: D := K, then K := K and A (R71). -/
def execKpush (p : Quad) (s : State) : Out := .next (runOp p 0x0C none s)

/-- KELSE: K := D and not K (R71). -/
def execKelse (p : Quad) (s : State) : Out := .next (runOp p 0x0D none s)

/-- KPOP: K := A (R71). -/
def execKpop (p : Quad) (s : State) : Out := .next (runOp p 0x0E none s)

/-- ECLR: E := 0 in the PEs that the mode names (R78). -/
def execEclr (p : Quad) (s : State) : Out := .next (runOp p 0x0F none s)

/-- ADD: D := A + B (R77–R79). -/
def execArrayAdd (p : Quad) (s : State) : Out := .next (runOp p 0x20 none s)

/-- SUB: D := A − B (R77–R79). -/
def execArraySub (p : Quad) (s : State) : Out := .next (runOp p 0x21 none s)

/-- ADDB: D := A + β (R79). -/
def execAddb (p : Quad) (s : State) : Out := .next (runOp p 0x22 none s)

/-- SUBB: D := A − β (R79). -/
def execSubb (p : Quad) (s : State) : Out := .next (runOp p 0x23 none s)

/-- RSUBB: D := β − A (R79). -/
def execRsubb (p : Quad) (s : State) : Out := .next (runOp p 0x24 none s)

/-- NEG: D := −A (R77). -/
def execArrayNeg (p : Quad) (s : State) : Out := .next (runOp p 0x25 none s)

/-- ABS: D := |A| (R77). -/
def execArrayAbs (p : Quad) (s : State) : Out := .next (runOp p 0x26 none s)

/-- CMPEQ: r := A = B (R72). -/
def execCmpeq (p : Quad) (s : State) : Out := .next (runOp p 0x30 none s)

/-- CMPNE: r := A ≠ B (R72). -/
def execCmpne (p : Quad) (s : State) : Out := .next (runOp p 0x31 none s)

/-- CMPLT: r := A < B (R72). -/
def execCmplt (p : Quad) (s : State) : Out := .next (runOp p 0x32 none s)

/-- CMPLE: r := A ≤ B (R72). -/
def execCmple (p : Quad) (s : State) : Out := .next (runOp p 0x33 none s)

/-- CMPGT: r := A > B (R72). -/
def execCmpgt (p : Quad) (s : State) : Out := .next (runOp p 0x34 none s)

/-- CMPGE: r := A ≥ B (R72). -/
def execCmpge (p : Quad) (s : State) : Out := .next (runOp p 0x35 none s)

/-- TESTZ: r := A = 0 (R72). -/
def execTestz (p : Quad) (s : State) : Out := .next (runOp p 0x36 none s)

/-- TESTNZ: r := A ≠ 0 (R72). -/
def execTestnz (p : Quad) (s : State) : Out := .next (runOp p 0x37 none s)

/-- CMPEQB: r := A = β (R72). -/
def execCmpeqb (p : Quad) (s : State) : Out := .next (runOp p 0x38 none s)

/-- CMPNEB: r := A ≠ β (R72). -/
def execCmpneb (p : Quad) (s : State) : Out := .next (runOp p 0x39 none s)

/-- CMPLTB: r := A < β (R72). -/
def execCmpltb (p : Quad) (s : State) : Out := .next (runOp p 0x3A none s)

/-- CMPLEB: r := A ≤ β (R72). -/
def execCmpleb (p : Quad) (s : State) : Out := .next (runOp p 0x3B none s)

/-- CMPGTB: r := A > β (R72). -/
def execCmpgtb (p : Quad) (s : State) : Out := .next (runOp p 0x3C none s)

/-- CMPGEB: r := A ≥ β (R72). -/
def execCmpgeb (p : Quad) (s : State) : Out := .next (runOp p 0x3D none s)

/-- FIND: r := A = β, offered to the first-responder tree too (R73). -/
def execFind (p : Quad) (s : State) : Out := .next (runOp p 0x40 none s)

/-- MATCH.MASKED: r := A = β at the care bits (R74). -/
def execMatchMasked (p : Quad) (s : State) : Out := .next (runOp p 0x41 none s)

/-- ANY: A[0] offered to the wick (R127). -/
def execAny (p : Quad) (s : State) : Out := .next (runOp p 0x43 none s)

/-- COUNT: A[0] offered to the count tree (R128). -/
def execCount (p : Quad) (s : State) : Out := .next (runOp p 0x44 none s)

/-- READOUT: A offered to the wick bit by bit, into W (R76). -/
def execReadout (p : Quad) (s : State) : Out := .next (runOp p 0x45 none s)

/-- SHL: D := A × 2^s (R77). -/
def execArrayShl (p : Quad) (s : State) : Out := .next (runOp p 0x50 none s)

/-- SHR: D := A div 2^s (R77). -/
def execArrayShr (p : Quad) (s : State) : Out := .next (runOp p 0x51 none s)

/-- SAR: D := A shifted right, sign-filled (R77). -/
def execArraySar (p : Quad) (s : State) : Out := .next (runOp p 0x52 none s)

/-- ROL: D := A rotated left (R79). -/
def execArrayRol (p : Quad) (s : State) : Out := .next (runOp p 0x53 none s)

/-- ROR: D := A rotated right (R79). -/
def execArrayRor (p : Quad) (s : State) : Out := .next (runOp p 0x54 none s)

/-- HASH.KR: one Keccak-f[1600] round, in resumable parts (R80). -/
def execHashKr (h : HashRun) (s : State) : Out := .next (runOp h.p 0x70 h.steps s)

/-- MUL: D := the low n bits of A × B, in resumable steps (R79). -/
def execMul (p : Quad) (steps : Option Nat) (s : State) : Out := .next (runOp p 0x27 steps s)

/-- MULW: D := A × B, 2n bits (R79). -/
def execMulw (p : Quad) (steps : Option Nat) (s : State) : Out := .next (runOp p 0x28 steps s)

/-- DIV: D := quotient and remainder of A by B (R79). -/
def execDiv (p : Quad) (steps : Option Nat) (s : State) : Out := .next (runOp p 0x29 steps s)

/-- SELFIRST: F := the lowest active PE, the only one left active (R76). -/
def execSelfirst (p : Quad) (s : State) : Out := .next (runOp p 0x42 none s)

/-- NMOV: D := A of the neighbour that DIR names (R125). -/
def execNmov (p : Quad) (s : State) : Out := .next (runOp p 0x60 none s)

/-- FABRIC_PLANE_FUNCTION: the user routine of opcode 0xE0 + j starts and issues up to `issue` microwords, or ends at once with FNR (R82). -/
def execFabricPlaneFunction (p : Quad) (issue : Nat) (s : State) : Out :=
  match s.head p with
  | some (q, lane) => if isUser q.op then .next (runRoutine p (some issue) (Routine.start q lane) (popHead p lane s)) else .next s
  | none => .next s

/-- HELD_MICROWORD_RELEASE: the routine in progress goes on, as far as its waits and holds let it, by up to `issue` microwords, or parts of a vendor routine
(R98). -/
def execHeldMicrowordRelease (p : Quad) (issue : Nat) (s : State) : Out := .next (goOn p (some issue) s)

end Sys2Proof.Machine
end

