-- ==== Sys2Proof/Machine/Cells.lean ====
section
/-! DEFINITION. The running fabric: cells, flip-flops, RAM blocks, clocks, pins, interrupt lines, hard blocks, and a design's turn at a tick (R322–R333, R337,
R338, R345–R347). The spec gives no layout of the frames and no map of the routing: both are free functions of Config (log entry 41). -/
namespace Sys2Proof.Machine

/-- The fabric changed by a function. -/
def State.modFab (s : State) (f : FabState → FabState) : State := { s with fab := f s.fab }

/-- TYPE, region and the logic column of a frame address. -/
def faType (a : Nat) : Nat := bits a 28 4
@[inherit_doc faType] def faRegion (a : Nat) : Nat := bits a 24 4
/-- The minor number of a frame address, by its type (Table FAB-6). -/
def faMinor (a : Nat) : Nat := match faType a with | 0 => bits a 10 5 | 1 => bits a 14 6 | 3 => bits a 0 6 | _ => 0

/-- The contents of a frame as the fabric has them. -/
def State.frame (s : State) (a : Nat) : BitVec 512 := (tget (konst Frame512.zero) s.fab.frames a).now
/-- The 24 frames of logic block b, numbered by region × 384 + row × 6 + column. -/
def State.blockFrames (s : State) (b : Nat) : List (BitVec 512) :=
  (List.range 24).map (fun m => s.frame (b / 384 * 2 ^ 24 + b % 384 / 6 * 2 ^ 18 + b % 6 * 2 ^ 15 + m * 2 ^ 10))
/-- The start-up phase of a region (R338). -/
def State.phase (s : State) (r : Nat) : Nat := tget (konst 0) s.fab.phase r

-- Cells and drivers (R322–R326)

/-- A cell in whole mode: O6 (R322). -/
def cellWhole (t : BitVec 64) (i : BitVec 6) : Bool := t.getLsbD i.toNat

/-- A cell in split mode: OA and OB (R322). -/
def cellSplit (t : BitVec 64) (i : BitVec 5) : Bool × Bool := (t.getLsbD i.toNat, t.getLsbD (32 + i.toNat))

/-- A flip-flop at its clock edge: set/reset before CE (R323). `sr` is a configured set/reset whose input is 1. -/
def ffEdge (sr srval ce d q : Bool) : Bool := if sr then srval else if ce then d else q

/-- What a multiplexer passes of its inputs: the lowest-numbered selected one, or 0 (R325, R326). -/
def muxOut (sel : BitVec 64) (inputs : Nat → Bool) : Bool :=
  match (List.range 64).find? (fun i => sel.getLsbD i) with
  | some i => inputs i
  | none => false

/-- The two table results of a cell: OA and OB, or O6 in both places (R322). -/
def cellTables (c : CellSetting) (i : BitVec 6) : Bool × Bool :=
  if c.split then cellSplit c.table (i.setWidth 5) else (cellWhole c.table i, cellWhole c.table i)

/-- The select field of input n of a cell, in its block's frames. -/
def cellSelect (fr : List (BitVec 512)) (k : Fin 16) (n : Nat) : BitVec 64 :=
  let p := Config.cellPlace k n
  (Config.selects 0 p.1 (fr.getD p.1 0)).getD p.2 0

/-- Input n of cell k of a block, from the block's crossbar: its own outputs low, the routing high (R325). -/
def cellInput (fr : List (BitVec 512)) (x : BitVec 64) (k : Fin 16) (n : Nat) : Bool := muxOut (cellSelect fr k n) (fun i => x.getLsbD i)

/-- The table results of cell k. -/
def cellResult (fr : List (BitVec 512)) (x : BitVec 64) (k : Fin 16) : Bool × Bool :=
  cellTables (Config.cellSetting fr k) (BitVec.ofNat 6 ((List.range 6).foldl (fun v n => v + b2n (cellInput fr x k n) * 2 ^ n) 0))

/-- A word of 32 bits: one bit for each cell, and above them another for each. -/
def perCell (f : Fin 16 → Bool × Bool) : BitVec 32 :=
  BitVec.ofNat 32 ((List.range 16).foldl (fun v k => v + b2n (f (Fin.ofNat 16 k)).1 * 2 ^ k + b2n (f (Fin.ofNat 16 k)).2 * 2 ^ (16 + k)) 0)

/-- A flip-flop as it stands, or as an asynchronous set/reset holds it (R323). -/
def ffHeld (f : FfSetting) (sr q : Bool) : Bool := if f.sr = .async ∧ sr then f.srval else q

/-- A block's flip-flops under their asynchronous set/resets. -/
def blockHeld (fr : List (BitVec 512)) (x : BitVec 64) (q : BitVec 32) : BitVec 32 :=
  perCell (fun k =>
    let c := Config.cellSetting fr k
    (ffHeld c.qa (cellInput fr x k 9) (q.getLsbD k.val), ffHeld c.qb (cellInput fr x k 11) (q.getLsbD (16 + k.val))))

/-- A block's outputs: of each cell two, a table result or a flip-flop (R322). -/
def blockOut (fr : List (BitVec 512)) (x : BitVec 64) (q : BitVec 32) : BitVec 32 :=
  perCell (fun k =>
    let c := Config.cellSetting fr k
    let t := cellResult fr x k
    (if c.outQa then q.getLsbD k.val else t.1, if c.outQb then q.getLsbD (16 + k.val) else t.2))

/-- A block settles: its flip-flops and outputs with what its routing brings; a path inside it runs through at most its 16 cells. -/
def settleBlock (fr : List (BitVec 512)) (route q : BitVec 32) : BitVec 32 × BitVec 32 :=
  (List.range 17).foldl (fun p _ => let x := route ++ p.2; (blockHeld fr x p.1, blockOut fr x (blockHeld fr x p.1))) (q, 0)

/-- A flip-flop where the clocks of `hit` have their edges (R323). -/
def ffClocked (hit : ClockEdge → Bool) (f : FfSetting) (sr ce d q : Bool) : Bool :=
  if f.sr = .async ∧ sr then f.srval
  else if hit f.edge then ffEdge (f.sr == .sync && sr) f.srval (!f.ce || ce) d q
  else q

/-- A block's flip-flops at the edges of `hit`: D of QA is O6, OA or BA, D of QB is OB or BB (R322, R323). -/
def blockEdge (hit : ClockEdge → Bool) (fr : List (BitVec 512)) (x : BitVec 64) (q : BitVec 32) : BitVec 32 :=
  perCell (fun k =>
    let c := Config.cellSetting fr k
    let t := cellResult fr x k
    let i := cellInput fr x k
    (ffClocked hit c.qa (i 9) (i 8) (if c.bypassA then i 6 else t.1) (q.getLsbD k.val),
     ffClocked hit c.qb (i 11) (i 10) (if c.bypassB then i 7 else t.2) (q.getLsbD (16 + k.val))))

-- RAM blocks (R324)

/-- The width of a port, and its words. -/
def ramWidth (w : Fin 6) : Nat := [1, 2, 4, 9, 18, 36].getD w.val 36
@[inherit_doc ramWidth] def ramDepth (w : Fin 6) : Nat := 16384 / 2 ^ w.val

/-- The word of a port at an address: word a of width w lies in the w bits from w × a on, which is the model's choice (log entry 41). -/
def ramWord (w : Nat) (m : BitVec 18432) (a : Nat) : Nat := bits m.toNat (w * a) w

/-- A port at its edge: its settings, address and data. -/
structure RamTurn where
  port : RamPort
  input : RamInput

/-- Its word's number. -/
def RamTurn.at_ (t : RamTurn) : Nat := t.input.addr.toNat % ramDepth t.port.width

/-- What it writes. -/
def RamTurn.put (t : RamTurn) (m : BitVec 18432) : BitVec 18432 :=
  match t.input.data with
  | some d => BitVec.ofNat 18432 (setBits m.toNat (ramWidth t.port.width * t.at_) (ramWidth t.port.width) d.toNat)
  | none => m

/-- What it reads: with its own write at WRITE_FIRST the new data, else the old. -/
def RamTurn.get (t : RamTurn) (m : BitVec 18432) : BitVec 36 :=
  BitVec.ofNat 36 (ramWord (ramWidth t.port.width) (if t.port.writeFirst then t.put m else m) t.at_)

/-- An edge of a RAM block, at the ports that it clocks: a port whose clock does not come keeps its output; across ports the old data are read, and port A's write
wins (R324). -/
def ramEdge (m : BitVec 18432) (q : BitVec 72) (a b : Option RamTurn) : BitVec 18432 × BitVec 72 :=
  let put := fun (t : Option RamTurn) (m : BitVec 18432) => match t with | some t => t.put m | none => m
  let get := fun (t : Option RamTurn) (old : BitVec 36) => match t with | some t => t.get m | none => old
  (put a (put b m), get b (q.extractLsb' 36 36) ++ get a (q.setWidth 36))

-- Pins (R328, R330, Table FAB-8)

/-- A pad: the level that it drives, none at high impedance; whether its input buffer is on; its weak pull, coded as a safe pull; its slew; and its drive, 4 mA a step from 0. -/
structure Pad where
  drive : Option Bool
  input : Bool
  pull : Fin 4
  slow : Bool
  strength : Nat
  deriving DecidableEq, Repr

/-- A key of the dictionary. -/
def dkey (i sub : Nat) : Nat := i * 256 + sub

/-- The default of an entry that no register holds, by key: prefix length, heartbeat period, safe pulls; else 0 (Table DICT-11). -/
def dictDefault (k : Nat) : Dword :=
  if k = dkey 0x1101 3 then 1000 else if k = dkey 0x1110 3 then 24 else if k = dkey 0x6001 1 ∨ k = dkey 0x6001 2 then 0x5555555555555555 else 0

/-- The value of an entry that no register holds. -/
def State.dval (s : State) (i sub : Nat) : Nat := (tget dictDefault s.dict.vals (dkey i sub)).toNat

/-- The level of a supply: 0 1.8 V, 1 2.5 V, 2 3.3 V; none outside the three ranges (R460). -/
def supplyLevel (mv : Nat) : Option Nat :=
  if 1620 ≤ mv ∧ mv ≤ 1980 then some 0 else if 2250 ≤ mv ∧ mv ≤ 2750 then some 1 else if 3000 ≤ mv ∧ mv ≤ 3600 then some 2 else none
/-- The level of an FIO bank, as its supply is measured (R328, R460). -/
def State.bankLevel (s : State) (b : Nat) : Option Nat := supplyLevel (Config.bankSupply s.free b)

/-- The safe pull of a pin: while domain F is off as the pilot holds it, else the dictionary's; the factory default is pull-up; none without a supply of its bank in
range (R330, R460). -/
def State.safePull (s : State) (k : Nat) : Fin 4 :=
  let live := if s.domUp 30 then s.dval 0x6001 (k / 32 + 1) else (tget (konst 0x5555555555555555) s.fab.pulls (k / 32)).toNat
  if (s.bankLevel (k / 32)).isSome then Fin.ofNat 4 (bits live (2 * (k % 32)) 2) else 0

/-- The I/O cell of a pin, where its frame configures one: a drive above the ceiling is the ceiling (R329). -/
def State.ioCell (s : State) (k : Nat) : Option IoCell :=
  (Config.ioCells (s.frame (2 * 2 ^ 28 + k / 4 * 2 ^ 24)))[k % 4]?.map (fun c => { c with drive := min c.drive Config.fioDrive.toNat })

/-- The pad of FIO pin k: as the design configures it once its region's I/O is enabled, else high-impedance, its input disabled, its safe pull applied, domain F on or
off (R330, R338, Table FAB-8). -/
def State.pad (s : State) (k : Nat) : Pad :=
  match (s.ioCell k).filter (fun _ => decide (4 ≤ s.phase (k / 4))) with
  | none => ⟨none, false, s.safePull k, false, 0⟩
  | some c =>
    let level := s.fab.pinOut.getLsbD k
    ⟨match c.dir with | .input => none | .output => some level | .both => if s.fab.pinOe.getLsbD k then some level else none, c.dir != .output, c.pull, c.slow, c.drive⟩

/-- The levels that the design sees at the pins: 0 at a pin whose input is disabled. -/
def State.pinsIn (s : State) : BitVec 64 :=
  Config.pinLevels s.free &&& BitVec.ofNat 64 ((List.range 64).foldl (fun v k => v + b2n (s.pad k).input * 2 ^ k) 0)

-- Clocks (R327, R331)

/-- What a spine carries: spine 0 always fc (R327). -/
def State.spine (s : State) (k : Fin 16) : SpineSource :=
  if k = 0 then .fc else Config.spineSource ((List.range 64).map (fun m => s.frame (3 * 2 ^ 28 + m))) k

/-- A rate held within a tolerance in percent of its nominal value. -/
def tolerance (hz percent v : Nat) : Nat := max (hz * (100 - percent) / 100) (min (hz * (100 + percent) / 100) v)

/-- The 40 MHz ring oscillator, ±10 % (Table FAB-4). -/
def fixedHz : Nat := tolerance 40000000 10 Config.fixedOsc

/-- The trimmable ring oscillator: 400 MHz ±15 % at trim 0x80, and 0.4 % of that a step (Table FAB-4). -/
def trimHz (trim : Byte) : Nat :=
  let n := tolerance 400000000 15 Config.trimOsc
  ((n : Int) + (n : Int) * ((trim.toNat : Int) - 128) * 4 / 1000).toNat

/-- The rate in Hz of a source that the part itself makes; none for a pin or a wire. -/
def State.sourceHz (s : State) : SpineSource → Option Nat
  | .fc => some (s.r32 (fb 0x50) * 1000000)
  | .fcHalf => some (s.r32 (fb 0x50) * 500000)
  | .fcQuarter => some (s.r32 (fb 0x50) * 250000)
  | .osc400 => some (trimHz s.fab.hard.trim)
  | .osc40 => some fixedHz
  | .pilot => some 32768
  | .pin _ => none
  | .wire => none

/-- What a source carries on a spine in Hz: at most 600 MHz (R327). -/
def State.spineHz (s : State) (x : SpineSource) : Option Nat := (s.sourceHz x).map (min 600000000)

/-- An edge of a source: its number, the odd ones rising, and its time as a fraction in ns. -/
structure SourceEdge where
  source : SpineSource
  number : Nat
  num : Nat
  den : Nat

/-- One edge comes before another, or with it. -/
def SourceEdge.before (a b : SourceEdge) : Bool := decide (a.num * b.den ≤ b.num * a.den)
@[inherit_doc SourceEdge.before] def SourceEdge.with_ (a b : SourceEdge) : Bool := a.before b && b.before a

/-- The edges of a source between two times in ns: two in each period of its rate (R327, R331). -/
def State.sourceEdges (s : State) (x : SpineSource) (t0 t1 : Nat) : List SourceEdge :=
  match s.spineHz x with
  | none => []
  | some hz =>
    let phase := if x = .osc400 ∨ x = .osc40 ∨ x = .pilot then Config.oscPhase x else 0
    let upTo := fun (t : Nat) => (2 * hz * t + phase) / 1000000000
    (List.range (upTo t1 - upTo t0)).map (fun i => let k := upTo t0 + 1 + i; ⟨x, k, 1000000000 * k - phase, 2 * hz⟩)

/-- An edge put among others in the order of their times. -/
def insertEdge (e : SourceEdge) : List SourceEdge → List SourceEdge
  | [] => [e]
  | x :: xs => if e.before x then e :: x :: xs else x :: insertEdge e xs

/-- Edges in order, those of one moment together. -/
def moments : List SourceEdge → List (List (ClockSignal × Bool))
  | [] => []
  | e :: es =>
    let me := (ClockSignal.source e.source, e.number % 2 == 1)
    match es, moments es with
    | x :: _, m :: ms => if e.with_ x then (me :: m) :: ms else [me] :: m :: ms
    | _, ms => [me] :: ms

/-- The clock edges that the part's own sources make between two times, moment by moment. -/
def State.clockMoments (s : State) (t0 t1 : Nat) : List (List (ClockSignal × Bool)) :=
  moments (([.fc, .fcHalf, .fcQuarter, .osc400, .osc40, .pilot].flatMap (fun x => s.sourceEdges x t0 t1)).foldr insertEdge [])

/-- The edges that the pins of the spines make: FIO0, FIO1, FIO32, FIO33, where a level that the design sees changes (R327). -/
def pinMoment (was is_ : BitVec 64) : List (ClockSignal × Bool) :=
  ((List.range 4).filter (fun n => let k := [0, 1, 32, 33].getD n 0; was.getLsbD k != is_.getLsbD k)).map
    (fun n => (.source (.pin (Fin.ofNat 4 n)), is_.getLsbD ([0, 1, 32, 33].getD n 0)))

/-- A clock edge of a setting is among those of one moment, where `tap` numbers the wires that reach the block (R323, R327). -/
def State.hit (s : State) (now : List (ClockSignal × Bool)) (tap : Nat → Nat) (e : ClockEdge) : Bool :=
  let signal := match e.clock with
    | .wire n => ClockSignal.wire (tap n)
    | .spine k => match s.spine k with | .wire => .wire (Config.spineWire k) | x => .source x
  now.contains (signal, e.rising)

-- The design's network (R325, R326, R337, R341)

/-- The levels of the network: the routing wires, and each block's flip-flops and outputs. -/
structure FabNet where
  wire : Nat → Bool
  block : Nat → BitVec 32 × BitVec 32

/-- The region of a driver; none for one of no region. -/
def driverRegion : Driver → Option (Fin 16)
  | .wire n => Config.wireRegion n
  | .block b _ => some (Fin.ofNat 16 (b / 384))
  | .ram b _ => some (Fin.ofNat 16 (b / 16))
  | .pin k => some (Fin.ofNat 16 (k.val / 4))
  | .hard _ => none

/-- The level of a driver. -/
def State.netLevel (s : State) (x : FabNet) : Driver → Bool
  | .wire n => x.wire n
  | .block b i => (x.block b).2.getLsbD i.val
  | .ram b i => (tget (konst 0) s.fab.ramOut b).getLsbD i.val
  | .pin k => s.pinsIn.getLsbD k.val
  | .hard n => Config.hardLevel s.free n

/-- A driver is an output of region r to another region, seen from wire w. -/
def leaves (r : Fin 16) (w : Nat) (d : Driver) : Bool := driverRegion d == some r && Config.wireRegion w != some r

/-- A driver as wire w sees it: an output into another region is as the isolation latches hold it before phase 3 of its own (R337, R341). -/
def State.seen (s : State) (x : FabNet) (w : Nat) (d : Driver) : Bool :=
  match driverRegion d with
  | some r => if leaves r w d ∧ s.phase r.val < 3 then s.fab.latch.contains d else s.netLevel x d
  | none => s.netLevel x d

/-- What a wire carries: what its multiplexer passes (R325, R326). -/
def State.wireLevel (s : State) (x : FabNet) (w : Nat) : Bool :=
  let p := Config.wirePlace w
  let a := p.1
  muxOut ((Config.selects (faType a) (faMinor a) (s.frame a)).getD p.2 0)
    (fun i => match (Config.wireInputs w)[i]? with | some d => s.seen x w d | none => false)

/-- What the routing brings to a logic block. -/
def FabNet.toBlock (x : FabNet) (b : Nat) : BitVec 32 :=
  BitVec.ofNat 32 ((List.range 32).foldl (fun v i => v + b2n (x.wire (Config.blockWire b i)) * 2 ^ i) 0)

/-- The network one step nearer to rest: every wire follows its multiplexer, every block its routing; flip-flops are held until their region's clocks start. -/
def State.netStep (s : State) (x : FabNet) : FabNet :=
  { wire := s.wireLevel x
    block := fun b =>
      let q := tget (konst 0) s.fab.ff b
      let y := settleBlock (s.blockFrames b) (x.toBlock b) q
      if 2 ≤ s.phase (b / 384) then y else (q, y.2) }

/-- The network at rest: a path leads through each wire and each block at most once. -/
def State.net (s : State) : FabNet :=
  (List.range (Config.wireCount + 6144)).foldl (fun x _ => s.netStep x)
    { wire := fun w => s.fab.wires.contains w, block := fun b => (tget (konst 0) s.fab.ff b, 0) }

/-- The logic blocks, and the RAM blocks, of the regions whose clocks have started. -/
def State.runningBlocks (s : State) : List Nat := ((List.range 16).filter (fun r => decide (2 ≤ s.phase r))).flatMap (fun r => (List.range 384).map (fun i => r * 384 + i))
@[inherit_doc State.runningBlocks] def State.runningRams (s : State) : List Nat :=
  ((List.range 16).filter (fun r => decide (2 ≤ s.phase r))).flatMap (fun r => (List.range 16).map (fun i => r * 16 + i))

/-- The network comes to rest: its wires, and the flip-flops that asynchronous set/resets hold. -/
def settleFabric (s : State) : State :=
  let x := s.net
  s.modFab (fun f => { f with
    wires := (List.range Config.wireCount).filter x.wire
    ff := s.runningBlocks.foldl (fun t b => tset (konst 0) t b (x.block b).1) f.ff })

/-- What a port of a RAM block is given. -/
def FabNet.toRam (x : FabNet) (b : Nat) (p : Fin 2) : RamInput :=
  let field := fun (i n : Nat) => (List.range n).foldl (fun v j => v + b2n (x.wire (Config.ramWire b p (i + j))) * 2 ^ j) 0
  ⟨BitVec.ofNat 14 (field 0 14), if x.wire (Config.ramWire b p 50) then some (BitVec.ofNat 36 (field 14 36)) else none⟩

/-- Logic block b at the edges of one moment, its region's clock gates being open. -/
def State.ffNext (s : State) (x : FabNet) (now : List (ClockSignal × Bool)) (b : Nat) : BitVec 32 :=
  blockEdge (s.hit now (Config.blockWire b)) (s.blockFrames b) (x.toBlock b ++ (x.block b).2) (x.block b).1

/-- RAM block b, numbered by region × 16 + block, at the edges of one moment. -/
def State.ramNext (s : State) (x : FabNet) (now : List (ClockSignal × Bool)) (b : Nat) : BitVec 18432 × BitVec 72 :=
  let set := Config.ramSetting (s.frame (2 ^ 28 + b / 16 * 2 ^ 24 + b % 16 * 2 ^ 20))
  let turn := fun (p : RamPort) (k : Fin 2) => if s.hit now (Config.ramWire b k) p.edge then some (RamTurn.mk p (x.toRam b k)) else none
  ramEdge (tget (konst 0) s.fab.ram b) (tget (konst 0) s.fab.ramOut b) (turn set.1 0) (turn set.2 1)

/-- The edges of one moment: flip-flops and RAM blocks of every region whose clocks have started take them together (R323, R324, R327, R338). -/
def fabricEdge (now : List (ClockSignal × Bool)) (s : State) : State :=
  let x := s.net
  s.modFab (fun f => { f with
    ff := s.runningBlocks.foldl (fun t b => tset (konst 0) t b (s.ffNext x now b)) f.ff
    ram := s.runningRams.foldl (fun t b => tset (konst 0) t b (s.ramNext x now b).1) f.ram
    ramOut := s.runningRams.foldl (fun t b => tset (konst 0) t b (s.ramNext x now b).2) f.ramOut })

/-- The edges that wires make where they change. -/
def wireMoment (was is_ : List Nat) : List (ClockSignal × Bool) :=
  ((List.range Config.wireCount).filter (fun w => was.contains w != is_.contains w)).map (fun w => (.wire w, is_.contains w))

/-- The network comes to rest, and the wires that changed clock what they reach, as often as there are wires at the most (R327). -/
def ripple : Nat → State → State
  | 0, s => settleFabric s
  | n + 1, s =>
    let t := settleFabric s
    match wireMoment s.fab.wires t.fab.wires with
    | [] => t
    | now => ripple n (fabricEdge now t)

/-- The edges of one moment, and what they clock in their turn. -/
def fabricMoment (now : List (ClockSignal × Bool)) (s : State) : State := ripple Config.wireCount (fabricEdge now s)

/-- The running fabric from one time to another: the levels at the pins change first, then its clocks run. -/
def fabricRuns (t0 : Nat) (s : State) : State :=
  let s1 := ripple Config.wireCount s
  let s2 := fabricMoment (pinMoment s1.fab.pinsWere s1.pinsIn) (s1.modFab (fun f => { f with pinsWere := s1.pinsIn }))
  each (s2.clockMoments t0 s2.ran) fabricMoment s2

/-- The I/O cells follow the design. -/
def drivePins (s : State) : State :=
  let x := s.net
  let word := fun (f : Nat → Nat) => BitVec.ofNat 64 ((List.range 64).foldl (fun v k => v + b2n (x.wire (f k)) * 2 ^ k) 0)
  s.modFab (fun f => { f with pinOut := word (fun k => (Config.pinWire k).1), pinOe := word (fun k => (Config.pinWire k).2) })

/-- A request that waits for CQ_RDY is presented, or dropped (R346). -/
def setCop (c : Nat) (st : CopStage) (s : State) : State :=
  match (s.core c).run with
  | .waiting (.cop t d f a b i old) => if old = .dropped then s else s.modCore c (fun k => { k with run := .waiting (.cop t d f a b i st) })
  | _ => s

/-- The signals of the open coprocessor ports as the design drives them now: a value offered joins those before it, and CQ_RDY takes the request that waits
(R346, R347). -/
def drivePort (k : Nat) (s : State) : State :=
  if s.portOpen k then
    let d := Config.portSignals s.free k
    let s1 := s.setMicro k { rdy := d.1, cq := d.2.1, offered := (s.micro_ k).offered ++ d.2.2.toList }
    if d.2.1 then setCop k .sent s1 else s1
  else s
@[inherit_doc drivePort] def drivePorts (s : State) : State := each (List.range 6) drivePort s

/-- Fabric interrupt line k: as the design drives it from phase 3 of its region on, before that as the isolation latch holds it (Table FAB-8). -/
def State.firq (s : State) (k : Nat) (design : Bool) : Bool := if 3 ≤ s.phase (k / 4) then design else s.fab.firq.getLsbD k

/-- The design drives it. -/
def driveFirq (k : Nat) (level : Bool) (s : State) : State :=
  if 3 ≤ s.phase (k / 4) then s.modFab (fun f => { f with firq := BitVec.ofNat 64 (setBits f.firq.toNat k 1 (b2n level)) }) else s

/-- An upset turns bits of a frame over (R326). -/
def upsetFrame (u : Option (BitVec 32 × BitVec 544)) (s : State) : State :=
  match u with
  | none => s
  | some (a, m) => s.modFab (fun f => { f with frames := tmod (konst Frame512.zero) f.frames a.toNat (fun x => { x with upset := x.upset ^^^ m }) })

-- The hard blocks that only the design reaches (R331, R333)

/-- A UART, an SPI and an I²C controller. -/
def HardBlocks.uartOf (h : HardBlocks) (k : Fin 2) : Uart := tget (konst Uart.cleared) h.uart k.val
@[inherit_doc HardBlocks.uartOf] def HardBlocks.spiOf (h : HardBlocks) (k : Fin 2) : SpiPort := tget (konst spiCleared) h.spi k.val
@[inherit_doc HardBlocks.uartOf] def HardBlocks.i2cOf (h : HardBlocks) (k : Fin 2) : I2cPort := tget (konst i2cCleared) h.i2c k.val

/-- A UART replaced. -/
def HardBlocks.setUart (h : HardBlocks) (k : Fin 2) (u : Uart) : HardBlocks := { h with uart := tset (konst Uart.cleared) h.uart k.val u }

/-- An SPI or I²C controller replaced. -/
def HardBlocks.setSpi (h : HardBlocks) (k : Fin 2) (p : SpiPort) : HardBlocks := { h with spi := tset (konst spiCleared) h.spi k.val p }
@[inherit_doc HardBlocks.setSpi] def HardBlocks.setI2c (h : HardBlocks) (k : Fin 2) (p : I2cPort) : HardBlocks := { h with i2c := tset (konst i2cCleared) h.i2c k.val p }

/-- An address of 7 or 10 bits. -/
def i2cAddr (m : I2cMode) (a : BitVec 10) : BitVec 10 := if m.ten then a else a &&& 0x7f

/-- A byte moves on an I²C bus: a controller makes the transfer; a target takes part where the address is its own (R333). -/
def i2cStep (addr : BitVec 10) (rd : Bool) (v : Byte) (p : I2cPort) : I2cPort :=
  if p.mode.target ∧ i2cAddr p.mode addr ≠ p.own then { p with acked := false }
  else { p with addr := i2cAddr p.mode addr, read := rd, data := v, acked := true }

/-- A byte joins a FIFO of 64; one that finds it full is lost. DESIGN CHOICE (log entry 41). -/
def fifoPush (l : List Byte) (v : Byte) : List Byte := if l.length < 64 then l ++ [v] else l

/-- The data bits of a character. -/
def uartChar (m : UartMode) (v : Byte) : Byte := v &&& BitVec.ofNat 8 (2 ^ (5 + m.more.val) - 1)

/-- What the design does with a hard block, within the limits of R333. -/
def hardStep (a : HardAct) (h : HardBlocks) : HardBlocks :=
  match a with
  | .idle => h
  | .trim v => { h with trim := v }
  | .uartSet k m => h.setUart k { h.uartOf k with mode := { m with rate := min m.rate 12500000 } }
  | .uartWrite k v => h.setUart k { h.uartOf k with tx := fifoPush (h.uartOf k).tx v }
  | .uartSent k => h.setUart k { h.uartOf k with tx := (h.uartOf k).tx.drop 1 }
  | .uartGot k v => h.setUart k { h.uartOf k with rx := fifoPush (h.uartOf k).rx (uartChar (h.uartOf k).mode v) }
  | .uartRead k => h.setUart k { h.uartOf k with rx := (h.uartOf k).rx.drop 1 }
  | .spiSet k m => h.setSpi k { h.spiOf k with mode := { m with rate := min m.rate 50000000 } }
  | .spiByte k o v => h.setSpi k { h.spiOf k with out := o, got := v }
  | .i2cSet k m own => h.setI2c k { h.i2cOf k with mode := m, own := i2cAddr m own }
  | .i2cByte k addr rd v => h.setI2c k (i2cStep addr rd v (h.i2cOf k))
  | .wearRead _ => h

/-- A design runs: some region's clocks have started. -/
def State.designRuns (s : State) : Bool := (List.range 16).any (fun r => decide (2 ≤ s.phase r))

/-- What the design does with a hard block: the controllers, or the read of an erase counter (R332, R333). -/
def hardTurn (a : HardAct) (s : State) : State :=
  match a with
  | .wearRead k => s.modFab (fun f => { f with flashOut := BitVec.ofNat 64 (tget (konst 0) f.wear k.val) })
  | a => s.modFab (fun f => { f with hard := hardStep a f.hard })

/-- A running design's turn at a tick that began at a time (log entry 41). -/
def designTurn (t0 : Nat) (s : State) : State :=
  if s.designRuns then (drivePins (fabricRuns t0 (drivePorts (hardTurn (Config.hardAct s.free) (upsetFrame (Config.upset s.free) s))))).draw
  else s

end Sys2Proof.Machine
end

