-- ==== Sys2Proof/Machine/FabOff.lean ====
section
/-! DEFINITION. Regions of the fabric leaving the design's hands: loading, unconfigured, without power (R330, R332, R337, R339–R342). -/
namespace Sys2Proof.Machine

/-- FAB_STAT.STATE replaced. -/
def setFabState (v : Nat) (s : State) : State := s.setF (fb 0x20) 16 3 v
/-- A region's state and start-up phase replaced. -/
def setRegion (r st phase : Nat) (s : State) : State :=
  (s.setF (fb 0x28) (2 * r) 2 st).modFab (fun f => { f with phase := tset (konst 0) f.phase r phase })
/-- The regions of a load. -/
def loadRegions (region : Nat) : List Nat := if region = 0xFFFF then List.range 16 else [region]

/-- A window request of region r that the ring target port has passed to the design, and that has no response (R342). -/
def State.passed (s : State) (r : Nat) (p : Packet) : Bool :=
  p.stage == .served && !p.posted && !p.answered && p.op.isSome && inWindow p.addr.toNat 1 && s.winRegion (p.addr.toNat - 0x4400000000) == some r

/-- The ports bound to a region close: what the design behind a coprocessor port offered is lost, and its outstanding request will have no reply; requests passed to
the design are answered NOT_READY; the responses to the ring initiator port's requests will be discarded (R342, R345–R347). -/
def closePorts (r : Nat) (s : State) : State :=
  let s1 := each ((List.range 6).filter (fun k => s.portRegion k == r)) (fun k s => setCop k .dropped (s.setMicro k MicroPort.none)) s
  let s2 := each (s1.packets.filter (s1.passed r)) (fun p s => answer p .notReady p.zeros s) s1
  when (s2.portRegion 10 == r)
    (fun s => { s with packets := s.packets.map (fun p => if p.init = .fabric ∧ p.op.isSome then { p with discard := true } else p) }) s2

/-- The outputs of region r into other regions. -/
def outputsOf (r : Fin 16) : List Driver := ((List.range Config.wireCount).flatMap (fun w => (Config.wireInputs w).filter (leaves r w))).eraseDups

/-- The isolation latches capture the outputs of a region that drives the others; those of a region they hold already stay (R341). -/
def captureRegion (r : Nat) (s : State) : State :=
  let g := Fin.ofNat 16 r
  if 3 ≤ s.phase r then
    s.modFab (fun f => { f with latch := f.latch.filter (fun d => driverRegion d != some g) ++ (outputsOf g).filter (s.netLevel s.net) })
  else s

/-- In a full load or a clear the outputs of every region and its FIRQ lines are 0 (Table FAB-8), and the hard-block state is cleared (R339). -/
def clearOutputs (s : State) : State :=
  s.modFab (fun f => { f with latch := [], firq := 0, pinOut := 0, pinOe := 0, hard := HardBlocks.cleared, flashOut := 0 })

/-- The regions of a load enter LOADING: ports close, pins are safe, outputs are 0 or as the latches capture them (R339, R341). -/
def enterLoading (region : Nat) (s : State) : State :=
  let one := fun (r : Nat) (s : State) => setRegion r 1 0 (closePorts r s)
  if region = 0xFFFF then clearOutputs (setFabState 1 (each (loadRegions region) one s)) else each (loadRegions region) (fun r s => one r (captureRegion r s)) s

/-- Frames of the regions, and of the global set in a full load, written to zero, the contents of the RAM blocks with them (R339, R341). -/
def zeroFrames (region : Nat) (s : State) : State :=
  s.modFab (fun f =>
    if region = 0xFFFF then { f with frames := [], ram := [] }
    else { f with frames := f.frames.filter (fun e => faType e.1 == 3 || faRegion e.1 != region), ram := f.ram.filter (fun e => e.1 / 16 != region) })

/-- The regions of a load become UNCONFIGURED with frames of zeros. -/
def unconfigure (region : Nat) (s : State) : State :=
  let one := fun (r : Nat) (s : State) => setRegion r 0 0 (closePorts r s)
  if region = 0xFFFF then
    clearOutputs ((setFabState 0 (each (loadRegions region) one (zeroFrames region s))).modFab (fun f => { f with portmap := [], winmap := [] }))
  else each (loadRegions region) one (zeroFrames region (each (loadRegions region) captureRegion s))

/-- The flash without power: an erase or program that may be under way leaves its sector or word undefined (R332). -/
def losePower (s : State) : State :=
  match s.fab.flashOp with
  | none => s
  | some o =>
    let s1 := s.modFab (fun f => { f with flashOp := none })
    if s.ran < o.stop then
      (s1.modFab (fun f => { f with flash := (List.range o.len).foldl (fun t i => tset (konst 255) t (o.base + i) (BitVec.ofNat 8 ((s.drawn (i / 8)).toNat / 2 ^ (8 * (i % 8))))) f.flash })).draw
    else s1

/-- Domain F without power: unconfigured, and nothing held but the flash, the repair map and the pilot's safe pulls; the loads that wait stay (R330, R332, R340). -/
def fabricOff (s : State) : State :=
  (losePower (unconfigure 0xFFFF s)).modFab (fun f => { FabState.reset with
    waiting := f.waiting, faulty := f.faulty, flash := f.flash, wear := f.wear, pulls := f.pulls })

end Sys2Proof.Machine
end

