-- ==== Sys2Proof/Machine/PlaneIo.lean ====
section
/-! DEFINITION. Corner-turn transfers: the PTD, GO and CANCEL, passes, fills and captures; the staging scrub and refresh (chapter 06). -/
namespace Sys2Proof.Machine

/-- A map entry from its 64 bits (Table PIO-3). -/
def MapEntry.ofNat (v : Nat) : MapEntry :=
  { ord := BitVec.ofNat 2 (bits v 41 2), sx := v.testBit 40, daddr := BitVec.ofNat 12 (bits v 28 12), dlen := bits v 22 6 + 1
    slen := bits v 16 6 + 1, srcbit := bits v 0 16 }

/-- The fields of a PTD that the checks need, beside the transfer it describes. -/
structure Ptd where
  t : Transfer
  /-- DESC_ERROR by a must-be-0 field, a range or an order code -/
  bad : Bool

/-- The PTD whose header has number h and whose map has the 64-bit words ws, for the quadrants qs (Tables PIO-2, PIO-3). -/
def readPtd (qs : List Nat) (h : Nat) (ws : List Nat) : Ptd :=
  let base := fun q => bits h (64 * q) 64
  let cnt := fun q => bits h (256 + 32 * q) 32
  let flags := bits h (8 * 0x33) 8
  let stride := bits h (8 * 0x30) 16
  let sstride := bits h (8 * 0x34) 16
  let nmap := bits h (8 * 0x32) 8
  let out := flags.testBit 0
  let manual := flags.testBit 1
  let merge := flags.testBit 4
  let fab := flags.testBit 5
  let map := ws.map MapEntry.ofNat
  let rec_ := 8 * (if fab then sstride else stride)
  let entryBad := fun (w : Nat) =>
    let e := MapEntry.ofNat w
    decide (0 < w / 2 ^ 43) || e.ord == 3 || decide (rec_ < e.srcbit + e.slen) || (e.ord == 1 && (e.srcbit % 8 != 0 || e.slen % 8 != 0))
    || (!manual && decide (4096 < e.daddr.toNat + e.dlen))
  let shared := fun (l : List MapEntry) =>
    (List.range l.length).any (fun i => (List.range i).any (fun j => match l[i]?, l[j]? with
      | some x, some y => overlap x.daddr.toNat x.dlen y.daddr.toNat y.dlen
      | _, _ => false))
  let bad := qs.any (fun q => decide (0 < base q / 2 ^ 40) || decide (262144 < cnt q)) || decide (0 < flags / 64)
    || decide (0 < bits h (8 * 0x36) 80) || nmap == 0 || decide (64 < nmap) || stride == 0 || (merge && fab) || ws.any entryBad
    || (!manual && out && shared map)
  { t := { base := qs.foldl (fun m q => tset (konst 0) m q (BitVec.ofNat 40 (base q))) []
           cnt := qs.foldl (fun m q => tset (konst 0) m q (cnt q)) []
           stride := stride, sstride := sstride, out := out, manual := manual, pad := flags.testBit 2, keep := out && flags.testBit 3
           merge := out && merge, fab := fab, map := map, pres := 0, sent := [], buf := [], out_ := [], drained := [], turn := [], capture := 0
           restore := none, mark := 0, zero := 0, ending := false, fail := none, key := false, job := none }
    bad := bad }

/-- BASEq. -/
def Transfer.base_ (t : Transfer) (q : Nat) : Nat := (tget (konst 0) t.base q).toNat
/-- COUNTq. -/
def Transfer.cnt_ (t : Transfer) (q : Nat) : Nat := tget (konst 0) t.cnt q

/-- PTD_CHECK of the ADDRESS_ERROR row (R151). -/
def addressBad (qs : List Nat) (t : Transfer) : Bool := qs.any (fun q => decide (0 < t.cnt_ q) && !mapped (t.base_ q) (t.cnt_ q * t.stride))

/-- PTD_CHECK of the KEY_SEGMENT row. -/
def keyBad (s : State) (p : Nat) (t : Transfer) : Bool :=
  !t.manual && s.keyLen p != 0 && t.map.any (fun e => overlap e.daddr.toNat e.dlen (s.keyBase p) (s.keyLen p))

/-- The shadow rows of quadrants written to zeros and marked ready or not (R36, R156). -/
def zeroShadow (qs : List Nat) (ready : Bool) (s : State) : State :=
  let m := quadsPlane qs
  (s.modArr (fun a => { a with sh := a.sh &&& ~~~m, rowErr := a.rowErr.filter (fun e => !(e.1 % 8192 == shadowRow && qs.contains (tileQuad (e.1 / 8192 / 66)))) })).markReady qs ready

/-- Every engine of the partition enters RUNNING (R163). -/
def enginesRun (qs : List Nat) (s : State) : State :=
  each qs (fun k s => (((s.setF (ct k 0x10) 18 2 1).setF (ct k 0x10) 20 4 0).setF (ct k 0x10) 8 4 0).setF (ct k 0x14) 0 13 0) s

/-- Partition p is stalled, and not by a microword that waits for shadow-row readiness alone (R51, R155). -/
def State.stalledElse (s : State) (p : Nat) : Bool := (s.markReady (s.quads p) true).stalled p

/-- The transfer starts: for OUT, every shadow row is zeroed and ready in the first ac in which the partition is not stalled (R51, R156). -/
def startTransfer (p : Nat) (t : Transfer) (s : State) : State :=
  let qs := s.quads p
  if !t.out then (s.setXfer p (some t)).markReady qs false
  else if s.stalledElse p then (s.setXfer p (some { t with zero := quadSet qs })).markReady qs false
  else zeroShadow qs true (s.setXfer p (some t))

/-- The transfer code of a ring status (R29, R160); a status for which no row names a code counts as DATA_ERROR (log entry 37). -/
def codeOf : RStat → Nat
  | .unmapped => 2 | _ => 4

/-- A transfer of partition p from the PTD at an address, engines already RUNNING: the checks of R151, then the start. `key` for KEY_LOAD,
`job` the queue whose job it is. A PTD that a job names at an address that is not 64-byte aligned is read there (R147; log entry 37). The engine
of a failed stack ends every transfer with DATA_ERROR (R383). -/
def launch (p ptd : Nat) (key : Bool) (job : Option Nat) (s : State) : State :=
  let qs := s.quads p
  if qs.any (fun q => (s.stack q).failed) then transferEnd p 4 s
  else if !mapped ptd 64 then transferEnd p 2 (s.reportUnmapped ptd)
  else
    let x := longRead (.engine (Fin.ofNat 4 p)) 16 ptd 64 s
    if x.1 ≠ .ok then transferEnd p (codeOf x.1) x.2.2
    else
      let h := ofBytes x.2.1
      let n := bits h (8 * 0x32) 8
      if n = 0 ∨ 64 < n then transferEnd p 1 x.2.2
      else if !mapped (ptd + 64) (8 * n) then transferEnd p 2 (x.2.2.reportUnmapped (ptd + 64))
      else
        let y := longRead (.engine (Fin.ofNat 4 p)) 80 (ptd + 64) (8 * n) x.2.2
        if y.1 ≠ .ok then transferEnd p (codeOf y.1) y.2.2
        else
          let m := ofBytes y.2.1
          let d := readPtd qs h ((List.range n).map (fun i => bits m (64 * i) 64))
          let t := { d.t with key := key, job := job }
          if d.bad then transferEnd p 1 y.2.2
          else if addressBad qs t then transferEnd p 2 y.2.2
          else if !key && keyBad s p t then transferEnd p 3 y.2.2
          else if t.fab && qs.any (fun k => !s.portOpen (6 + k)) then transferEnd p 6 y.2.2
          else startTransfer p t y.2.2

/-- CTk_PTD: the PTD address. -/
def State.ptdAddr (s : State) (k : Nat) : Nat := s.r32 (ct k 0) + s.fld (ct k 4) 0 8 * 2 ^ 32

/-- Whether GO is taken at engine k: the lowest of its partition, no transfer running (R163). -/
def State.goOk (s : State) (k : Nat) : Bool := s.quads k != [] && (s.xfer k).isNone

-- Conversion (R149, R150)

/-- The record bit that holds bit k of an entry's source field. -/
def recBit (e : MapEntry) (k : Nat) : Nat :=
  match e.ord.toNat with
  | 1 => e.srcbit + 8 * (e.slen / 8 - 1 - k / 8) + k % 8
  | 2 => e.srcbit + e.slen - 1 - k
  | _ => e.srcbit + k

/-- Bit k of the plane field that a record gives (IN). -/
def inBit (e : MapEntry) (record k : Nat) : Bool :=
  if k < e.slen then record.testBit (recBit e k) else e.sx && record.testBit (recBit e (e.slen - 1))

/-- The PE of record j of quadrant q (R150). -/
def recPe (q j : Nat) : Nat := (512 * (q / 2) + j / 512) * 1024 + 512 * (q % 2) + j % 512

/-- The entries of a pass with the presentation number each starts at. -/
def Transfer.passEntries (t : Transfer) (w : Nat) : List (MapEntry × Nat) :=
  (t.map.foldl (fun x e => (x.1 ++ [(e, x.2)], x.2 + e.dlen)) (([] : List (MapEntry × Nat)), 0)).1.filter
    (fun e => decide (t.passStart w ≤ e.2) && decide (e.2 < t.passStart (w + 1)))

/-- The bytes of a record that hold an entry's source field: first byte and number. -/
def fieldBytes (e : MapEntry) : Nat × Nat := (e.srcbit / 8, (e.srcbit + e.slen - 1) / 8 - e.srcbit / 8 + 1)

/-- Passes that engine k has sent (IN) or written (OUT). -/
def Transfer.sent_ (t : Transfer) (k : Nat) : Nat := tget (konst 0) t.sent k
/-- The line buffer of engine k: lines read (IN), and lines to write (OUT). -/
def Transfer.buf_ (t : Transfer) (k : Nat) : List (BitVec 512) := tget (konst []) t.buf k
@[inherit_doc Transfer.buf_] def Transfer.lines_ (t : Transfer) (k : Nat) : List OutLine := tget (konst []) t.out_ k
/-- Passes that engine k has drained from its turn stores (OUT). -/
def Transfer.drained_ (t : Transfer) (k : Nat) : Nat := tget (konst 0) t.drained k

/-- The lines of record j of quadrant q that pass w reads or writes: those that hold a bit of a source field, all with FAB (R153, R161). -/
def Transfer.recLines (t : Transfer) (q w j : Nat) : List Nat :=
  let a := t.base_ q + j * t.stride
  if t.fab then linesOf a t.stride else (t.passEntries w).flatMap (fun e => linesOf (a + (fieldBytes e.1).1) (fieldBytes e.1).2)

/-- The lines of a pass in a quadrant, each once (R153). -/
def Transfer.passLines (t : Transfer) (q w : Nat) : List Nat := ((List.range (t.cnt_ q)).flatMap (t.recLines q w)).eraseDups

/-- Lines read in order: status, contents, state; it stops at the first error. -/
def readPassLines (k : Quad) : List Nat → State → RStat × List (BitVec 512) × State
  | [], s => (.ok, [], s)
  | l :: ls, s =>
    let x := longRead (.engine k) 80 l 64 s
    if x.1 ≠ .ok then (x.1, [], x.2.2)
    else let y := readPassLines k ls x.2.2; (y.1, BitVec.ofNat 512 (ofBytes x.2.1) :: y.2.1, y.2.2)

/-- Record j of a quadrant as the lines hold it: a number whose bytes outside them are 0. -/
def Transfer.recordOf (t : Transfer) (q : Nat) (ls : List (Nat × BitVec 512)) (j : Nat) : Nat :=
  let a := t.base_ q + j * t.stride
  ofBytes ((List.range t.stride).map (fun b =>
    match ls.find? (fun l => l.1 == (a + b) / 64 * 64) with
    | some l => l.2.extractLsb' (8 * ((a + b) % 64)) 8
    | none => 0))

/-- The records of a quadrant from the lines of a pass. -/
def Transfer.recordsOf (t : Transfer) (q w : Nat) (ls : List (BitVec 512)) : List Nat :=
  (List.range (t.cnt_ q)).map (t.recordOf q ((t.passLines q w).zip ls))

/-- Presentations of which quadrant k holds the plane: filled into its shadow rows (IN), or captured (OUT). -/
def State.reached (s : State) (t : Transfer) (k : Nat) : Nat :=
  t.pres + b2n (if t.out then t.capture != 0 && !t.capture.getLsbD k else s.arr.ready &&& quadClusters k != 0)

/-- The quadrant's part of the plane of presentation k of an entry: records, then PAD (R150). -/
def inPlane (q : Nat) (t : Transfer) (e : MapEntry) (k : Nat) (recs : List Nat) : Plane :=
  let data := (List.range recs.length).foldl (fun acc j => acc + b2n (inBit e (recs.getD j 0) k) * 2 ^ recPe q j) 0
  let pad := if t.pad then quadPlane q &&& ~~~(BitVec.ofNat peCount ((List.range recs.length).foldl (fun acc j => acc + 2 ^ recPe q j) 0)) else 0
  BitVec.ofNat _ data ||| pad

/-- The turn store of the quadrant filled with the planes of a pass. -/
def fillTurn (q : Nat) (w : Nat) (recs : List Nat) (t : Transfer) : Transfer :=
  each (t.passEntries w) (fun e t => times e.1.dlen (fun k (t : Transfer) =>
    { t with turn := tmod (konst 0) t.turn (e.2 + k) (fun v => merge (quadPlane q) v (inPlane q t e.1 k recs)) }) t) t

/-- A returned record of the fabric made `n` bytes long, and whether its beats differed in number (R161). -/
def fitRecord (n : Nat) (r : List Byte) : Nat × Bool := (ofBytes (r.take n), (r.length + 63) / 64 != (n + 63) / 64)

/-- Record j of a pass, n bytes long, as the stream port takes it: beats of 64 bytes, the first and the last one marked (R161, R348, Table FAB-9). -/
def beats (n w : Nat) (out : Bool) (j record : Nat) : List StreamBeat :=
  (List.range ((n + 63) / 64)).map (fun b =>
    { data := BitVec.ofNat 512 (record % 2 ^ (8 * n) / 2 ^ (512 * b)), last := (n + 63) / 64 == b + 1, first := b == 0
      record := BitVec.ofNat 18 j, pass := BitVec.ofNat 4 w, dir := out })

/-- Engine k sends the records of pass w, n bytes each, through its stream port, and takes those that the fabric returns, m bytes long; a record whose beats
differ in number sets FMT (R161). -/
def shape (k : Quad) (w : Nat) (out : Bool) (n m : Nat) (records : List Nat) (back : List (List Byte)) (s : State) : List Nat × State :=
  let fit := (back.take records.length).map (fitRecord m)
  let sent := (List.range records.length).flatMap (fun j => beats n w out j (records.getD j 0))
  let s1 := { s with fab := { s.fab with stream := tset (konst []) s.fab.stream k.val sent } }
  (fit.map (·.1), when (fit.any (·.2)) (fun s => s.setB (ct k.val 0x10) 30) s1)

/-- A transfer that cannot go on beyond a pass ends, for IN once the earlier passes are swapped (R160). -/
def xferFail (p w code : Nat) (s : State) : State :=
  match s.xfer p with
  | none => s
  | some t =>
    let f := match t.fail with | some g => if g.1 ≤ w then g else (w, code) | none => (w, code)
    if t.out ∨ t.passStart f.1 ≤ t.pres then transferEnd p f.2 s else s.setXfer p (some { t with fail := some f })

/-- CTk_STAT.PASS: w is the pass that engine k begins, or its last one (R154). -/
def beginPass (k : Quad) (t : Transfer) (w : Nat) (s : State) : State := s.setF (ct k.val 0x10) 8 4 (min w (t.passes - 1))

/-- Engine k is through with pass w in staging memory (R154). -/
def passDone (p : Nat) (k : Quad) (w : Nat) (s : State) : State :=
  s.modXfer p (fun t => { t with sent := tset (konst 0) t.sent k.val (w + 1), buf := tset (konst []) t.buf k.val [], out_ := tset (konst []) t.out_ k.val [] })

/-- The lines that the line buffer holds (R139). -/
def bufLines : Nat := 8192

/-- Engine k waits at its bridge for a token that never comes before it reads, or writes, one of these lines (R140, R263). -/
def State.engineWaits (s : State) (k : Quad) (dat : Bool) (ls : List Nat) : Bool :=
  ls.any (fun l => !ownStack (.engine k) l && (match decodePort l with | some d => s.tokenless (sourcePort (.engine k)) d (dat && decide (l < stagingEnd)) | none => false))

/-- ENGINE_PASS of an IN transfer: lines are read ahead into the line buffer while the turn store waits; once the last plane of the pass before has been
filled, the pass goes to the turn store (R153, R154, R161). -/
def passIn (p : Nat) (k : Quad) (recs : List (List Byte)) (t : Transfer) (s : State) : State :=
  let w := t.sent_ k.val
  let have_ := t.buf_ k.val
  let free := decide (t.passStart w ≤ s.reached t k.val)
  let rest := (t.passLines k.val w).drop have_.length
  let next := if free then rest else rest.take (bufLines - have_.length)
  let x := readPassLines k next s
  if s.engineWaits k false next then s
  else if x.1 ≠ .ok then xferFail p w (codeOf x.1) x.2.2
  else if !free then x.2.2.modXfer p (fun t => { t with buf := tset (konst []) t.buf k.val (have_ ++ x.2.1) })
  else
    let records := t.recordsOf k.val w (have_ ++ x.2.1)
    let y := if t.fab then shape k w false t.stride t.sstride records recs x.2.2 else (records, x.2.2)
    passDone p k w (y.2.modXfer p (fillTurn k.val w y.1))

/-- Bit k of the source field that the captured planes give record j (OUT), of n captured; none where its presentation is not captured. -/
def outBit (t : Transfer) (n q j : Nat) (e : MapEntry × Nat) (k : Nat) : Option Bool :=
  let at_ := fun i => if i < n then some ((tget (konst 0) t.turn i).getLsbD (recPe q j)) else none
  if k < e.1.dlen then at_ (e.2 + k) else if e.1.sx then at_ (e.2 + e.1.dlen - 1) else some false

/-- The shaped record that the captured planes give record j (R150, R161). -/
def shapedRecord (t : Transfer) (n q w j : Nat) : Nat :=
  (t.passEntries w).foldl (fun v e => times e.1.slen (fun k v => setBits v (recBit e.1 k) 1 (b2n ((outBit t n q j e k).getD false))) v) 0

/-- Bits to place, by device bit address, in the order of records and entries. -/
def outBits (t : Transfer) (n q w : Nat) : List (Nat × Option Bool) :=
  (List.range (t.cnt_ q)).flatMap (fun j => (t.passEntries w).flatMap (fun e =>
    (List.range e.1.slen).map (fun k => (8 * (t.base_ q + j * t.stride) + recBit e.1 k, outBit t n q j e k))))

/-- A line with the bits that fall in it placed over its old content. -/
def placeBits (l : Nat) (bs : List (Nat × Option Bool)) (old : Nat) : Nat :=
  bs.foldl (fun v b => match b.2 with
    | some x => if b.1 / 512 = l / 64 then setBits v (b.1 % 512) 1 (b2n x) else v
    | none => v) old

/-- The lines that hold a bit of the list, once each. -/
def bitLines (bs : List (Nat × Option Bool)) : List Nat := (bs.map (fun b => b.1 / 512 * 64)).eraseDups

/-- The lines that the bits of a list make. -/
def outLines (bs : List (Nat × Option Bool)) : List OutLine :=
  (bitLines bs).map (fun l => { addr := l, mask := BitVec.ofNat 512 (placeBits l (bs.map (fun b => (b.1, b.2.map (fun _ => true)))) 0)
                                data := BitVec.ofNat 512 (placeBits l bs 0) })

/-- Lines of a pass written in turn: 0 elsewhere, or the line's previous content with MERGE (R153); it stops at the first error. -/
def writeLines (k : Quad) (merge : Bool) : List OutLine → State → RStat × State
  | [], s => (.ok, s)
  | l :: ls, s =>
    let r := if merge then longRead (.engine k) 80 l.addr 64 s else (.ok, [], s)
    if r.1 ≠ .ok then (r.1, r.2.2)
    else
      let x := longWrite (.engine k) 80 l.addr (toBytes 64 ((BitVec.ofNat 512 (ofBytes r.2.1) &&& ~~~l.mask) ||| (l.data &&& l.mask)).toNat) r.2.2
      if x.1 ≠ .ok then x else writeLines k merge ls x.2

/-- The bits of records that the fabric returned (OUT with FAB). -/
def recBits (t : Transfer) (q : Nat) (recs : List Nat) : List (Nat × Option Bool) :=
  (List.range (min recs.length (t.cnt_ q))).flatMap (fun j =>
    (List.range (8 * t.stride)).map (fun b => (8 * (t.base_ q + j * t.stride) + b, some ((recs.getD j 0).testBit b))))

/-- The captured planes that quadrant q has not yet written. -/
def State.undrained (s : State) (t : Transfer) (q : Nat) : Bool := decide (t.passStart (t.sent_ q) < s.reached t q) && decide (t.sent_ q < t.passes)

/-- Engine k has written its pass: the transfer ends after every engine's last one, or, when cancelled, after the last that holds captured planes (R154, R160). -/
def passWritten (p : Nat) (k : Quad) (t : Transfer) (w : Nat) (s : State) : State :=
  let more := s.undrained { t with sent := tset (konst 0) t.sent k.val (w + 1) } k.val
  let s1 := beginPass k t (w + 1) (passDone p k (if t.ending && !more then t.passes - 1 else w) s)
  match s1.xfer p with
  | some u => if (s1.quads p).all (fun q => decide (u.passes ≤ u.sent_ q)) then transferEnd p (if u.ending then 8 else 0) s1 else s1
  | none => s1

/-- The lines that the captured planes of engine k's pass make, after their way through the fabric with FAB (R153, R161). -/
def capturedLines (k : Quad) (recs : List (List Byte)) (t : Transfer) (s : State) : List OutLine × State :=
  let w := t.drained_ k.val
  let n := s.reached t k.val
  let y := if t.fab then shape k w true t.sstride t.stride ((List.range (t.cnt_ k.val)).map (shapedRecord t n k.val w)) recs s else ([], s)
  (outLines (if t.fab then recBits t k.val y.1 else outBits t n k.val w), y.2)

/-- The captured planes of a pass drained: their lines go to the line buffer, those that it cannot hold being written first (R154). -/
def drainPass (p : Nat) (k : Quad) (recs : List (List Byte)) (t : Transfer) (s : State) : State :=
  let y := capturedLines k recs t s
  let excess := y.1.length - bufLines
  let x := writeLines k t.merge (y.1.take excess) y.2
  if s.engineWaits k true ((y.1.take excess).map (·.addr)) then s
  else if x.1 ≠ .ok then transferEnd p (codeOf x.1) x.2
  else x.2.modXfer p (fun t => { t with drained := tset (konst 0) t.drained k.val (t.drained_ k.val + 1), out_ := tset (konst []) t.out_ k.val (y.1.drop excess) })

/-- The drained lines of engine k's pass written. -/
def passOut (p : Nat) (k : Quad) (t : Transfer) (s : State) : State :=
  let x := writeLines k t.merge (t.lines_ k.val) s
  if s.engineWaits k true ((t.lines_ k.val).map (·.addr)) then s
  else if x.1 ≠ .ok then transferEnd p (codeOf x.1) x.2 else passWritten p k t (t.sent_ k.val) x.2

/-- The pass that engine k moves through its stream port next: sent to the turn stores (IN), or drained from them (OUT). -/
def Transfer.portPass (t : Transfer) (k : Nat) : Nat := if t.out then t.drained_ k else t.sent_ k

/-- A held failure lies at pass w or before it (R160). -/
def Transfer.failedBy (t : Transfer) (w : Nat) : Bool := match t.fail with | some f => decide (f.1 ≤ w) | none => false

/-- ENGINE_PASS (R153, R154): engine k reads ahead, or moves its pass to its turn stores (IN); it drains the captured planes of its pass into the line buffer,
and then writes them (OUT). With FAB = 1 a pass moves once the fabric has returned its records; a stream port that has closed ends the transfer (R348). -/
def execEnginePass (k : Quad) (recs : List (List Byte)) (s : State) : Out :=
  let p := (s.partOf k.val).headD k.val
  match s.xfer p with
  | none => .next s
  | some t =>
    let w := t.portPass k.val
    let ready := if t.out then decide (w < t.passes) && (if t.ending then decide (t.passStart w < s.reached t k.val) else decide (t.passStart (w + 1) ≤ s.reached t k.val)) else decide (t.passStart w ≤ s.reached t k.val)
    if t.out ∧ t.sent_ k.val < t.drained_ k.val then .next (passOut p k t s)
    else if t.passes ≤ w ∨ t.failedBy w ∨ (t.out ∧ !ready) then .next s
    else if t.fab ∧ ready ∧ !s.portOpen (6 + k.val) then .next (xferFail p w 6 s)
    else if t.fab ∧ ready ∧ recs.length < t.cnt_ k.val then .next s
    else if t.out then .next (drainPass p k recs t s)
    else .next (passIn p k recs t s)

/-- FILL (R155): the clusters of quadrant k copy the next presentation into their shadow rows, which become ready; after the last one of a pass the engine's
next pass begins (R154). -/
def execFill (k : Quad) (s : State) : Out :=
  let p := (s.partOf k.val).headD k.val
  match s.xfer p with
  | none => .next s
  | some t =>
    if t.out ∨ t.total ≤ t.pres ∨ t.passStart (t.sent_ k.val) ≤ t.pres ∨ s.arr.ready &&& quadClusters k.val ≠ 0 ∨ s.stalledElse p then .next s
    else
      let m := quadPlane k.val
      let s1 := (s.modArr (fun a => { a with sh := merge m a.sh (tget (konst 0) t.turn t.pres), rowErr := a.rowErr.filter (fun e =>
          !(e.1 % 8192 == shadowRow && tileQuad (e.1 / 8192 / 66) == k.val)) })).markReady [k.val] true
      .next (when (t.pres + 1 == t.passStart (t.sent_ k.val)) (beginPass k t (t.sent_ k.val)) s1)

/-- CAPTURE (R156): the clusters of quadrant k take the swapped plane into the turn store, once its pass before has been drained; or, in an unstalled ac, make
the zeroing of GO that is due, or become ready again after a restore swap. -/
def execCapture (k : Quad) (s : State) : Out :=
  let p := (s.partOf k.val).headD k.val
  match s.xfer p with
  | none => .next s
  | some t =>
    let b := BitVec.ofNat 4 (2 ^ k.val)
    let m := quadPlane k.val
    if s.stalledElse p ∨ t.ending then .next s
    else if t.zero.getLsbD k.val then .next (zeroShadow [k.val] true (s.setXfer p (some { t with zero := t.zero &&& ~~~b })))
    else if t.mark.getLsbD k.val then .next ((s.setXfer p (some { t with mark := t.mark &&& ~~~b })).markReady [k.val] true)
    else if t.capture.getLsbD k.val ∧ t.pres < t.passStart (t.drained_ k.val + 1) then
      let left := t.capture &&& ~~~b
      let n := if left = 0 then t.pres + 1 else t.pres
      let t1 := { t with capture := left, pres := n, turn := tmod (konst 0) t.turn t.pres (fun v => merge m v s.arr.sh) }
      let s1 := setProg (s.quads p) n (s.setXfer p (some t1))
      .next (if t.keep then s1.markReady [k.val] true else zeroShadow [k.val] true s1)
    else .next s

/-- The captured planes of a cancelled transfer written by engine k: the lines drained before, and those of the present pass (R160). What
follows an uncorrectable line is not written, and the transfer ends CANCELLED all the same (log entry 43). -/
def flushPass (k : Quad) (t : Transfer) (s : State) : State :=
  let x := writeLines k t.merge (t.lines_ k.val) s
  if x.1 = .ok ∧ t.passStart (t.drained_ k.val) < s.reached t k.val ∧ t.drained_ k.val < t.passes then
    (writeLines k t.merge (outLines (outBits t (s.reached t k.val) k.val (t.drained_ k.val))) x.2).2
  else x.2

/-- A transfer is cancelled; for OUT the captured planes of the present pass are written first when `drain` holds, and with FAB = 1 they pass through the
fabric: the transfer ends once its engines have written them (R160). -/
def cancelTransfer (p : Nat) (drain : Bool) (s : State) : State :=
  match s.xfer p with
  | none => s
  | some t =>
    let due := (s.quads p).filter (s.undrained t)
    if !t.out ∨ !drain ∨ due = [] then transferEnd p 8 s
    else if t.fab then
      s.setXfer p (some { t with ending := true, sent := each ((s.quads p).filter (fun q => !due.contains q)) (fun q m => tset (konst 0) m q t.passes) t.sent })
    else transferEnd p 8 (each due (fun q s => flushPass (Fin.ofNat 4 q) t s) s)

/-- A write of CTk_CMD by a permitted writer: CANCEL before GO (R163). -/
def ctCommand (k : Nat) (cmd : Nat) (s : State) : State :=
  if cmd.testBit 1 then (if s.quads k != [] then cancelTransfer k true s else s)
  else if cmd.testBit 0 then
    if s.goOk k then launch k (s.ptdAddr k) false none (enginesRun (s.quads k) s) else s.setB (ct k 0x10) 31
  else s

/-- A write of CTk_CMD (R162). -/
def ctCmdWrite (i : Initiator) (k cmd : Nat) (s : State) : State :=
  if mayEngine i k s then ctCommand k cmd s else s.reportUnmapped (0x4200000000 + ct k 8)

/-- GO. -/
def execGo (i : Initiator) (k : Quad) (s : State) : Out := .next (ctCmdWrite i k.val 1 s)

/-- CANCEL. -/
def execCancel (i : Initiator) (k : Quad) (s : State) : Out := .next (ctCmdWrite i k.val 2 s)

/-- FABRIC_TIMEOUT: the stream port of engine k has moved no beat for the FTO time; code 0 of FTO sets no limit (R161). -/
def execFabricTimeout (k : Quad) (s : State) : Out :=
  let p := (s.partOf k.val).headD k.val
  match s.xfer p with
  | none => .next s
  | some t =>
    let w := t.portPass k.val
    if t.fab ∧ w < t.passes ∧ !t.failedBy w ∧ s.fld (ct k.val 0x18) 0 4 ≠ 0 then .next (xferFail p w 7 s) else .next s

/-- MCk works its stack: its domain has power, and the stack is neither failed nor in self-refresh. -/
def State.stackUp (s : State) (k : Nat) : Bool := s.domUp (21 + k) && !(s.stack k).failed && !(s.stack k).refresh

/-- The next line of stack k that is stored wrong, from the line at which the scrub stands: the scrub of the lines before it changes nothing. -/
def State.scrubLine (s : State) (k : Nat) : Option Nat :=
  (s.lineErr.find? (fun e => 64 * e.1 / stackSize == k && decide (64 * e.1 < stagingEnd) && decide ((s.stack k).scrub ≤ e.1))).map (·.1)

/-- STAGING_SCRUB: the scrub of stack k starts, or goes on from the line where it stopped: the next line stored wrong is read in the stack and
corrected under R142, whatever the caches hold; past the last the
pass ends, and the ECS results are read (R144, R353, R361). -/
def execStagingScrub (k : Quad) (s : State) : Out :=
  if s.fld (mc k.val 0x10) 0 16 = 0 ∨ ¬ s.stackUp k.val then .next s
  else match s.scrubLine k.val with
    | some l => .next ((stackLine (64 * l) s).2.modStack k.val (fun x => { x with scrub := l + 1 }))
    | none => .next ((s.modStack k.val (fun x => { x with ecs := s.drawn 0, scrub := 0 })).draw)

/-- STACK_REFRESH_ADJUST: the refresh interval and the slot limit of Table PWR-4, from the stack's temperature in m°C; in self-refresh the stack sets its own
(R361). -/
def execStackRefreshAdjust (k : Quad) (temp : Int) (s : State) : Out :=
  if (s.stack k.val).refresh ∨ ¬ s.domUp (21 + k.val) then .next s
  else .next (s.modStack k.val (fun x => { x with
    interval := if temp ≤ 85000 then 4 else if temp ≤ 95000 then 2 else 1
    slow := decide (105000 < temp) || (x.slow && decide (100000 < temp)) }))

end Sys2Proof.Machine
end

