-- ==== Sys2Proof/Machine/Microseq.lean ====
section
/-! DEFINITION. Commands of the microsequencers and of the ARR page: reloads, bounds, commits, suspension, halts, the shape and the
tree landings (chapters 03–05). -/
namespace Sys2Proof.Machine

/-- The word that fails its parity is read again from its source (R115): the user image, the firmware image whose load is in force, or the ROM, whose second
read may fail too: a free bit (log entry 2). None where it cannot be read, with the state that the attempt leaves. -/
def reloadSource (q upc : Nat) (s : State) : Option Nat × State :=
  if inUser upc then (if s.bit (sq q 0x848) 0 then imageWord (Fin.ofNat 6 q) q (upc % 4096) s else (none, s))
  else if upc < 0x4000 then (some (sourceWord s.microGen upc), s)
  else (if (s.drawn 1).getLsbD 0 then none else some (sourceWord s.microGen upc), s.draw)

/-- A free spare row of a microstore, if any (R116). -/
def State.spareRow (s : State) (q : Nat) : Option Nat :=
  if s.fld (sq q 0x860) 16 9 = 0 then none else some (256 - s.fld (sq q 0x860) 16 9)

/-- A repeat: the μPC is redirected to a spare row, recorded and reported (R116, R440). -/
def relocate (q upc row : Nat) (s : State) : State :=
  let s1 := s.modSeq q (fun x => { x with redir := x.redir.filter (·.1 != upc) ++ [(upc, row)] })
  let s2 := (s1.setF (sq q 0x860) 16 9 (s.fld (sq q 0x860) 16 9 - 1)).mapRecord (.microRow q upc row)
  s2.reportN 6 2 (0x10 + q) ((s2.mcq.head?.map (·.toNat)).getD 0) (s2.r32 (sq q 0x860))

/-- The routine aborts with PARITY (R115, R116). -/
def parityAbort (p : Nat) (s : State) : State :=
  match (s.seq (s.driver p)).run with
  | some r => abortRoutine p 4 0 0 r.upc.toNat r.q.op.toNat r.lane s
  | none => s

/-- The groups of a reloaded word of a writable row that fail the retry fetch: free bits, since a row may be stuck (R116; log entry 2). -/
def State.retryGroups (s : State) (upc : Nat) : Nat := if upc < 0x4000 then (s.drawn 0).toNat % 32 else 0

/-- The reloaded word is fetched again: it issues, or fails, which is an error like the first (R115, R116). -/
def refetch (q upc groups : Nat) (s : State) : State :=
  if groups = 0 then s.modSeq q (fun x => { x with badWord := false }) else parityError q upc groups s

/-- PARITY_RELOAD: the word is reloaded with fresh parity and fetched again; a repeat moves it to a spare row first, and a word that fails there aborts the
routine. A retry that fails elsewhere is an error like the first, and a repeat (R114–R116). -/
def execParityReload (p : Quad) (s : State) : Out :=
  let q := s.driver p
  match (s.seq q).run with
  | none => .next s
  | some r =>
    if !(s.seq q).badWord then .next s
    else
      let upc := r.upc.toNat
      match reloadSource q upc s with
      | (none, s1) => .next (parityAbort p s1.draw)
      | (some f, s1) =>
        let g := s1.retryGroups upc
        let s2 := s1.draw
        if (s.seq q).again then
          match s2.spareRow q with
          | some row => .next (when (g != 0) (parityAbort p) (refetch q upc g (commitWord q upc f (relocate q upc row s2))))
          | none => .next (parityAbort p s2)
        else .next (refetch q upc g (commitWord q upc f s2))

/-- SEQs_UCTL.WLIM sets a bound. -/
def State.waitBound (s : State) (q : Nat) : Bool := s.fld (sq q 0x840) 0 4 != 0

/-- WAIT_LIMIT: a microword held up to the wait bound does not issue, and its routine aborts (R99). X, C and N of a vendor routine are free then (R67). -/
def execWaitLimit (p : Quad) (s : State) : Out :=
  let q := s.driver p
  if s.waitBound q ∧ s.isHeld p then
    match (s.seq q).run with
    | some r => .next (abortRoutine p 5 0 0 ((s.seq q).pcOf r) r.q.op.toNat r.lane (if r.byWord then s else scramble p s))
    | none => match s.head p with
      | some (e, lane) => .next (abortRoutine p 5 0 0 (vupc e 0) e.op.toNat lane (popHead p lane s))
      | none => .next s
  else .next s

/-- RUN_LIMIT: the last permitted microword of a user routine issues, and the routine aborts unless it was its END (R99). -/
def execRunLimit (p : Quad) (s : State) : Out :=
  let q := s.driver p
  match (s.seq q).run with
  | some r => if s.runOut q r 1 then .next (wordStep p s) else .next s
  | none => .next s

-- The microstore window (R86–R88)

/-- MICROSTORE_WRITE: a 64-bit store at an offset of sequencer q's microstore. -/
def execMicrostoreWrite (i : Initiator) (q : SeqId) (off : BitVec 24) (v : Dword) (s : State) : Out :=
  .next (microStore i q.val off.toNat v.toNat s)

-- Suspension (R104–R108)

/-- No instruction executes and both queues of a sequencer are empty or halted, not suspended (R157). -/
def Seq.quiet (x : Seq) : Bool := x.run.isNone && (x.queue.isEmpty || x.qHalt) && (x.lane.isEmpty || x.lHalt) && !x.susp

/-- Address of the auto swap of a transfer, if it makes one now (R156, R157, R160). -/
def Transfer.autoSwap (t : Transfer) : Option (BitVec 12) :=
  if t.manual || t.ending then none
  else if t.out then
    match t.restore with
    | some a => if t.capture = 0 then some a else none
    | none => if t.capture = 0 ∧ t.mark = 0 ∧ t.pres < t.total then some (t.addr t.pres) else none
  else match t.fail with
    | some (w, _) => if t.pres < t.passStart w then some (t.addr t.pres) else none
    | none => if t.pres < t.total then some (t.addr t.pres) else none

/-- The transfer of partition p and the address of its auto swap, where one is due and the partition can issue it (R157). -/
def State.swapDue (s : State) (p : Nat) : Option (Transfer × BitVec 12) :=
  match s.xfer p with
  | none => none
  | some t => if (s.seq (s.driver p)).quiet && s.allReady (s.quads p) && s.canIssue p then t.autoSwap.map (fun a => (t, a)) else none

/-- AUTO_SWAP: the swap of the present presentation, checked against the key segment, for a key load the other way round (R157, R159, R404). It ends with ARRAY_ERROR where its D-port read is
uncorrectable (R160), and also where its A port, which reads row 0 in every microword, finds that row uncorrectable (log entry 43). -/
def execAutoSwap (p : Quad) (s : State) : Out :=
  match s.swapDue p with
  | none => .next s
  | some (t, a) =>
    if s.inKey p a.toNat != t.key then .next (transferEnd p 3 s)
    else
      let e := cycle p { wa := a, swap := true } 0 s
      if e.abort.isSome then .next (transferEnd p 5 e.st) else .next e.st

/-- The next microword of the routine in progress is a resumption point that is not an instruction's first microword (R100). -/
def atResumption (s : State) (p : Nat) (r : Routine) : Bool :=
  !(s.seq (s.driver p)).badWord && !(r.issued == 0 && r.steps == 0) && atPoint s p r

/-- The frame is written, SUSP is set and APRE completes with 0 (R105). The suspension is an instruction boundary (R84, R88, R180); the partition is no longer
stalled (R131). -/
def suspend (p : Nat) (f : Frame) (s : State) : State :=
  let q := s.driver p
  let acf := match f with | .boundary => [2 ^ 31 + 2 ^ 30] | .routine r => acfRoutine r
  let s1 := boundary p (s.modSeq q (fun x => { x with run := none, frame := some f, resuming := false }))
  apreDone q 0 (writeAcf q acf (settleClear p s1))

/-- SUSPENSION: a stop request meets a resumption point or a boundary, or finds the array idle (R104, Table MIC-5). -/
def execSuspension (p : Quad) (s : State) : Out :=
  let q := s.driver p
  let x := s.seq q
  if !s.stopActs q then .next s
  else match x.run with
    | some r =>
      if atResumption s p r then .next (suspend p (.routine r) s)
      else if r.issued = 0 ∧ r.steps = 0 ∧ x.badWord = false then
        .next (suspend p .boundary (s.modSeq q (fun x => { x with queue := r.q :: x.queue })))
      else .next s
    | none =>
      if x.queue.isEmpty && !x.qHalt then .next (apreDone q 1 s) else .next (suspend p .boundary s)

/-- APRE_NO_RP: the stop request is withdrawn and APRE completes with 2 (R104). -/
def execApreNoRp (p : Quad) (s : State) : Out := if s.stopReq (s.driver p) then .next (apreDone (s.driver p) 2 s) else .next s

/-- RESUME_RESTORE: once the lane is empty after ARES, the frame's routine goes on, or the array queue issues (R108). -/
def execResumeRestore (p : Quad) (s : State) : Out :=
  let q := s.driver p
  let x := s.seq q
  if x.resuming && x.run.isNone && x.lane.isEmpty then
    let s1 := clearFrameV q s
    match x.frame with
    | some (.routine r) => .next (s1.modSeq q (fun x => { x with frame := none, resuming := false, run := some r }))
    | _ => .next (s1.modSeq q (fun x => { x with frame := none, resuming := false }))
  else .next s

/-- A write of SEQs_ACMD by a permitted writer (R113): FLUSH before RESUME, on the lane when it is halted. -/
def acmd (q cmd : Nat) (s : State) : State :=
  let x := s.seq q
  let flush := cmd.testBit 1
  if !flush && !cmd.testBit 0 then s
  else if x.lHalt then s.setSeq q { x with lHalt := false, lane := if flush then [] else x.lane }
  else if x.qHalt then s.setSeq q { x with qHalt := false, queue := if flush then [] else x.queue }
  else s

/-- A write of SEQs_ACMD. -/
def acmdWrite (i : Initiator) (q cmd : Nat) (s : State) : State :=
  if maySeq i q then acmd q cmd s else s.reportUnmapped (0x4200000000 + sq q 0x858)

/-- RESUME. -/
def execResume (i : Initiator) (q : SeqId) (s : State) : Out := .next (acmdWrite i q.val 1 s)

/-- FLUSH. -/
def execFlush (i : Initiator) (q : SeqId) (s : State) : Out := .next (acmdWrite i q.val 2 s)

-- The ARR page (R22, R23, R83–R85, R135)

/-- Sequencer q has a non-empty array queue, or a routine in progress or suspended (R23). -/
def Seq.busy (x : Seq) : Bool := !x.queue.isEmpty || !x.lane.isEmpty || x.run.isSome || x.frame.isSome

/-- A write of SHAPE: refused, or pending; while it is pending SHAPE still reads the old code (R22, R23, R83; log entry 34). -/
def shapeSet (v : Nat) (s : State) : State :=
  let old := shapeParts s.shape
  let new := shapeParts v
  let hit := old.any (fun qs => !new.contains qs && (s.seq (s.driver (qs.headD 0))).busy)
  if 7 < v ∨ hit then s.setB (cr 9 0) 9
  else (s.setB (cr 9 0) 8).modArr (fun a => { a with newShape := some (BitVec.ofNat 8 v) })

/-- A write of ARR_SHAPE (R83): REJ is W1C. -/
def shapeWrite (i : Initiator) (v : Nat) (s : State) : State :=
  if i = .mgmt then shapeSet (v % 256) (when (v.testBit 9) (fun s => s.setF (cr 9 0) 9 1 0) s) else s.reportUnmapped (0x4200000000 + cr 9 0)

/-- SHAPE_WRITE. -/
def execShapeWrite (i : Initiator) (v : Word) (s : State) : Out := .next (shapeWrite i v.toNat s)

/-- The k-th offers of a scope that no result has matched, over the offers made so far (R132, R135). -/
def combine (t : Tree) (os : List Offer) : Nat :=
  match t with
  | .wick => b2n (os.any (fun o => o.bits != 0))
  | .count => os.foldl (fun n o => n + popCount o.bits) 0
  | .first => firstF (os.foldl (fun v o => v ||| o.bits) 0)

/-- SRT_TOPO.V: the part lies in a system tree (R136, R311). -/
def State.inTree (s : State) : Bool := s.bit (cr 0x34 0x10) 19

/-- Whether an offer is matched at device scope: scope 01, scope 10 of the first-responder tree, and scope 10 outside every system tree
(R130, R132, R136). -/
def State.deviceOffer (s : State) (t : Tree) (o : Offer) : Bool := o.got.isNone && !o.joined && (o.scope == 1 || (o.scope == 2 && (t == .first || !s.inTree)))

/-- Whether an offer waits for a combination at system scope to take it in. -/
def State.systemOffer (s : State) (t : Tree) (o : Offer) : Bool := o.got.isNone && !o.joined && o.scope == 2 && t != .first && s.inTree

/-- The first offer of a list that meets a test takes a result, and the clear that an offer matched with it makes (R131). -/
def giveTo (c : Offer → Bool) (v : Nat) (clr : Bool) : List Offer → List Offer
  | [] => []
  | o :: os => if c o then { o with got := some v, fclr := o.fclr || clr } :: os else o :: giveTo c v clr os

/-- The first unmatched device-scope offers of a tree, of the partitions that have made one, matched over those partitions alone (R135). -/
def matchOpen (t : Tree) (s : State) : State :=
  let have_ := (List.range 4).filter (fun p => (((s.trees p).of t).find? (s.deviceOffer t)).isSome)
  let os := have_.filterMap (fun p => ((s.trees p).of t).find? (s.deviceOffer t))
  each have_ (fun p s => setTree p t (giveTo (s.deviceOffer t) (combine t os) (os.any (·.fclr)) ((s.trees p).of t)) s) s

/-- Every unmatched device-scope offer of a tree is matched (R135). -/
def matchAll (t : Tree) (s : State) : State :=
  times ((List.range 4).foldl (fun n p => max n ((s.trees p).of t).length) 0) (fun _ s => matchOpen t s) s

/-- Matching restarts at k = 1 with the first offer after the change; a combination at system scope that is under way keeps its index to its end (R132, R135;
log entry 34). -/
def restartTrees (s : State) : State :=
  { s with sys := s.sys.map (fun e => (e.1, if e.2.own.isNone then { e.2 with k := 1 } else { e.2 with restart := true })) |>.filter (fun e => e.2 ≠ SysTree.reset) }

/-- SHAPE_TAKES_EFFECT: every partition-scope result has landed; transfers of the partitions that change end CANCELLED, unmatched device offers are completed
over the offers made so far, and the new shape takes effect (R23, R135, R160). An unmatched system-scope offer in a system tree stays as it is, and waits
for the tree as long as its partition exists (log entry 34). -/
def execShapeTakesEffect (s : State) : Out :=
  match s.arr.newShape with
  | none => .next s
  | some v =>
    let old := shapeParts s.shape
    let hit := (old.filter (fun qs => !(shapeParts v.toNat).contains qs)).map (fun qs => qs.headD 0)
    let s0 := each hit (fun p s => cancelTransfer p true s) s
    let open_ := (List.range 4).any (fun p => [Tree.wick, Tree.count, Tree.first].any (fun t => ((s.trees p).of t).any (fun o => o.scope == 0)))
    if open_ then .next s
    else if hit.any (fun p => (s0.xfer p).isSome) then .next s0
    else
      let s1 := s0
      let s2 := if hit = [] then s1 else restartTrees (each [Tree.wick, Tree.count, Tree.first] matchAll s1)
      .next (((s2.setF (cr 9 0) 0 8 v.toNat).setF (cr 9 0) 8 1 0).modArr (fun a => { a with newShape := none }))

/-- A write of ARR_EDGEp: it takes effect at the next instruction boundary, at once where no instruction executes: the edges within a suspension are boundaries
too (R84, R180). -/
def edgeWrite (i : Initiator) (p v : Nat) (s : State) : State :=
  if i = .mgmt then
    let s1 := (s.plainWrite32 (cr 9 (0x100 + 8 * p)) v).modArr (fun a => { a with newEdge := tset (konst none) a.newEdge p (some (BitVec.ofNat 8 v)) })
    if (s.seq (s.driver p)).run.isNone then boundary p s1 else s1
  else s.reportUnmapped (0x4200000000 + cr 9 (0x100 + 8 * p))

/-- EDGE_MODE_WRITE. -/
def execEdgeModeWrite (i : Initiator) (p : Quad) (v : Word) (s : State) : Out := .next (edgeWrite i p.val v.toNat s)

/-- A key segment within the 4,096 planes (R83). -/
def keysegOk (v : Nat) : Bool := decide (bits v 0 12 + bits v 16 13 ≤ 4096)

/-- A write of ARR_KEYSEGp by the management core or the pilot: refused when BASE + LEN exceeds 4,096 (R83). -/
def keysegWrite (i : Initiator) (p v : Nat) (s : State) : State :=
  let a := cr 9 (0x200 + 8 * p)
  if i = .mgmt ∨ i = .pilot then
    let s1 := when (v.testBit 31) (fun s => s.setF a 31 1 0) s
    if keysegOk v then (s1.setF a 0 12 (bits v 0 12)).setF a 16 13 (bits v 16 13) else s1.setB a 31
  else s.reportUnmapped (0x4200000000 + a)

/-- KEYSEG_WRITE. -/
def execKeysegWrite (i : Initiator) (p : Quad) (v : Word) (s : State) : Out := .next (keysegWrite i p.val v.toNat s)

/-- A write of ARR_FOPj; entries already pushed keep what they captured (R85). -/
def fopWrite (i : Initiator) (j v : Nat) (s : State) : State :=
  if i = .mgmt then s.plainWrite32 (cr 9 (0x400 + 8 * j)) v else s.reportUnmapped (0x4200000000 + cr 9 (0x400 + 8 * j))

/-- FOP_WRITE. -/
def execFopWrite (i : Initiator) (j : Fin 32) (v : Word) (s : State) : Out := .next (fopWrite i j.val v.toNat s)

/-- TAKEOVER, as an admitted activity of Table LIFE-2 that ends with the command (R25, R435). -/
def execTakeover (q : Quad) (s : State) : Out :=
  match s.arr.takeover with
  | some _ => .next s
  | none =>
    match s.admits (act 13 q.val 0) with
    | (false, s1) => .next s1
    | (true, s1) => .next ((takeover q s1).release 13 q.val)

-- Landings (R126–R131)

/-- WICK_LANDING: the oldest wick offer of the partition lands. -/
def execWickLanding (p : Quad) (s : State) : Out := .next (land p .wick s)

/-- COUNT_LANDING: the oldest count offer lands. -/
def execCountLanding (p : Quad) (s : State) : Out := .next (land p .count s)

/-- FIRST_RESPONDER_LANDING: the oldest first-responder offer lands; a device-scope SELFIRST, whose last microword waited for it, ends with it. -/
def execFirstResponderLanding (p : Quad) (s : State) : Out :=
  let s1 := land p .first s
  .next (match (s1.seq (s1.driver p)).run with
    | some t => if t.q.op.toNat = 0x42 then runRoutine p none t s1 else s1
    | none => s1)

end Sys2Proof.Machine
end

