-- ==== Sys2Proof/Machine/Lamp.lean ====
section
/-! DEFINITION. The lamplighter: scrubbing, column migration, cluster substitution and the repair maps (chapter 07). -/
namespace Sys2Proof.Machine

/-- The next ac of partition p is one the lamplighter may steal (R171). -/
def State.stolen (s : State) (p : Nat) : Bool :=
  let x := s.seq (s.driver p)
  x.run.isNone && (x.queue.isEmpty || x.qHalt) && (x.lane.isEmpty || x.lHalt)
  && !(match s.swapDue p with | some (t, a) => t.key == s.inKey p a.toNat | none => false)

/-- The array domains of a partition that have power: the clusters of the others do nothing in a stolen ac. -/
def State.upDomains (s : State) (p : Nat) : List Nat := ((s.quads p).flatMap quadDomains).filter s.domUp

/-- A physical cluster of partition p that has power. -/
def State.inReach (s : State) (p pc : Nat) : Bool := (s.upDomains p).contains (tileDomain (pc / 66))

/-- A copy is in progress in a physical cluster: a migration's, or a substitution's in the cluster that it reads, not in its target (R172; log entry 43). -/
def State.copying (s : State) (pc : Nat) : Bool :=
  s.arr.migrations.any (fun g => g.pc == pc) || s.arr.substs.any (fun g => s.physOf g.tile g.cl == pc)

/-- A row read in a stolen ac by the scrub (src 3) or a copy (src 4): corrected and held for a write-back, or recorded (R172, R173, R178). -/
def lampRead (pc row src : Nat) (s : State) : State :=
  match decodeRow (s.err pc row) with
  | .uncorrectable => recordUe pc row src 0 s
  | .fix e => (countFix pc e s).modArr (fun a => { a with writeBacks := if a.writeBacks.contains (pc, row) then a.writeBacks else a.writeBacks ++ [(pc, row)] })
  | .clean => s

/-- A pending write-back is made (R172, R173). -/
def makeWriteBack (pc row : Nat) (s : State) : State :=
  if s.arr.writeBacks.contains (pc, row) then
    cancelWriteBack pc row (match decodeRow (s.err pc row) with | .fix e => writeBackRow pc row e s | _ => s)
  else s

/-- SCRUB_PASS_START: a pass through every physical cluster starts; one that is unfinished begins again (R172; log entry 43). -/
def execScrubPassStart (s : State) : Out :=
  if s.bit (cr 6 0) 0 ∧ s.fld (cr 6 0x10) 0 16 ≠ 0 then
    .next (s.modArr (fun a => { a with scrubRow := (List.range 16).foldl (fun m d => tset (konst 4096) m d 0) [], scrubLate := [] }))
  else .next s

/-- Physical clusters of a domain with an error in a row. -/
def State.badClusters (s : State) (d row : Nat) : List Nat :=
  (s.arr.rowErr.filter (fun e => e.1 % 8192 == row && tileDomain (e.1 / 8192 / 66) == d)).map (fun e => e.1 / 8192)

/-- The clusters of a domain that a copy holds. -/
def State.copied (s : State) (d : Nat) : List Nat :=
  (s.arr.migrations.map (·.pc) ++ s.arr.substs.map (fun g => s.physOf g.tile g.cl)).filter (fun pc => tileDomain (pc / 66) == d)

/-- A pending write-back is one that a column copy makes with its own copy write (R178). -/
def State.copyHeld (s : State) (w : Nat × Nat) : Bool := s.arr.migrations.any (fun g => g.pc == w.1 && g.copy == some w.2)

/-- The scrub of an array domain in one stolen ac. -/
def scrubDomain (d : Nat) (s : State) : State :=
  let s1 := each (s.arr.writeBacks.filter (fun w => tileDomain (w.1 / 66) == d && !s.copyHeld w)) (fun w s => makeWriteBack w.1 w.2 s) s
  let late := s1.arr.scrubLate.filter (fun e => tileDomain (e.1 / 66) == d && !s1.copying e.1)
  let s2 := each late (fun e s => (lampRead e.1 e.2 3 s).modArr (fun a => { a with scrubLate := tset (konst 4096) a.scrubLate e.1 (e.2 + 1) })) s1
  let r := tget (konst 4096) s2.arr.scrubRow d
  if r < 4096 then
    let s3 := each ((s2.badClusters d r).filter (fun pc => !s2.copying pc && tget (konst 4096) s2.arr.scrubLate pc == 4096)) (fun pc s => lampRead pc r 3 s) s2
    let s4 := each ((s3.copied d).filter (fun pc => tget (konst 4096) s3.arr.scrubLate pc == 4096))
      (fun pc s => s.modArr (fun a => { a with scrubLate := tset (konst 4096) a.scrubLate pc r })) s3
    s4.modArr (fun a => { a with scrubRow := tset (konst 4096) a.scrubRow d (r + 1) })
  else s2

/-- The scrub of a partition in one stolen ac. -/
def scrubAc (p : Nat) (s : State) : State := each (s.upDomains p) scrubDomain s

/-- SCRUB_STEP: in a stolen ac, pending write-backs are made and every cluster whose pass is not complete reads its next row (R172). SCREN and SECS act on the start
of a pass; one that is under way goes on to its end (log entry 43). -/
def execScrubStep (p : Quad) (s : State) : Out := if s.stolen p then .next (scrubAc p s) else .next s

/-- COUNTER_WINDOW_END: the counters of a domain are halved, but for the frozen ones; a new window begins (R174, R183). -/
def execCounterWindowEnd (d : Fin 16) (s : State) : Out :=
  .next (s.modArr (fun a => { a with
    colCnt := each (a.colCnt.filter (fun e => tileDomain (e.1 / 304 / 66) == d.val && !tget (konst false) a.colRet e.1))
      (fun e t => tset (konst 0) t e.1 (e.2 / 2)) a.colCnt
    ueWin := a.ueWin.filter (fun e => tileDomain (e.1 / 66) != d.val)
    exh := a.exh.filter (fun e => e.2 != 304 || tileDomain (e.1 / 66) != d.val) }))

/-- The argument of a migration in the layout of Table DICT-10: tile, logical cluster, logical column. -/
def State.migArg (s : State) (pc lcol : Nat) : Nat :=
  pc / 66 * 2 ^ 24 + ((List.range 64).find? (fun cl => s.physOf (pc / 66) cl == pc)).getD 0 * 2 ^ 16 + lcol

/-- A migration of logical column L of a cluster starts, when it is admitted; with no spare column, a substitution is due or under way, or the
spares are exhausted (R176–R178, R186). -/
def startMigration (pc lcol : Nat) (s : State) : State :=
  match (s.freeCols pc).head? with
  | none => needColumn pc (s.physCol pc lcol) s
  | some q =>
    match s.admits (act 1 pc (s.migArg pc lcol)) with
    | (false, s1) => s1
    | (true, s1) => s1.modArr (fun a => { a with migrations := a.migrations ++
        [{ pc := pc, lcol := lcol, p := s.physCol pc lcol, q := q, row := 0, copy := none, ended := false }] })

/-- COLUMN_MIGRATION: the first candidate column of physical cluster cl of tile t (R176); a retired cluster serves nothing and is not migrated. -/
def execColumnMigration (t : Fin 64) (cl : Fin 66) (s : State) : Out :=
  let pc := t.val * 66 + cl.val
  match s.arr.candidates.find? (·.1 == pc) with
  | none => .next s
  | some c =>
    if !s.bit (cr 6 0) 1 || s.arr.migrations.any (·.pc == pc) || s.retired pc then .next s
    else match (List.range 288).find? (fun l => s.physCol pc l == c.2) with
      | some l => .next (startMigration pc l s)
      | none => .next s

/-- A migration ends without a switch: its spare column is free again and its candidate is kept (R182). A write-back that its copy has read for
stays pending (R173). -/
def dropMigration (pc : Nat) (s : State) : State :=
  (s.modArr (fun a => { a with migrations := a.migrations.filter (·.pc != pc) })).release 1 pc

/-- The copy write of a migration, and its next read (R178). -/
def migStep (g : Migration) (s : State) : State :=
  if !s.bit (cr 6 0) 1 then dropMigration g.pc s
  else
    let s1 := match g.copy with | some r => makeWriteBack g.pc r s | none => s
    let s2 := if g.row < 4096 then lampRead g.pc g.row 4 s1 else s1
    s2.modArr (fun a => { a with migrations := a.migrations.map (fun h =>
      if h.pc = g.pc then { h with copy := if g.row < 4096 then some g.row else none, row := g.row + 1, ended := decide (4096 ≤ g.row) } else h) })

/-- What the copy of a row with error vector e holds in error: a correctable row is copied corrected and re-encoded, another as read (R184). -/
def copiedErr (e : BitVec 288) : BitVec 288 := match decodeRow e with | .fix f => e ^^^ f | _ => e

/-- The copy write of a substitution into the spare cluster, and its next read (R184). -/
def subStep (g : Substitution) (s : State) : State :=
  let old := s.physOf g.tile g.cl
  let new := g.tile * 66 + g.target
  let s1 := match g.copy with
    | some r => cancelCopies r (· == new) (cancelWriteBack new r (s.setErr new r (copiedErr (s.err old r))))
    | none => s
  let s2 := if g.row < 4096 then
      (match decodeRow (s1.err old g.row) with
       | .uncorrectable =>
         let seen := tget (konst []) s1.arr.ueWin old
         (recordUe old g.row 4 0 s1).modArr (fun a => { a with ueWin := tset (konst []) a.ueWin old seen })
       | .fix e => countFix old e s1
       | .clean => s1)
    else s1
  s2.modArr (fun a => { a with substs := a.substs.map (fun h =>
    if h.tile = g.tile then { h with copy := if g.row < 4096 then some g.row else none, row := g.row + 1, ended := decide (4096 ≤ g.row) } else h) })

/-- One stolen ac of the copies of partition p. -/
def copyStep (p : Nat) (s : State) : State :=
  let s1 := each (s.arr.migrations.filter (fun g => s.inReach p g.pc && !g.ended)) migStep s
  each (s1.arr.substs.filter (fun g => s.inReach p (g.tile * 66) && !g.ended)) subStep s1

/-- MIGRATION_COPY_STEP: in a stolen ac, each copy of the partition writes the row it read and reads the next one (R178, R184). -/
def execMigrationCopyStep (p : Quad) (s : State) : Out := if s.stolen p then .next (copyStep p s) else .next s

/-- A copy of the partition has work pending. -/
def State.copyPending (s : State) (p : Nat) : Bool :=
  s.arr.migrations.any (fun g => s.inReach p g.pc && !g.ended) || s.arr.substs.any (fun g => s.inReach p (g.tile * 66) && !g.ended)

/-- FORCED_STEAL: an instruction boundary is held for one ac, which counts as stolen: the copies and the scrub take it (R172, R179). -/
def execForcedSteal (p : Quad) (s : State) : Out :=
  if s.fld (cr 6 0) 4 4 ≠ 0 ∧ s.copyPending p ∧ (s.seq (s.driver p)).run.isNone then .next (copyStep p (scrubAc p s)) else .next s

/-- Q becomes L's physical column and P is retired (R180). -/
def switchColumn (g : Migration) (s : State) : State :=
  let s1 := s.modArr (fun a => { a with
    colMap := tset colMap0 a.colMap (g.pc * 288 + g.lcol) g.q, colRet := tset (konst false) a.colRet (g.pc * 304 + g.p) true
    candidates := a.candidates.filter (· != (g.pc, g.p)), migrations := a.migrations.filter (·.pc != g.pc) })
  repairReport 2 ((s1.release 1 g.pc).mapRecord (.column g.pc g.lcol g.q g.p))

/-- COLUMN_SWITCH: at an instruction boundary, every cluster of the partition whose copy has ended switches (R180). -/
def execColumnSwitch (p : Quad) (s : State) : Out :=
  if (s.seq (s.driver p)).run.isNone then
    .next (each (s.arr.migrations.filter (fun g => (s.quads p).contains (tileQuad (g.pc / 66)) && g.ended)) switchColumn s)
  else .next s

/-- A substitution starts when it is admitted; a migration of the cluster ends (R182–R184). -/
def startSubst (t cl target : Nat) (s : State) : State :=
  let pc := s.physOf t cl
  match s.admits (act 2 pc (t * 2 ^ 24 + cl * 2 ^ 16)) with
  | (false, s1) => s1
  | (true, s1) => (dropMigration pc s1).modArr (fun a => { a with substs := a.substs ++
      [{ tile := t, cl := cl, target := target, row := 0, copy := none, ended := false }] })

/-- The lamplighter has cause to substitute logical cluster cl of tile t (R183): a candidate whose turn it is finds no free spare column, or a second
uncorrectable row arose in the window. -/
def State.substCause (s : State) (t cl : Nat) : Bool :=
  let pc := s.physOf t cl
  (s.arr.candidates.any (·.1 == pc) && (s.freeCols pc == []) && !s.arr.migrations.any (·.pc == pc)) || decide (2 ≤ (tget (konst []) s.arr.ueWin pc).length)

/-- CLUSTER_SUBSTITUTION of logical cluster cl of tile t: started, or the spares are exhausted (R183, R186). -/
def execClusterSubstitution (t cl : Fin 64) (s : State) : Out :=
  let pc := s.physOf t.val cl.val
  if !s.substCause t.val cl.val || s.arr.substs.any (fun g => g.tile == t.val && g.cl == cl.val) then .next s
  else match (if s.canSubst pc then s.freeCluster t.val else none) with
    | some target => .next (startSubst t.val cl.val target s)
    | none => .next (needCluster pc s)

/-- The spare cluster answers for the logical cluster (R185); candidates of the old one are kept (R182). -/
def switchCluster (g : Substitution) (s : State) : State :=
  let old := s.physOf g.tile g.cl
  let new := g.tile * 66 + g.target
  let s1 := (s.setErr new shadowRow (s.err old shadowRow)).modArr (fun a => { a with
    subst := tset subst0 a.subst (g.tile * 64 + g.cl) g.target, substs := a.substs.filter (·.tile != g.tile) })
  repairReport 2 ((s1.release 2 old).mapRecord (.cluster g.tile g.cl g.target))

/-- CLUSTER_SUBSTITUTION_SWITCH: at an instruction boundary, the substitutions whose copy has ended switch (R185). -/
def execClusterSubstitutionSwitch (p : Quad) (s : State) : Out :=
  if (s.seq (s.driver p)).run.isNone then
    .next (each (s.arr.substs.filter (fun g => (s.quads p).contains (tileQuad g.tile) && g.ended)) switchCluster s)
  else .next s

/-- The oldest record not yet written goes into the repair maps (R187). -/
def writeMap (s : State) : State :=
  match s.mapDue with
  | [] => s
  | r :: rest => when rest.isEmpty (fun s => s.release 10 0) { s with mapDue := rest, maps := s.maps ++ [r] }

/-- A column or cluster record of the repair maps in force (R187). -/
def applyArray (r : RepairRec) (s : State) : State :=
  match r with
  | .column pc l q p => s.modArr (fun a => { a with
      colMap := tset colMap0 a.colMap (pc * 288 + l) q, colRet := tset (konst false) a.colRet (pc * 304 + p) true })
  | .cluster t cl target => s.modArr (fun a => { a with subst := tset subst0 a.subst (t * 64 + cl) target })
  | _ => s

/-- The array domain that a column or cluster record is for. -/
def RepairRec.arrayDomain : RepairRec → Option Nat
  | .column pc _ _ _ => some (tileDomain (pc / 66))
  | .cluster t _ _ => some (tileDomain t)
  | _ => none

/-- The repair maps of an array domain are applied at its power-up: what they hold is in force, and nothing else (R187). -/
def applyDomain (d : Nat) (s : State) : State :=
  each (s.maps.filter (fun r => r.arrayDomain == some d)) applyArray (s.modArr (fun a => { a with
    colMap := a.colMap.filter (fun e => tileDomain (e.1 / 288 / 66) != d), colRet := a.colRet.filter (fun e => tileDomain (e.1 / 304 / 66) != d)
    subst := a.subst.filter (fun e => tileDomain (e.1 / 64) != d) }))

/-- An array domain loses power: the records of its switches that are not yet written are not written later (R187). -/
def loseRecords (d : Nat) (s : State) : State :=
  let due := s.mapDue.filter (fun r => r.arrayDomain != some d)
  when due.isEmpty (fun s => s.release 10 0) { s with mapDue := due }

/-- REPAIR_MAP_WRITE: where the NVM writer is held, the write waits for a slice boundary (R437). -/
def execRepairMapWrite (s : State) : Out := if s.writerHeld then .next s else .next (writeMap s)

end Sys2Proof.Machine
end

