-- ==== Sys2Proof/Machine/Domain.lean ====
section
/-! DEFINITION. Power domains: states, drain conditions, what is kept and lost, wakes and zeroing (R34, R36, R264, R351–R355). -/
namespace Sys2Proof.Machine

/-- A packet is held in a wake buffer of domain d (R264). -/
def State.wakeHeld (s : State) (d : Nat) : Bool := s.packets.any (fun p => p.stage == .held && p.domain == some d)

/-- The PEs of array domain d: 2 × 2 tiles (R34). -/
def domPlane (d : Nat) : Plane := rect (256 * (d % 4)) (256 * (d / 4)) 256 256

/-- A partition is idle as row A of Table PWR-1 asks. -/
def State.partIdle (s : State) (p : Nat) : Bool :=
  let x := s.seq (s.driver p)
  x.queue.isEmpty && x.lane.isEmpty && x.run.isNone && x.frame.isNone && (s.xfer p).isNone && s.trees p == Trees.none

/-- The partition that holds quadrant q. -/
def State.partIdx (s : State) (q : Nat) : Nat := (s.partOf q).headD q

/-- The condition of Table PWR-1 under which domain d may drain. A staging request that reaches a stack's home in CG ends the CG period, so none has waited
during it, but one that the home has not answered; a request still on the rings has not reached a bridge (R264, R351). -/
def State.mayDrain (s : State) (d : Nat) : Bool :=
  if d < 16 then s.partIdle (s.partIdx (domQuad d))
  else if d < 21 then
    (s.core (d - 16)).run == .waiting .wfi &&
    (match s.drives (d - 16) with | some p => s.partIdle p | none => true)
  else if d < 25 then s.fld (ct (d - 21) 0x10) 18 2 != 1 && !s.packets.any (fun p => p.domain == some d && p.op.isSome &&
    (p.stage == .held || p.stage == .parked || (p.stage == .served && !p.posted && !p.answered)))
  else if d < 29 then (s.half (d - 25) 0).link == .disabled && (s.half (d - 25) 1).link == .disabled
  else d == 30 && s.fld (cr 0x48 0x20) 16 3 == 0 && s.r32 (cr 0x48 0x28) == 0

/-- PWR_DCTLd.PGEN; in a nap every domain but M, N and P is to turn OFF (Table BOOT-6). -/
def State.pgen (s : State) (d : Nat) : Bool := (s.boot.nap || s.bit (cr 8 (0x100 + 8 * d)) 29) && d != 29 && d != 31 && d != 32

/-- Requests that a drain lets complete: those of the domain itself, and those that its blocks have not answered (R264). -/
def State.outstanding (s : State) (d : Nat) : Bool :=
  s.packets.any (fun p => p.op.isSome && (portDomain p.sstop.val p.sport == some d || (p.domain == some d && p.stage == .served && !p.posted && !p.answered)))

/-- A wake source of an OFF domain is present: a packet in its wake buffers; a queued instruction or a transfer of its partition (A); a deliverable source (S);
a transfer (H); a load (F) (Table PWR-1, R238, R264). -/
def State.wakeSource (s : State) (d : Nat) : Bool :=
  s.wakeHeld d ||
  (if d < 16 then
    let p := s.partIdx (domQuad d)
    let x := s.seq (s.driver p)
    !x.queue.isEmpty || !x.lane.isEmpty || (s.xfer p).isSome
  else if d < 21 then (s.best (d - 16) (bits (s.core (d - 16)).sr.toNat 20 8)).isSome
  else if d < 25 then (s.xfer (s.partIdx (d - 21))).isSome
  else d == 30 && !s.fab.waiting.isEmpty)

/-- What a drain does before the bridges are isolated: caches and directory (R353), migrations (R182), the state of the seam beside its registers (R352). A
substitution in progress is kept (R184; log entry 43). A domain that is held OFF loses what it was doing: results in flight, and a transfer, which ends CANCELLED
(R352, R382; log entry 46). -/
def drainEffects (d : Nat) (s : State) : State :=
  if d < 16 then
    loseRecords d (each ((s.arr.migrations.filter (fun g => tileDomain (g.pc / 66) == d)).map (·.pc)) dropMigration s)
  else if d < 21 then ringLost d (match s.drives (d - 16) with
    | some p => s.modArr (fun a => { a with trees := tset (konst Trees.none) a.trees p Trees.none, clr := tset (konst 0) a.clr p 0 })
    | none => s)
  else if d < 25 then ringLost d (cancelTransfer (s.partIdx (d - 21)) false s)
  else if d < 29 then ringLost d s
  else if d = 30 then fabricOff s
  else s

/-- ARRAY_DOMAIN_ZEROING: a powered-up array domain resets its PE registers, zeroes every row and shadow row, and sets its correction counters to 0 and
begins its first window (R36, R174). -/
def zeroDomain (d : Nat) (s : State) : State :=
  let m := domPlane d
  let inD := fun (pc : Nat) => tileDomain (pc / 66) == d
  s.modArr (fun a => { a with
    x := a.x &&& ~~~m, c := a.c &&& ~~~m, k := a.k ||| m, e := a.e &&& ~~~m, n := a.n &&& ~~~m, sh := a.sh &&& ~~~m
    mem := (a.mem.map (fun e => (e.1, e.2 &&& ~~~m))).filter (fun e => e.2 ≠ 0)
    ready := a.ready &&& ~~~(BitVec.ofNat 4096 ((List.range 16).foldl (fun v r => v + (2 ^ 16 - 1) * 2 ^ (64 * (16 * (d / 4) + r) + 16 * (d % 4))) 0))
    rowErr := a.rowErr.filter (fun e => !inD (e.1 / 8192)), writeBacks := a.writeBacks.filter (fun w => !inD w.1)
    colCnt := a.colCnt.filter (fun e => !inD (e.1 / 304)), ueWin := a.ueWin.filter (fun e => !inD e.1)
    exh := a.exh.filter (fun e => !inD e.1) })

/-- Domain d turns OFF (R351, R352). -/
def domainOff (d : Nat) (s : State) : State := setPnr d 0 (setDom d 3 (drainEffects d s))

/-- The drain begins (R351, R264). -/
def beginDrain (d : Nat) (s : State) : State := setPnr d 0 (setDom d 2 s)

/-- CLOCK_GATE: ON to CG. -/
def execClockGate (d : DomId) (s : State) : Out := if s.dom d.val = 0 then .next (setDom d.val 1 s) else .next s

/-- CLOCK_RESUME: CG to ON. -/
def execClockResume (d : DomId) (s : State) : Out := if s.dom d.val = 1 then .next (setDom d.val 0 s) else .next s

/-- DOMAIN_DRAIN: CG for PGT µs, PGEN = 1 and the condition of Table PWR-1 (R351). -/
def execDomainDrain (d : DomId) (s : State) : Out :=
  if s.dom d.val = 1 ∧ s.pgen d.val ∧ s.mayDrain d.val then .next (beginDrain d.val s) else .next s

/-- POWER_DOWN_COMPLETE: the drained domain passes the point of no return and turns OFF; with packets held or a wake ordered it powers up
again at once; work that has come meanwhile keeps it ON, and it drains on while a request is outstanding (R264). -/
def execPowerDownComplete (d : DomId) (s : State) : Out :=
  if s.dom d.val ≠ 2 then .next s
  else if s.pnr d.val = 0 ∧ ¬ s.mayDrain d.val then .next (setDom d.val 0 s)
  else if s.pnr d.val = 0 ∧ s.outstanding d.val then .next s
  else
    let again := s.wakeHeld d.val || s.pnr d.val == 2
    .next (when again (wakeDomain d.val) (domainOff d.val s))

/-- DOMAIN_WAKE: a wake source reaches an OFF domain (R351). -/
def execDomainWake (d : DomId) (s : State) : Out := if s.wakeSource d.val then .next (wakeDomain d.val s) else .next s

/-- A domain that was WAKING is ON (R351); the repair maps of an array domain are applied before it is zeroed (R36, R187). -/
def wakeDone (d : Nat) (s : State) : State := if d < 16 then zeroDomain d (applyDomain d (domOn d s)) else domOn d s

end Sys2Proof.Machine
end

