-- ==== Sys2Proof/Machine/JobBase.lean ====
section
/-! DEFINITION. Jobs: their order in a queue, the checks before a start, completions and their entries (R284–R291, R381, R403). -/
namespace Sys2Proof.Machine

/-- FLAGS.CS, OVL, DEP. -/
def Job.cs (j : Job) : Bool := j.num.testBit 8
@[inherit_doc Job.cs] def Job.ovl (j : Job) : Bool := j.num.testBit 9
@[inherit_doc Job.cs] def Job.dep (j : Job) : Bool := j.num.testBit 10
/-- JOBID. -/
def Job.jobid (j : Job) : Nat := bits j.num 32 32
/-- A descriptor that completes with DESC_ERROR before any other check (R287). -/
def Job.bad (j : Job) : Bool :=
  let rest := fun (off : Nat) => j.f off (64 - off) != 0
  decide (0 < bits j.num 11 5) || decide (0 < bits j.num 16 16) ||
  (match j.op with
   | 1 => rest 0x38
   | 2 | 3 => rest 0x10
   | 4 => rest 0x21 || decide (j.f 0x18 8 = 0) || decide (2 ^ 32 < j.f 0x18 8) || decide (2 < j.f 0x20 1)
   | 5 => rest 0x16
   | 6 => rest 0x11
   | 7 => rest 8
   | _ => true)

/-- The index of the first job of a queue that has not started. -/
def Queue.nextJob (q : Queue) : Option Nat := q.jobs.findIdx? (fun j => j.start.isNone && j.done.isNone)

/-- Whether job i of a queue may start as far as the order of the queue goes (R286, R291). -/
def State.orderOk (s : State) (q i : Nat) : Bool :=
  let js := (s.queue q).jobs
  match js[i]? with
  | none => false
  | some j =>
    !s.host.waiting.any (fun w => w.1 == q) &&
    (if j.op = 7 then (js.take i).all (fun k => k.done.isSome)
     else if j.ovl ∧ ¬ j.dep then true
     else i == 0 || (match js[i - 1]? with | some k => k.done.isSome | none => true))

/-- The job that queue q starts next, and its index. -/
def State.candidate (s : State) (q : Nat) : Option (Nat × Job) :=
  match (s.queue q).nextJob with
  | none => none
  | some i => if s.orderOk q i ∧ stReady ≤ s.devState then ((s.queue q).jobs[i]?).map (fun j => (i, j)) else none

/-- The status of the job fetched before job i since the queue was enabled (R287). -/
def Queue.prevOf (q : Queue) (i : Nat) : Nat := if i = 0 then q.prev.getD 0 else ((q.jobs[i - 1]?).bind (·.done)).getD 0

/-- A job that runs on a partition: RUN_PROGRAM and the plane jobs. -/
def Job.onPartition (j : Job) : Bool := decide (1 ≤ j.op) && decide (j.op ≤ 3) || j.op == 6

/-- The quadrant's partition has no working sequencer (R25, R288). -/
def State.seqGone (s : State) (p : Nat) : Bool := decide (p < 4) && s.arr.takeover != some (Fin.ofNat 4 p) && s.arr.failed.getLsbD p

/-- The status with which a job completes at its start, with no effect, if it does (R287, R288, R27). -/
def State.atOnce (s : State) (q i : Nat) (j : Job) : Option Nat :=
  if j.bad then some 2
  else if s.devState = stAlarm ∨ s.devState = stLocked then some (if j.op = 7 then 0 else 1)
  else if j.onPartition ∧ s.seqGone (s.jobPart q) then some 1
  else if j.dep ∧ (s.queue q).prevOf i ≠ 0 then some 15
  else if j.op = 6 ∧ ¬ s.keyOk ((s.queue q).owner.getD 0) then some 14
  else if j.op = 7 then some 0
  else none

/-- A completion as Table HOST-5 gives it: status, DETAIL, INFO, RESULT0 and RESULT1. -/
structure Completion where
  status : Nat
  detail : Nat := 0
  info : Nat := 0
  r0 : Nat := 0
  r1 : Nat := 0
  deriving DecidableEq, Repr

/-- The first 60 bytes of a completion entry; HEAD is filled in when it is written. -/
def completionBytes (q : Nat) (j : Job) (c : Completion) (now : Dword) : List Byte :=
  toBytes 4 j.jobid ++ toBytes 2 c.status ++ toBytes 1 j.op ++ toBytes 1 0 ++ toBytes 2 q ++ toBytes 2 0 ++ toBytes 4 c.detail
    ++ toBytes 8 (j.start.getD now).toNat ++ toBytes 8 now.toNat ++ toBytes 8 c.r0 ++ toBytes 8 c.r1 ++ toBytes 8 c.info ++ toBytes 4 0

/-- The entry with the submission queue's HEAD at the time of writing. -/
def withHead (head : Nat) (e : List Byte) : List Byte := e.take 10 ++ toBytes 2 head ++ e.drop 12

/-- COMPLETION_WRITE: the entry of a job of submission queue q goes to its completion queue, waits, or is discarded (R291). -/
def writeCompletion (q status : Nat) (e : List Byte) (s : State) : State :=
  let c := (s.queue q).cq
  if (s.queue c).state = .error then evDrop ((s.queue c).owner.getD 0) s
  else if (s.queue c).full ∨ s.host.waiting.any (fun w => (s.queue w.1).cq == c) then
    s.modHost (fun h => { h with waiting := h.waiting ++ [(q, status, e)] })
  else writeEntry c (withHead (s.queue q).head.toNat e) (status != 0) s

/-- Completed jobs at the front of a queue leave it; the status of the last is kept for DEP (R287). -/
def retire : List Job → Option Nat → List Job × Option Nat
  | [], p => ([], p)
  | j :: js, p => match j.done with
    | some d => retire js (some d)
    | none => (j :: js, p)

/-- Job i of queue q replaced. -/
def setJob (q i : Nat) (j : Job) (s : State) : State := s.modQueue q (fun k => { k with jobs := k.jobs.set i j })

/-- Job i of queue q completes (R286, R287, R291, R381). -/
def finishJob (q i : Nat) (c : Completion) (s : State) : State :=
  match (s.queue q).jobs[i]? with
  | none => s
  | some j =>
    let s1 := setJob q i { j with done := some c.status } s
    let s2 := if j.cs ∧ c.status = 0 then s1 else writeCompletion q c.status (completionBytes q j c s.now) s1
    let s3 := s2.modQueue q (fun k => let r := retire k.jobs k.prev; { k with jobs := r.1, prev := r.2 })
    if s3.devState = stRun ∧ ¬ s3.jobRuns then stateChange stReady s3 else s3

/-- Job i of queue q has started, for the order of its queue and its completion entry (R286, R291). -/
def markStart (q i : Nat) (s : State) : State :=
  match (s.queue q).jobs[i]? with
  | none => s
  | some j => setJob q i { j with start := some s.now } s

/-- Job i of queue q begins to run (R381). -/
def beginJob (q i : Nat) (s : State) : State := if ((s.queue q).jobs[i]?).isSome then toRun (markStart q i s) else s

/-- Jobs of queue q with an opcode that no command starts complete with DESC_ERROR when their turn comes (R287). -/
def settleJobs : Nat → Nat → State → State
  | 0, _, s => s
  | fuel + 1, q, s =>
    match s.candidate q with
    | some (i, j) => if 1 ≤ j.op ∧ j.op ≤ 7 then s else settleJobs fuel q (finishJob q i ⟨2, 0, 0, 0, 0⟩ s)
    | none => s

/-- A completion, and the jobs whose turn it makes. -/
def completeJob (q i : Nat) (c : Completion) (s : State) : State :=
  let s1 := finishJob q i c s
  settleJobs (s1.queue q).jobs.length q s1

/-- The job of queue q that has opcode op and may start now: it completes at once, or `f` runs with its index (R286, R287). -/
def startJob (q op : Nat) (s : State) (f : Nat → Job → State → State) : State :=
  match s.candidate q with
  | some (i, j) =>
    if j.op ≠ op then s
    else match s.atOnce q i j with
      | some st => completeJob q i ⟨st, 0, 0, 0, 0⟩ s
      | none => f i j s
  | none => s

-- Queues served in turn (R286)

/-- Queue q waits with a job that would run now: one of the opcodes, on partition p where one is given. -/
def State.waitsFor (s : State) (ops : List Nat) (p : Option Nat) (q : Nat) : Bool :=
  match s.candidate q with
  | some (i, j) => ops.contains j.op && (match p with | some p => s.jobPart q == p | none => true) && (s.atOnce q i j).isNone
  | none => false

/-- The queue whose turn it is: of those that wait, the first after the one served last, in rising order and around. -/
def State.nextTurn (s : State) (key : Nat) (ops : List Nat) (p : Option Nat) : Option Nat :=
  let dist := fun (q : Nat) => (q + 65536 - tget (konst 65535) s.host.turn key - 1) % 65536
  ((s.host.queues.map (·.1)).filter (s.waitsFor ops p)).foldl (fun m q => match m with
    | none => some q
    | some x => if dist q < dist x then some q else some x) none

/-- Queue q is served: `f` runs if it is its turn, and the turn passes on. -/
def inTurn (key : Nat) (ops : List Nat) (p : Option Nat) (q : Nat) (s : State) (f : State → State) : State :=
  if s.nextTurn key ops p = some q then f (s.modHost (fun h => { h with turn := tset (konst 65535) h.turn key q })) else s

/-- The first running job of queue q completes with STATE_REFUSED, DETAIL SEC_ALARM (R403). -/
def alarmEndOne (q : Nat) (s : State) : State :=
  match (s.queue q).jobs.findIdx? Job.running with
  | some i => finishJob q i ⟨1, s.r32 (cr 3 0x10), 0, 0, 0⟩ s
  | none => s

/-- Every running job of queue q completes so, in ring order. -/
def alarmEndQueue (q : Nat) (s : State) : State := times (s.queue q).jobs.length (fun _ s => alarmEndOne q s) s

/-- ALARM_JOB_END for the jobs of every queue (R403). -/
def alarmEndJobs (s : State) : State :=
  (each (s.host.queues.map (·.1)) alarmEndQueue s).modHost (fun h => { h with progs := [] })

end Sys2Proof.Machine
end

