-- ==== Sys2Proof/Machine/Security.lean ====
section
/-! DEFINITION. Alarms, policies, the mantle, the snuffer and the writes of page SEC (R395–R406, R188). -/
namespace Sys2Proof.Machine

/-- The security monitor changed by a function. -/
def State.modSec (s : State) (f : SecState → SecState) : State := { s with sec := f s.sec }
/-- The pilot changed by a function. -/
def State.modBoot (s : State) (f : BootState → BootState) : State := { s with boot := f s.boot }

@[inherit_doc secAlarm] def secPol : Nat := cr 3 0x18
@[inherit_doc secAlarm] def secStat : Nat := cr 3 0x20
/-- What a reset of the device, pilot-only sleep and a thermal trip leave: the NVM, OTP, the pilot's registers and retained store, the
host's memory, and everything else at reset (R364, R375, Table BOOT-6). -/
def keepPilot (s0 : State) : State :=
  let s := losePower s0
  { State.reset with
    pending := s.pending, mem := s.mem.filter (fun e => decide (nvmBase ≤ e.1)), now := s.now, ran := s.ran, frac := s.frac, time := { s.time with ppsHigh := false }
    creg := s.creg.filter (fun e => decide (65536 ≤ e.1) && decide (e.1 < 4 * 65536)), boot := s.boot, sec := s.sec, epoch := s.epoch
    maps := s.maps, dict := { DictState.reset with copyA := s.dict.copyA, copyB := s.dict.copyB, result := s.dict.result, out := s.dict.out }
    fab := { FabState.reset with flash := s.fab.flash, wear := s.fab.wear, pulls := s.fab.pulls }
    host := { HostState.reset with mem := s.host.mem, msgs := s.host.msgs, perst := s.host.perst }
    power := { PowerState.reset with pilotTemp := s.power.pilotTemp, hot := s.power.hot, smb := s.power.smb, pec := s.power.pec, nacks := s.power.nacks }, free := s.free }

/-- Every switched domain OFF, without a drain. -/
def allOff (s : State) : State := each (List.range 33) (fun d s => setDom d 3 s) s

-- The snuffer (R188, R401, R402)

/-- KEY_PLANE_ZEROING of partition p (R188, R189). A lane routine in progress and one suspended are aborted each with its own record (R112; log entry 34). -/
def eraseKeyPlanes (p : Nat) (s : State) : State :=
  let q := s.driver p
  let s1 := match (s.seq q).run with
    | some r => abortCore p 8 0 0 ((s.seq q).pcOf r) r.q.op.toNat r.lane s
    | none => s
  let s2 := match (s1.seq q).frame with
    | some (.routine r) =>
      clearFrameV q ((abortCore p 8 0 0 ((s1.seq q).pcOf r) r.q.op.toNat false s1).modSeq q (fun x => { x with frame := none, resuming := false }))
    | _ => s1
  let s3 := zeroShadow (s2.quads p) false (cancelTransfer p false s2)
  each (List.range (s3.keyLen p)) (fun i s => zeroRow (s.quads p) (s.keyBase p + i) s) s3

/-- SEC_KWINk: whether a byte address lies in a valid key window. -/
def State.inKeyWindow (s : State) (a : Nat) : Bool :=
  (List.range 4).any (fun k =>
    let w := s.r64 (cr 3 (0x100 + 8 * k))
    w.testBit 63 && decide (bits w 0 20 * 2 ^ 20 ≤ a) && decide (a < (bits w 0 20 + bits w 32 20) * 2 ^ 20))

/-- Every valid key window zeroed (step 3 of Table SEC-6). -/
def zeroKeyWindows (s : State) : State :=
  { s with mem := s.mem.filter (fun e => !(decide (e.1 < stagingEnd) && s.inKeyWindow e.1))
           lineErr := s.lineErr.filter (fun e => !(decide (64 * e.1 < stagingEnd) && s.inKeyWindow (64 * e.1))) }

/-- Step k of Table SEC-6 is complete in the erasure in progress. -/
def State.stepDone (s : State) (k : Nat) : Bool := s.bit secSnuf (k - 1)

/-- Steps 1 to 4 of an erasure, those that are not complete: key registers, key segments, key windows, and for ALL the marker (R401). -/
def eraseSteps (all : Bool) (s : State) : State :=
  let s1 := if s.stepDone 1 then s else (s.modSec (fun x => { x with keyRegs := [] })).setB secSnuf 0
  let s2 := if s1.stepDone 2 then s1 else
    (each ((List.range 4).filter (fun p => s1.quads p != [] && (s1.quads p).any (fun q => (quadDomains q).any s1.domUp))) eraseKeyPlanes s1).setB secSnuf 1
  let s3 := if s2.stepDone 3 then s2 else (zeroKeyWindows s2).setB secSnuf 2
  if all ∧ ¬ s3.stepDone 4 then (s3.modSec (fun x => { x with marker := true, step5 := true })).setB secSnuf 3 else s3

/-- SNUFFER_ERASURE: an order of level 1 SESSION or 2 ALL (R401, R402). -/
def snuff (level : Nat) (s : State) : State :=
  let s1 := if s.bit secSnuf 30 then s else (s.setF secSnuf 0 5 0).setB secSnuf 30
  eraseSteps (level == 2) (s1.setF secSnuf 28 2 level)

/-- Step 5: the NVM key slots, the identity seeds and both index records (R401). -/
def eraseNvmKeys (s : State) : State :=
  (s.modSec (fun x => { x with slots := [], seeds := none, recA := (0, 0), recB := (0, 0), marker := false, erased := true, step5 := false })).setB
    secSnuf 4

/-- Domains M, N and P stay, every other switched domain is held OFF (R382). -/
def holdDomains (s : State) : State :=
  each ((List.range 33).filter (fun d => d != 29 && d != 31 && d != 32)) (fun d s => if s.dom d = 3 then s else domainOff d s) s

/-- TESTMODE was high at the rising edge of SYSRST_N: the part stays in PILOT (R448). -/
def State.testing (s : State) : Bool := s.boot.held.any (·.testMode)

/-- Entry to ALARM or LOCKED (R381, R382, R399): a start-up that waited at B1 is gone, for ALARM is left by a reset alone; RAILS_EN is high (R450). -/
def enterHeld (st : Nat) (s : State) : State :=
  (stateChange st s).modBoot (fun b => { b with alarmN := false, sleep := false, nap := false, held := none, railsEn := true })

-- Alarms (R398–R400)

/-- The lifecycle in effect: 0 TEST, 1 SECURE, 3 ENDED (Table SEC-2). -/
def State.life (s : State) : Nat := if s.sec.lifeNow = 2 then 3 else s.sec.lifeNow.toNat

/-- The period of the pilot clock, pt (R13). -/
def State.pt (s : State) : Nat := s.ran * 32768 / 1000000000

/-- Strength of a policy code: OFF ranks below LOG (R398). -/
def polRank (v : Nat) : Nat := if v = 3 then 0 else v + 1

/-- The stronger of two policy codes. -/
def polMax (a b : Nat) : Nat := if polRank a < polRank b then b else a

/-- The field of a source in SEC_POL as a trigger meets it: in the pt of a write the higher of the old and the new policies (R400). -/
def State.polNow (s : State) (src : Nat) : Nat :=
  let v := s.fld secPol (2 * src) 2
  if s.sec.polWas.1 = s.pt then polMax v (bits s.sec.polWas.2.toNat (2 * src) 2) else v

/-- The policy that applies to a source: OFF acts as ALL but for the mesh in TEST (R398). -/
def State.policy (s : State) (src : Nat) : Nat := let v := s.polNow src; if v = 3 then 2 else v

/-- The mesh is not sampled: TEST with policy OFF (R398). -/
def State.meshOff (s : State) : Bool := s.life == 0 && (s.fld secPol 0 2 == 3 || s.fld secPol 2 2 == 3)

/-- The alarm log copied into the security partition, while domain M is ON (R399). -/
def copyLog (s : State) : State := when (s.dom 29 == 0) (fun s => s.modSec (fun x => { x with part := x.log })) s

/-- A record of the alarm log (R399). -/
def logAlarm (r : AlarmRec) (s : State) : State :=
  copyLog (s.modSec (fun x => { x with log := if x.log.length < 256 then x.log ++ [r] else x.log.take 255 ++ [r]
                                       total := BitVec.ofNat 32 (satAdd 32 x.total.toNat 1) }))

/-- The alarm record as DETAIL1 of class 13 shows it: source, policy, state and detail. -/
def AlarmRec.word (r : AlarmRec) : Nat := r.src.toNat + r.pol.toNat * 256 + r.state.toNat * 65536 + r.detail.toNat * 2 ^ 24

/-- The policy of an alarm applied: SESSION and ALL put the device into ALARM, end its jobs and order the snuffer; then the domains are held
OFF (R399, R403, R382). Under TESTMODE the part stays in PILOT (R448). -/
def applyPolicy (pol : Nat) (s : State) : State :=
  if pol = 0 ∨ s.testing then s
  else
    let s1 := if s.devState = stLocked then s else alarmEndJobs (enterHeld stAlarm s)
    let s2 := each ((List.range 4).filter (fun p => (s1.xfer p).isSome)) (fun p s => cancelTransfer p false s) s1
    holdDomains (snuff pol s2)

/-- ALARM_TRIGGER: source src with policy pol (R399). -/
def trigger (src pol detail : Nat) (s : State) : State :=
  let r : AlarmRec := ⟨s.now, BitVec.ofNat 8 src, BitVec.ofNat 8 pol, BitVec.ofNat 8 s.devState, BitVec.ofNat 40 detail⟩
  oneNc (fun s => applyPolicy pol ((logAlarm r (s.setB secAlarm src)).reportN 13 3 3 0 r.word)) s

/-- A condition of source src arises: it triggers while its bit is 0 (R399). -/
def alarm (src detail : Nat) (s : State) : State := if s.bit secAlarm src then s else trigger src (s.policy src) detail s

/-- The present bit of the mesh sequence. -/
def SecState.drive (x : SecState) : Bool := x.lfsr.getLsbD 14

/-- The MANTLE_DRV pin: the present bit, low while the mesh is not sampled (R398). -/
def State.mantleDrv (s : State) : Bool := s.sec.drive && !s.meshOff

/-- The pull on MANTLE_SNS: towards the complement of the present bit, none while the mesh is not sampled (R398). -/
def State.mantlePull (s : State) : Option Bool := if s.meshOff then none else some !s.sec.drive

/-- A sensor's event: the sensors run in every device state from P1 on (R398). -/
def sense (src : Nat) (s : State) : Out := if s.devState = stOff then .next s else .next (alarm src 0 s)

/-- The mesh sequence one bit on: feedback x^15 + x^14 + 1 (R398). -/
def lfsrNext (l : BitVec 15) : BitVec 15 := BitVec.ofNat 15 (l.toNat * 2 + b2n (l.getLsbD 14 != l.getLsbD 13))

/-- MANTLE_SAMPLE: the pilot samples MANTLE_SNS (R398). -/
def execMantleSample (level : Bool) (s : State) : Out :=
  if s.devState = stOff then .next s
  else if s.meshOff then .next (s.modSec (fun x => { x with differed := false, diffs := [] }))
  else
    let diff := level != s.mantleDrv
    let open_ := diff && s.sec.differed && !s.bit secAlarm 0
    let old := (s.sec.diffs.map (fun d => (d.1 + 1, d.2))).filter (fun d => decide (d.1 < 32))
    let short := diff && old.any (fun d => d.2 == level) && !open_
    let s1 := s.modSec (fun x => { x with lfsr := lfsrNext x.lfsr, differed := diff, diffs := if diff then (0, level) :: old else old })
    .next (if open_ then alarm 0 0 s1 else if short then alarm 1 0 s1 else s1)

/-- VGLITCH_PILOT. -/
def execVglitchPilot (s : State) : Out := sense 2 s
/-- VGLITCH_CORE. -/
def execVglitchCore (s : State) : Out := sense 3 s
/-- CLKGLITCH. -/
def execClkglitch (s : State) : Out := sense 4 s
/-- LIGHT. -/
def execLight (s : State) : Out := sense 5 s
/-- TLOW: the pilot's sensor below −45,000 m°C (R398). -/
def execTlow (s : State) : Out := sense 6 s

/-- The result of an erasure of a level, in the alarm log: the steps that are complete (R402). -/
def logErasure (level : Nat) (s : State) : State :=
  logAlarm ⟨s.now, 8, BitVec.ofNat 8 level, BitVec.ofNat 8 s.devState, BitVec.ofNat 40 (s.fld secSnuf 0 5)⟩ s

/-- ERASURE_COMPLETE: every step ordered has completed; DONE, and LOCKED after ALL (R402). -/
def execErasureComplete (s : State) : Out :=
  if s.bit secSnuf 30 then
    let all := s.sec.step5 || s.fld secSnuf 28 2 == 2
    let s1 := if s.sec.step5 then eraseNvmKeys s else s
    let s2 := (s1.setF secSnuf 30 1 0).setB secSnuf 31
    let s3 := logErasure (s2.fld secSnuf 28 2) s2
    .next (if all then holdDomains (enterHeld stLocked s3) else s3)
  else .next s

-- Page SEC (R406)

/-- OTP policy floors, 2 bits a source (Table SEC-5). -/
def polFloor : Nat := 0x8055a

/-- One field of SEC_POL written (R398, R400; log entry 31). -/
def polField (src v : Nat) (s : State) : State :=
  let old := s.fld secPol (2 * src) 2
  if v = 3 ∧ 2 ≤ src ∧ old ≠ 3 then s.setB secStat 31
  else if src = 8 ∨ v = old then s
  else if polRank old < polRank v then s.setF secPol (2 * src) 2 v
  else if polRank v < polRank (bits polFloor (2 * src) 2) then s
  else if s.sec.lower.any (fun g => g.1 == src && g.2.1 == v && decide (s.ran ≤ g.2.2 + 10000000000)) then s.setF secPol (2 * src) 2 v
  else s.setB secStat 31

/-- SEC_POL written; the policies before the write are kept for its pt. -/
def polWrite (v : Nat) (s : State) : State :=
  let old := (List.range 11).foldl (fun w k => setBits w (2 * k) 2 (s.polNow k)) 0
  each (List.range 11) (fun k s => polField k (bits v (2 * k) 2) s) (s.modSec (fun x => { x with polWas := (s.pt, BitVec.ofNat 32 old) }))

/-- SEC_KWINk written as a whole (R406). -/
def kwinSet (k v : Nat) (s : State) : State :=
  if stagingEnd < (bits v 0 20 + bits v 32 20) * 2 ^ 20 then s.setB secStat 31 else s.plainWrite (cr 3 (0x100 + 8 * k)) 8 v

/-- SEC_CMD written: an erasure order of FWREQ (R399, R401). -/
def secCmd (v : Nat) (s : State) : State :=
  if v / 65536 % 65536 = 0x534E ∧ (v % 4 = 1 ∨ v % 4 = 2) then trigger 8 (v % 4) 0 s else s

/-- A write of n bytes, 4 or 8, of page SEC (R406). -/
def secWrite (i : Initiator) (off n v : Nat) (s : State) : State :=
  let a := cr 3 off
  if i ≠ .mgmt then s.reportUnmapped (0x4200000000 + a)
  else if 0x100 ≤ off ∧ off < 0x120 then
    let k := (off - 0x100) / 8
    let old := s.r64 (cr 3 (0x100 + 8 * k))
    let v' := if n = 8 then v else if off % 8 = 4 then setBits old 32 32 v else setBits old 0 32 v
    if s.bit secSnuf 30 then s.reportUnmapped (0x4200000000 + a) else kwinSet k v' s
  else if off = 0x18 then polWrite v s
  else if off = 0x38 then secCmd v s
  else s.plainWrite a n v

/-- ERASE: a write of SEC_CMD. -/
def execErase (i : Initiator) (v : Word) (s : State) : Out := .next (secWrite i 0x38 4 v.toNat s)
/-- POLICY_WRITE: a write of SEC_POL. -/
def execPolicyWrite (i : Initiator) (v : Word) (s : State) : Out := .next (secWrite i 0x18 4 v.toNat s)
/-- KWIN_WRITE: a write of SEC_KWINk. -/
def execKwinWrite (i : Initiator) (k : Fin 4) (v : Dword) (s : State) : Out := .next (secWrite i (0x100 + 8 * k.val) 8 v.toNat s)

-- Grants (R395)

/-- GRANT_CHECK_FAILURE: the failure is recorded; the eighth in 3,600 s raises GRANTFAIL (R395). -/
def grantFails (s : State) : State :=
  let fs := (s.ran :: s.sec.fails).filter (fun t => decide (s.ran ≤ t + 3600000000000))
  let r : AlarmRec := ⟨s.now, 10, 0, BitVec.ofNat 8 s.devState, 0⟩
  let s1 := (logAlarm r (s.modSec (fun x => { x with fails := fs.take 8 }))).report 1 3 3 0x0006 (0x8002 * 256) 0x0006
  if 8 ≤ fs.length then alarm 10 0 s1 else s1

/-- The grant check: it consumes the nonce, and passes only as R395 states. Its kind, argument and NOTAFTER when it passes. -/
def grantCheck (blob : List Byte) (s : State) : Option (Nat × Nat × Nat) × State :=
  let g := Config.grantFields (blob.take 64)
  let magic := ofBytes (blob.take 4)
  let ok := Config.vendorSigned blob && magic == 0x544E5247 && g.2.2.1 == Config.serial.toNat && s.sec.nonce == some g.2.2.2.1
    && s.bit (cr 2 0x14) 31 && decide (s.now.toNat ≤ g.2.2.2.2)
  let s1 := s.modSec (fun x => { x with nonce := none })
  if ok then (some (g.1, g.2.1, g.2.2.2.2), s1) else (none, grantFails s1)

end Sys2Proof.Machine
end

