-- ==== Sys2Proof/Machine/Power.lean ====
section
/-! DEFINITION. Pages PWR and SMB, adaptive voltage, the throttle, the thermal trip and the SMBus sideband (R351–R365, R372). -/
namespace Sys2Proof.Machine

/-- A report of class 12: PWR_STAT and PWR_THROT (Table LIFE-5). -/
def powerReport (s : State) : State := s.reportN 12 3 8 (s.r32 (pw 8)) (s.r32 (pw 0x10))

/-- PWR_DCTLd written (R351, R352): PGEN and PGT first, then SLEEP and WAKE. -/
def dctlWrite (d v : Nat) (s : State) : State :=
  let s1 := s.plainWrite32 (pw (0x100 + 8 * d)) (if d = 29 ∨ d = 31 ∨ d = 32 then setBits v 29 1 0 else v)
  let s2 := if !v.testBit 30 then s1
    else if !(s1.pgen d && s1.mayDrain d) then s1.setB (pw 8) 29
    else if s1.dom d ≤ 1 then beginDrain d s1 else s1
  if v.testBit 31 then wakeDrain d s2 else s2

/-- PWR_ACLK takes a value (R357). -/
def aclkOk (v : Nat) : Bool := let m := bits v 0 12; m % 50 == 0 && decide (1000 ≤ m) && decide (m ≤ Config.fmax.toNat)

/-- PWR_ACLK written (R357); FMAX is 3,000 MHz at most (Table PWR-2). -/
def aclkWrite (v : Nat) (s : State) : State :=
  let m := bits v 0 12
  if m % 50 ≠ 0 ∨ m < 1000 then s.setB (pw 8) 30
  else if Config.fmax.toNat < m then powerReport (s.setB (pw 8) 31)
  else (s.plainWrite32 (pw 0x20) v).setB (pw 0x20) 31

/-- PWR_LIMIT written (R363): the fused IMAX is 720 A (R449). -/
def limitWrite (v : Nat) (s : State) : State :=
  if 720 < bits v 0 16 then powerReport (s.setB (pw 8) 31) else s.plainWrite32 (pw 0x18) v

/-- A 32-bit write of page PWR (R372). -/
def powerWrite (i : Initiator) (off v : Nat) (s : State) : State :=
  if i ≠ .mgmt then s.reportUnmapped (0x4200000000 + pw off)
  else if off = 0x20 then aclkWrite v s
  else if off = 0x18 then limitWrite v s
  else if 0x100 ≤ off ∧ off < 0x208 ∧ off % 8 = 0 then dctlWrite ((off - 0x100) / 8) v s
  else s.plainWrite32 (pw off) v

/-- A 32-bit write of page SMB (R372). -/
def smbWrite (i : Initiator) (off v : Nat) (s : State) : State :=
  if i = .mgmt then s.plainWrite32 (cr 0x4e off) v else s.reportUnmapped (0x4200000000 + cr 0x4e off)

/-- SLEEP: a write of PWR_DCTLd with SLEEP set. -/
def execSleep (i : Initiator) (d : DomId) (s : State) : Out :=
  .next (powerWrite i (0x100 + 8 * d.val) (setBits (s.r32 (pw (0x100 + 8 * d.val))) 30 2 1) s)

/-- WAKE: a write of PWR_DCTLd with WAKE set. -/
def execWake (i : Initiator) (d : DomId) (s : State) : Out :=
  .next (powerWrite i (0x100 + 8 * d.val) (setBits (s.r32 (pw (0x100 + 8 * d.val))) 30 2 2) s)

/-- ACLK_WRITE. -/
def execAclkWrite (i : Initiator) (v : Word) (s : State) : Out := .next (powerWrite i 0x20 v.toNat s)

/-- ACLK_CHANGE: every partition is idle, the array PLL relocks and PEND clears (R357). -/
def execAclkChange (s : State) : Out :=
  if (List.range 4).all (fun p => s.quads p == [] || s.partIdle p) then .next (s.setF (pw 0x20) 31 1 0) else .next s

/-- LIMIT_WRITE. -/
def execLimitWrite (i : Initiator) (v : Word) (s : State) : Out := .next (powerWrite i 0x18 v.toNat s)

-- Adaptive voltage (R358–R360)

/-- The count of steps above the high threshold replaced. -/
def setAbove (d n : Nat) (s : State) : State := s.modPower (fun p => { p with above := tset (konst 0) p.above d n })

/-- AVFS_STEP (R358). -/
def execAvfsStep (d : DomId) (m : Margin) (s : State) : Out :=
  if s.dom d.val = 3 then .next s
  else
    match m with
    | .low => .next (setAbove d.val 0 (setVset d.val (clampSet d.val (s.vset d.val + 5000)) s))
    | .inside => .next (setAbove d.val 0 (setVset d.val (clampSet d.val (s.vset d.val)) s))
    | .high =>
      let n := tget (konst 0) s.power.above d.val + 1
      .next (if n < 100 then setAbove d.val n (setVset d.val (clampSet d.val (s.vset d.val)) s) else setAbove d.val 0 (setVset d.val (clampSet d.val (s.vset d.val - 5000)) s))

/-- DROOP_STRETCH: a reading more than 30 mV below the set point stretches one cycle (R359). -/
def execDroopStretch (d : DomId) (uv : BitVec 20) (s : State) : Out :=
  if uv.toNat + 30000 < s.vset d.val then
    .next (s.modPower (fun p => { p with stretches := tset (konst 0) p.stretches d.val (tget (konst 0) p.stretches d.val + 1) }))
  else .next s

/-- The domains on an input rail (Table PWR-3). -/
def railDomains (r : Nat) : List Nat := if r = 1 then List.range 16 else (List.range 17).map (· + 16)

/-- The value rail r asks for, mV × 16: the highest set point plus HEAD, rounded up to 5 mV and clamped (R360). -/
def State.railWant (s : State) (r : Nat) : Nat :=
  let top := (railDomains r).foldl (fun m d => max m (s.vset d)) 0
  let head := s.fld (cr 0x4e (8 * r)) 0 16
  let v := (top + head * 1000 + 4999) / 5000 * 80
  min (max v (s.fld (cr 0x4e (8 * r)) 16 16)) (s.fld (cr 0x4e (8 * r)) 32 16)

/-- The value requested last, at first SMB_AVSr.LAST's reset. -/
def State.railAsked (s : State) (r : Nat) : Nat := tget (konst 0x3200) s.power.avsReq r

/-- AVS_REQUEST: from step B5 on, sent when the value has changed by 5 mV; a request never acknowledged keeps LAST and sets AVSERR (R360, R373). -/
def execAvsRequest (r : Fin 2) (acked : Bool) (s : State) : Out :=
  let want := s.railWant r.val
  let had := s.railAsked r.val
  if ¬ s.power.avs ∨ (want < had + 80 ∧ had < want + 80) then .next s
  else
    let s1 := s.modPower (fun p => { p with avsReq := tset (konst 0x3200) p.avsReq r.val want })
    .next (if acked then s1.setF (cr 0x4e (8 * r.val)) 48 16 want else powerReport (s1.setB (cr 0x4e 0x10) 31))

-- Throttle and trip (R362, R364)

/-- TL and CL replaced; L is the larger, and THR is set and logged when L leaves 0. -/
def setLevels (tl cl : Nat) (s : State) : State :=
  let l := max tl cl
  let s1 := s.setR32 (pw 0x10) (l * 256 + tl * 16 + cl)
  if s.fld (pw 0x10) 8 3 = 0 ∧ 0 < l then powerReport (s1.setB (pw 8) 28) else s1

/-- PWR_THROT.TL and CL. -/
def State.tl (s : State) : Nat := s.fld (pw 0x10) 4 3
@[inherit_doc State.tl] def State.cl (s : State) : Nat := s.fld (pw 0x10) 0 3

/-- THERMAL_TRIP: power leaves every switched domain without drain; the device enters ALARM, and alarm source 7 applies; a start-up that waited at B1 is gone, for
ALARM is left by a reset alone (R364, R381, R382). -/
def thermalTrip (s : State) : State :=
  let tj := (List.range 33).map (fun d => (d, s.fld (pw (0x300 + 8 * d)) 32 32))
  let s1 := each tj (fun e s => s.setF (pw (0x300 + 8 * e.1)) 32 32 e.2) (allOff (keepPilot s))
  let s2 := (s1.setF (cr 0 0x18) 0 3 stAlarm).modBoot (fun b => { b with
    trip := true, alarmN := false, fw := false, rom := false, sleep := false, nap := false, held := none, railsEn := true })
  { alarm 7 0 s2 with errlog := [], errLast := [] }

/-- A domain's hottest reading shown in TJ, unless it is OFF. -/
def readTj (e : DomId × Int) (s : State) : State :=
  if s.dom e.1.val = 3 then s else s.setF (pw (0x300 + 8 * e.1.val)) 32 32 (BitVec.ofInt 32 e.2).toNat

/-- The readings taken: the listed domains that are not OFF, and 33 the pilot's own sensor. -/
def State.readings (s : State) (tj : List (DomId × Int)) (pilot : Int) : List (Nat × Int) :=
  (tj.filter (fun e => s.dom e.1.val != 3)).map (fun e => (e.1.val, e.2)) ++ [(33, pilot)]

/-- TL after a reading at or above 105,000 m°C (R362). -/
def heat (s : State) : State :=
  match s.power.tlRise with
  | some t => if s.ran < t + 100000 then s else (setLevels (min 7 (s.tl + 1)) s.cl s).modPower (fun p => { p with tlRise := some s.ran })
  | none => (setLevels (min 7 (s.tl + 1)) s.cl s).modPower (fun p => { p with tlRise := some s.ran })

/-- What a reading does while no start-up waits for it (R362, R364). -/
def takeReading (tj : List (DomId × Int)) (pilot : Int) (s : State) : State :=
  let rs := s.readings tj pilot
  let hot := (rs.filter (fun r => decide (125000 ≤ r.2))).map (·.1)
  let s1 := (each tj readTj s).modPower (fun p => { p with pilotTemp := pilot, hot := hot })
  let s2 := if rs.any (fun r => decide (105000 ≤ r.2)) then oneNc heat s1 else s1
  if hot.any (s.power.hot.contains ·) ∧ ¬ s.boot.trip ∧ ¬ s.testing then thermalTrip s2 else s2

/-- THERMAL_DECAY: after 1 ms in which every reading was below 103,000 m°C (R362). -/
def execThermalDecay (s : State) : Out :=
  if (List.range 33).all (fun d => s.dom d == 3 || decide (s.tj d < 103000)) ∧ s.power.pilotTemp < 103000 then .next (setLevels (s.tl - 1) s.cl s)
  else .next s

/-- CURRENT_LIMIT_STEP: `us` µs at an estimate of `amps` (R362). -/
def execCurrentLimitStep (amps us : Nat) (s : State) : Out :=
  let ilim := s.fld (pw 0x18) 0 16
  if ilim < amps then .next ((setLevels s.tl (min 7 (s.cl + us)) s).modPower (fun p => { p with cool := 0 }))
  else if amps * 100 < ilim * 95 then
    let c := s.power.cool + us
    .next ((setLevels s.tl (s.cl - c / 100) s).modPower (fun p => { p with cool := c % 100 }))
  else .next (s.modPower (fun p => { p with cool := 0 }))

-- SMBus (R365)

/-- The part's address on SMBus: 0x58 + SMB_A, as the straps stood at the last reset (R365). -/
def State.smbAddr (s : State) : Nat := 0x58 + bits s.boot.env.straps.toNat 4 2

/-- One byte into the packet error check: CRC-8, polynomial 0x07, most significant bit first (PRESUMED: the SMBus specification; log entry 45). -/
def pecByte (c : Nat) (b : Byte) : Nat := times 8 (fun _ c => if 128 ≤ c then (2 * c % 256) ^^^ 7 else 2 * c) (c ^^^ b.toNat)

/-- The pilot answers on SMBus: it has power, VIO18 feeds the pins, and TESTMODE does not silence it (R365, R448, R455). -/
def State.smbOn (s : State) : Bool := s.devState != stOff && s.boot.vio18 && !s.testing

/-- The answer to the block read of a command: its bytes, and the packet error check over address, command, address, count and bytes (R365; log entry 45). -/
def smbReply (cmd : Nat) (b : List Byte) (s : State) : State :=
  let whole := [BitVec.ofNat 8 (2 * s.smbAddr), BitVec.ofNat 8 cmd, BitVec.ofNat 8 (2 * s.smbAddr + 1), BitVec.ofNat 8 b.length] ++ b
  if s.smbOn then s.modPower (fun p => { p with smb := b, pec := BitVec.ofNat 8 (whole.foldl pecByte 0) }) else s

/-- The hottest junction temperature, and in pilot-only sleep the pilot's own sensor (R365). -/
def State.hottest (s : State) : Int := if s.boot.sleep then s.power.pilotTemp else (List.range 32).foldl (fun m d => max m (s.tj (d + 1))) (s.tj 0)

/-- SMB_TEMPERATURE. -/
def execSmbTemperature (s : State) : Out := .next (smbReply 1 (toBytes 4 (BitVec.ofInt 32 s.hottest).toNat) s)
/-- SMB_PACKAGE_POWER: `mw` is the estimate from the regulators. -/
def execSmbPackagePower (mw : Word) (s : State) : Out := .next ((smbReply 2 (toBytes 4 mw.toNat) s).modPower (fun p => { p with draw := mw }))
/-- SMB_DEVICE_STATE. -/
def execSmbDeviceState (s : State) : Out := .next (smbReply 3 (toBytes 1 s.devState) s)
/-- SMB_THROTTLE_LEVEL. -/
def execSmbThrottleLevel (s : State) : Out := .next (smbReply 4 (toBytes 1 (s.fld (pw 0x10) 8 3)) s)
/-- SMB_SERIAL_NUMBER. -/
def execSmbSerialNumber (s : State) : Out := .next (smbReply 5 (toBytes 8 Config.serial.toNat) s)
/-- SMB_REFUSED: a write or another command is NACKed, and sets SMBERR. -/
def execSmbRefused (s : State) : Out := .next (if s.smbOn then (s.setB (cr 0x4e 0x10) 30).modPower (fun p => { p with nacks := p.nacks + 1 }) else s)

end Sys2Proof.Machine
end

