-- ==== Sys2Proof/Machine/Time.lean ====
section
/-! DEFINITION. Device time: its ticks, discipline, alarm, pulses and stamps, and page TIME (R366–R372). -/
namespace Sys2Proof.Machine

/-- Time discipline changed by a function. -/
def State.modTime (s : State) (f : TimeState → TimeState) : State := { s with time := f s.time }

/-- TIME_CTL.SRC. -/
def State.timeSrc (s : State) : Nat := s.fld (tm 0x10) 24 2
/-- TIME_CTL.STEPTH, ns. -/
def State.stepTh (s : State) : Nat := s.fld (tm 0x10) 0 24
/-- TIME_STAT.VALID, LOCK, HOLD replaced. -/
def setValid (s : State) : State := s.setB (tm 0x14) 31
@[inherit_doc setValid] def setLock (b : Bool) (s : State) : State := s.setF (tm 0x14) 30 1 (b2n b)
@[inherit_doc setValid] def setHold (b : Bool) (s : State) : State := s.setF (tm 0x14) 29 1 (b2n b)

/-- 500 ppm in units of 2^−8 ppb. -/
def maxAdj : Int := 128000000

/-- A rate correction brought within ±500 ppm (R366). -/
def clampAdj (v : Int) : Int := max (-maxAdj) (min maxAdj v)

/-- The interface ceiling of a session (Table DICT-2). -/
def State.ceiling (s : State) : Session → Nat
  | .mailbox f => s.fnLevel f.val
  | .can _ _ => s.dval 0x1200 1
  | .udp _ _ _ => s.dval 0x1200 2
  | .net _ _ => 0

/-- Level 3 ends in every session whose grant has run out, or whose ceiling is below 3 (R411). -/
def endLevel3 (s : State) : State :=
  { s with dict := { s.dict with sess := s.dict.sess.map (fun k =>
      { k with level3 := k.level3.filter (fun t => decide (s.now.toNat ≤ t.toNat) && s.ceiling k.id == 3) }) } }

/-- The device time and its fraction as one number in units of 2^−16 ns. -/
def State.fine (s : State) : Int := (s.now.toNat * 2 ^ 16 + s.frac.toNat : Nat)

/-- Device time replaced, in units of 2^−16 ns. -/
def setFine (v : Int) (s : State) : State := { s with now := BitVec.ofInt 64 (v / 2 ^ 16), frac := BitVec.ofInt 16 (v % 2 ^ 16) }

/-- Time goes on by `d` units of 2^−16 ns, adjusted by `adj` units of 2^−8 ppb; what the adjustment leaves below a unit is carried on (R366). -/
def passTime (d adj : Int) (s : State) : State :=
  let v := d * (256000000000 + adj) + s.time.resid
  let s1 := setFine (s.fine + v / 256000000000) s
  ({ s1 with ran := s.ran + (s1.now - s.now).toNat } : State).modTime (fun t => { t with resid := v % 256000000000, prev := s.now })

/-- Time is set or stepped to another value: what measures time that has passed goes on as before (R230, R289, R292), and no second's offset is passed (R368,
R371; log entry 44). -/
def moveTime (v : Int) (s : State) : State :=
  let s1 := setFine v s
  endLevel3 (s1.modTime (fun t => { t with prev := s1.now }))

/-- The second, counted at the offset of PPS_OUT, in which a device time lies. -/
def State.ppsSecond (s : State) (t : Dword) : Int := ((t.toNat : Int) - s.fld (tm 0x30) 0 30) / 1000000000

/-- Device time modulo 10^9 passed TIME_PPS.OFF in the last tick (R371). -/
def State.ppsPassed (s : State) : Bool := decide (s.ppsSecond s.time.prev < s.ppsSecond s.now)

/-- The PPS_OUT level falls WIDTH µs after its edge (R371). -/
def ppsFall (s : State) : State :=
  if s.time.ppsHigh ∧ s.fld (tm 0x30) 30 20 * 1000 ≤ (s.now.toNat + 1000000000 - s.fld (tm 0x30) 0 30) % 1000000000 then
    s.modTime (fun t => { t with ppsHigh := false })
  else s

/-- The time clock runs: some domain other than the pilot is powered, and the device is not in pilot-only sleep (Table PWR-2, R370). -/
def State.timeClock (s : State) : Bool := !s.boot.sleep && (List.range 33).any (fun d => s.dom d != 3)

/-- TIME_ADJ without the part of a slew, once the interval of that slew is over or a step takes its place: its lasting quarter stays (R368). -/
def endSlew (s : State) : State :=
  if s.time.slew = 0 then s
  else (s.setR32 (tm 0x18) (BitVec.ofInt 32 (signed 32 (s.r32 (tm 0x18)) - s.time.slew)).toNat).modTime (fun t => { t with slew := 0 })
@[inherit_doc endSlew] def slewDue (s : State) : State := when (decide (s.time.slewEnd ≤ s.ran)) endSlew s

/-- DEVICE_TIME_TICK: 4 ns while the time clock runs, else 30,517 ns and fraction 0x9400 (R356, R366, R370). -/
def tick (s : State) : State :=
  endLevel3 <| slewDue <| ppsFall (if ¬ s.timeClock then passTime (30517 * 2 ^ 16 + 0x9400) (signed 32 (s.r32 (tm 0x1c))) s else passTime (4 * 2 ^ 16) (signed 32 (s.r32 (tm 0x18))) s)

/-- Time moves by a step in 2^−16 ns: VALID, and LOCK falls (R368). -/
def stepTime (d : Int) (s : State) : State :=
  (setLock false (setValid (moveTime (s.fine + d) s))).modTime (fun t => { t with run := 0, lockAt := none })

/-- A correction without a step whose offset was below 100 ns, or not: LOCK after 8 in a row (R368). -/
def countCorrection (small : Bool) (s : State) : State :=
  let run := if small then s.time.run + 1 else 0
  let s1 := s.modTime (fun t => { t with run := run })
  if 8 ≤ run ∧ ¬ s1.bit (tm 0x14) 30 then (setLock true (setValid s1)).modTime (fun t => { t with lockAt := some s1.ran }) else s1

/-- A hardware correction of an offset in 2^−16 ns, over an interval in ns, under SRC 10 or 11: a step, or a slew for that interval, of which a quarter
stays (R368). -/
def correct (o : Int) (interval : Nat) (s : State) : State :=
  let s0 := endSlew (setHold false s)
  let base := signed 32 (s0.r32 (tm 0x18))
  if s.stepTh * 65536 ≤ o.natAbs then stepTime (-o) s0
  else
    let v := clampAdj (base - o * 3906250 / interval)
    countCorrection (decide (o.natAbs < 6553600))
      ((s0.setR32 (tm 0x18) (BitVec.ofInt 32 v).toNat).modTime (fun t => { t with slew := (v - base) - (v - base) / 4, slewEnd := s.ran + interval }))

/-- TIME_NOW written (R372). -/
def timeSet (v : Nat) (s : State) : State :=
  (setLock false (setValid (moveTime (v % 2 ^ 64 * 2 ^ 16 : Nat) s))).modTime (fun t => { t with run := 0, lockAt := none })

/-- TIME_STEP written (R368, R370). -/
def timeStepWrite (v : Nat) (s : State) : State := when (s.timeSrc == 1) (setHold false) (stepTime (signed 64 v * 65536) s)

/-- TIME_ADJ written: refused beyond ±500 ppm; under SRC 01 a correction whose offset only the firmware knows (R366, R368, R370). -/
def timeAdjWrite (v : Nat) (s : State) : State :=
  if maxAdj < signed 32 v ∨ signed 32 v < -maxAdj then s.setB (tm 0x14) 27
  else
    let s1 := (s.setR32 (tm 0x18) v).modTime (fun t => { t with slew := 0 })
    if s.timeSrc = 1 then countCorrection (Config.raceFirst s.free) (setHold false s1).draw else s1

/-- A write of n bytes of page TIME (R372). A 32-bit write of half a 64-bit register keeps the other half. -/
def timeWrite (i : Initiator) (off n v : Nat) (s : State) : State :=
  let whole := fun (old : Nat) => if n = 8 then v else if off % 8 = 4 then setBits old 32 32 v else setBits old 0 32 v
  if i ≠ .mgmt then s.reportUnmapped (0x4200000000 + tm off)
  else if off < 8 then timeSet (whole s.now.toNat) s
  else if 0x20 ≤ off ∧ off < 0x28 then timeStepWrite (whole 0) s
  else if off = 0x18 then timeAdjWrite v s
  else
    let s1 := s.plainWrite (tm off) n v
    if s1.bit (tm 0x30) 63 then s1 else s1.modTime (fun t => { t with ppsHigh := false })

/-- TIME_SET: a write of TIME_NOW. -/
def execTimeSet (i : Initiator) (v : Dword) (s : State) : Out := .next (timeWrite i 0 8 v.toNat s)
/-- TIME_STEP: a write of TIME_STEP. -/
def execTimeStep (i : Initiator) (v : Dword) (s : State) : Out := .next (timeWrite i 0x20 8 v.toNat s)
/-- TIME_ADJ_WRITE. -/
def execTimeAdjWrite (i : Initiator) (v : Word) (s : State) : Out := .next (timeWrite i 0x18 4 v.toNat s)

/-- The alarm of R371: source 60 pulses and TIME_ALARM reads 0. -/
def alarmDue (s : State) : State := (s.setR64 (tm 0x28) 0).pulse 60

/-- TIME_ALARM: device time is at or above TIME_ALARM, which is not 0 (R371). -/
def execTimeAlarm (s : State) : Out :=
  if s.r64 (tm 0x28) ≠ 0 ∧ s.r64 (tm 0x28) ≤ s.now.toNat then .next (alarmDue s) else .next s

/-- PPS_OUT: the edge at which device time passes TIME_PPS.OFF, while OUTEN and VALID are 1 and the pins are as configured; source 61 pulses (R371, Table
BOOT-4). -/
def execPpsOut (s : State) : Out :=
  if s.bit (tm 0x30) 63 ∧ s.bit (tm 0x14) 31 ∧ s.ppsPassed ∧ stReady ≤ s.devState then
    .next ((s.modTime (fun t => { t with ppsHigh := true, prev := s.now })).pulse 61)
  else .next s

/-- The part of a time within the second, within ±0.5 s (R368). -/
def withinSecond (c : Nat) : Int := let e := c % 1000000000; if 500000000 ≤ e then (e : Int) - 1000000000 else e

/-- An edge of PPS_IN less than 0.5 s after the last one is ignored (R457). -/
def State.ppsSoon (s : State) : Bool :=
  match s.time.ppsLast with
  | some t => decide (s.ran < t + 500000000)
  | none => false

/-- PPS_IN: the rising edge is captured, and under SRC 11 corrects time (R368). -/
def execPpsIn (s : State) : Out :=
  if s.bit (tm 0x30) 62 ∧ ¬ s.ppsSoon then
    let s1 := (s.setR64 (tm 0x38) (2 ^ 63 + s.now.toNat % 2 ^ 63)).modTime (fun t => { t with ppsLast := some s.ran })
    .next (if s.timeSrc = 3 then correct (withinSecond s.now.toNat * 65536) 1000000000 s1 else s1)
  else .next s

/-- HOLD_CALIBRATION: LOCK has been 1 for 64 s (R370). -/
def execHoldCalibration (ppb : Word) (s : State) : Out :=
  match s.time.lockAt with
  | some t => if s.bit (tm 0x14) 30 ∧ t + 64000000000 ≤ s.ran then .next (s.setR32 (tm 0x1c) (BitVec.ofInt 32 (clampAdj ppb.toInt)).toNat) else .next s
  | none => .next s

/-- The messages only a master sends (R369). -/
def ptpMaster : PtpKind → Bool
  | .sync | .followUp | .delayResp | .announce => true
  | .delayReq | .peerDelay => false

/-- The event messages of IEEE 1588, which are stamped. -/
def ptpStamped : PtpKind → Bool
  | .sync | .delayReq | .peerDelay => true
  | .followUp | .delayResp | .announce => false

/-- The bytes of v, the highest first. -/
def bigEndian (n v : Nat) : List Byte := (toBytes n v).reverse
/-- Bytes written into a message at an offset. -/
def overlay (off : Nat) (v m : List Byte) : List Byte := m.take off ++ v ++ m.drop (off + v.length)

/-- messageType of a PTP message (PRESUMED: IEEE 1588; log entry 44). -/
def ptpType (m : List Byte) : Nat := (m.getD 0 0).toNat % 16

/-- The kind that a stamp names. -/
def ptpKindOf (m : List Byte) : PtpKind := match ptpType m with | 0 => .sync | 1 => .delayReq | _ => .peerDelay

/-- MGE_CTL.PTP: 0 off, 1 E2E, 2 P2P. -/
def State.ptpMode (s : State) : Nat := s.fld (cr 0x4c 0) 28 2

/-- An event message is stamped: PTP is on, and a delay request or a peer-delay message belongs to the mechanism in use (R369). -/
def State.ptpStamps (s : State) (k : PtpKind) : Bool :=
  ptpStamped k && s.ptpMode != 0 && (k != .delayReq || s.ptpMode == 1) && (k != .peerDelay || s.ptpMode == 2)

/-- A hardware stamp taken now. -/
def ptpStamp (k : PtpKind) (outgoing : Bool) (s : State) : State := s.modTime (fun t => { t with stamp := some ⟨k, outgoing, s.now, s.frac⟩ })

/-- An event message as it leaves the PCS: in one-step operation a Sync carries the time of its sending as originTimestamp, and a peer-delay response in its
correctionField the time since the request it answers was stamped (R369; the places are those of IEEE 1588, PRESUMED, log entry 44). -/
def State.oneStep (s : State) (m : List Byte) : List Byte :=
  if !s.bit (cr 0x4c 0) 27 then m
  else match ptpType m, s.time.stamp with
    | 0, _ => overlay 34 (bigEndian 6 (s.now.toNat / 1000000000) ++ bigEndian 4 (s.now.toNat % 1000000000)) m
    | 3, some x =>
      let old := ofBytes ((m.drop 8).take 8).reverse
      overlay 8 (bigEndian 8 (BitVec.ofInt 64 (old + s.fine - (x.time.toNat * 2 ^ 16 + x.frac.toNat : Nat))).toNat) m
    | _, _ => m

end Sys2Proof.Machine
end

