-- ==== Sys2Proof/Machine/Seam.lean ====
section
/-! DEFINITION. Half-edges, flits, lanes and the system tree (R132, R136, R296–R311, R319, R320). -/
namespace Sys2Proof.Machine

/-- A report of class 9: SEAMe_STAT, and a lane register where one is concerned (Table LIFE-5). -/
def seamReport (sev e d1 : Nat) (s : State) : State := s.reportN 9 sev (0x30 + e) (s.r32 (sm e 0x10)) d1

/-- A half-edge's state replaced, shown in SEAMe_STAT.LSh. -/
def setLink (e h : Nat) (l : HalfLink) (s : State) : State :=
  (s.modHalf e h (fun x => { x with link := l })).setF (sm e 0x10) (4 * h) 3 l.code

/-- SEAMe_STAT.NLh. -/
def State.nl (s : State) (e h : Nat) : Nat := s.fld (sm e 0x10) (8 + 5 * h) 5
/-- NLh replaced, and the lanes that the code stripes over with it. -/
def putNl (e h n : Nat) (s : State) : State := (s.modHalf e h (fun x => { x with width := n })).setF (sm e 0x10) (8 + 5 * h) 5 n
/-- NLh replaced by what training found or a lane's change left; fewer than 16 working lanes set LDEG and degrade the device (R309). -/
def setNl (e h n : Nat) (s : State) : State :=
  let s1 := putNl e h n s
  if n < 16 then degrade 17 (s1.setB (sm e 0x10) 28) else s1

/-- A half-edge leaves UP for DOWN (R304). -/
def linkDown (e h : Nat) (s : State) : State :=
  if (s.half e h).link = .up then seamReport 3 e 0 ((setLink e h .down s).setB (sm e 0x10) 27) else s

/-- The transmitter sends what it may. -/
def pumpHalf (e h : Nat) (s : State) : State := s.modHalf e h Half.flow

-- SEAMe registers (R299, R304, R320)

/-- The lanes that EN bits enable: 16 and a spare for each half-edge (R296). -/
def enLanes (v : Nat) : Nat := 17 * (v % 2) + 17 * (v / 2 % 2)

/-- The lanes enabled across all edges if edge e's EN bits were v (R299). -/
def State.lanesWith (s : State) (e v : Nat) : Nat :=
  (List.range 4).foldl (fun n k => n + enLanes (if k = e then v else s.r32 (sm k 0))) 0

/-- EN0 or EN1 as written takes its half-edge to DETECT, or disables it (R304); while the TAP keeps the half-edges DOWN they stay so (R454). -/
def enable (e v h : Nat) (s : State) : State :=
  if s.boot.tap.disturbs then s
  else if v.testBit h then (if (s.half e h).link = .disabled then setLink e h .detect s else s)
  else if (s.half e h).link = .disabled then s else putNl e h 0 (setLink e h .disabled s)

/-- A value of SEAMe_CTL breaches no ceiling (R299). -/
def State.seamFits (s : State) (e v : Nat) : Bool :=
  decide (bits v 6 2 ≤ Config.rate.toNat) && decide (bits v 12 4 ≤ Config.swing.toNat) && decide (s.lanesWith e v ≤ Config.lanes.toNat)

/-- SEAMe_CTL written: a reserved RATE, a breach of a ceiling, or the new values (R299, R304). -/
def seamCtl (e v : Nat) (s : State) : State :=
  if bits v 6 2 = 3 then s.setB (sm e 0x10) 30
  else if s.seamFits e v then enable e v 1 (enable e v 0 (s.plainWrite32 (sm e 0) v))
  else seamReport 3 e 0 (s.setB (sm e 0x10) 31)

/-- A 32-bit write of SEAMe, which wakes domain L-e (R320, Table PWR-1). -/
def seamWrite (i : Initiator) (e off v : Nat) (s : State) : State :=
  if i ≠ .mgmt then s.reportUnmapped (0x4200000000 + sm e off)
  else
    let s1 := wakeDomain (25 + e) s
    if off = 0 then seamCtl e v s1 else s1.plainWrite32 (sm e off) v

/-- HALF_EDGE_ENABLE: a write of SEAMe_CTL. -/
def execHalfEdgeEnable (i : Initiator) (e : EdgeId) (v : Word) (s : State) : Out := .next (seamWrite i e.val 0 v.toNat s)
/-- SEAM_CTL_WRITE: a write of SEAMe_CTL. -/
def execSeamCtlWrite (i : Initiator) (e : EdgeId) (v : Word) (s : State) : Out := .next (seamWrite i e.val 0 v.toNat s)

/-- PARTNER_DETECTED: DETECT to TRAIN. -/
def execPartnerDetected (e : EdgeId) (h : HalfId) (s : State) : Out :=
  if (s.half e.val h.val).link = .detect then .next (setLink e.val h.val .train s) else .next s

/-- The half-edge when the partner has restarted: nothing buffered, full credits, counts anew (R304). -/
def Half.restart (h : Half) : Half := { Half.reset with link := h.link, rate := h.rate, width := h.width, spareOf := h.spareOf }

/-- The code of a training over the lanes that it found: the stream, its slots and the runs of NAKs begin anew at both ends, an alignment codeword before
the first (R298). -/
def Half.coded (parity lanes : Nat) (h : Half) : Half :=
  { h with parity := parity, tx := Half.reset.tx, rxPos := 0, rxCount := 0, rxLane := (514 + parity) % lanes, slots := 0, nakOut := 0, nakRun := 0 }

/-- Training that ends in UP (R304, R318). -/
def trained (e h lanes : Nat) (epoch : Byte) (s : State) : State :=
  let x := s.half e h
  let changed := match x.partner with | some p => p != epoch | none => false
  let x1 := if changed then x.restart else { x with resend := x.replay }
  let rate := min (s.fld (sm e 0) 6 2) Config.rate.toNat
  let x2 := Half.coded (fecParity rate (s.bit (sm e 0) 9)) lanes { x1 with partner := some epoch, rate := BitVec.ofNat 2 rate }
  let s2 := setNl e h lanes (setLink e h .up (s.setHalf e h x2))
  let s3 := pumpHalf e h (if changed then s2.setB (sm e 0x10) 26 else s2)
  if h = 0 ∧ s3.router.readmit.getLsbD e then
    { s3.setF (cr 0x34 0x28) (24 + e) 1 0 with router := { s3.router with readmit := s3.router.readmit &&& ~~~(BitVec.ofNat 4 (2 ^ e)) } }
  else s3

/-- TRAINING_COMPLETE: UP, or DETECT on fewer than 8 working lanes (R304). -/
def execTrainingComplete (e : EdgeId) (h : HalfId) (lanes : Nat) (epoch : Byte) (s : State) : Out :=
  if (s.half e.val h.val).link = .train then
    .next (if lanes < 8 then setLink e.val h.val .detect s else trained e.val h.val (min lanes 16) epoch s)
  else .next s

/-- LINK_DOWN. -/
def execLinkDown (e : EdgeId) (h : HalfId) (s : State) : Out := .next (linkDown e.val h.val s)

/-- AUTO_RETRAIN: DOWN with AUTO = 1. -/
def execAutoRetrain (e : EdgeId) (h : HalfId) (s : State) : Out :=
  if (s.half e.val h.val).link = .down ∧ s.bit (sm e.val 0) 8 ∧ ¬ s.boot.tap.disturbs then .next (setLink e.val h.val .train s) else .next s

-- The trees (R132, R136, R311)

/-- SRT_TOPO: the parent edge, a child edge. -/
def State.parent (s : State) : Option Nat := if s.bit (cr 0x34 0x10) 18 then some (s.fld (cr 0x34 0x10) 16 2) else none
@[inherit_doc State.parent] def State.children (s : State) : List Nat := (List.range 4).filter (fun e => s.bit (cr 0x34 0x10) (12 + e))

/-- The partitions whose offers a match takes: those of the present shape with a working sequencer (R132). -/
def State.offering (s : State) : List Nat := (List.range 4).filter (fun p => s.quads p != [] && !s.seqGone p)

/-- The first offers that meet a test, one for each partition; none when a partition has not made its own. -/
def State.firsts (s : State) (t : Tree) (c : Offer → Bool) : Option (List Offer) :=
  let os := s.offering.map (fun p => ((s.trees p).of t).find? c)
  if s.offering ≠ [] ∧ os.all Option.isSome then some (os.filterMap id) else none

/-- Every partition's first offer that meets a test takes a result; a clear that one of them makes is every partition's (R131, R132). -/
def giveAll (t : Tree) (c : Offer → Bool) (v : Nat) (s : State) : State :=
  let clr := s.offering.any (fun p => (((s.trees p).of t).find? c).any (·.fclr))
  each s.offering (fun p s => setTree p t (giveTo c v clr ((s.trees p).of t)) s) s

/-- The system tree of a tree, and it replaced. -/
def State.tree (s : State) (t : Tree) : SysTree := tget (konst SysTree.reset) s.sys (if t = .count then 1 else 0)
@[inherit_doc State.tree] def State.setSysTree (s : State) (t : Tree) (x : SysTree) : State :=
  { s with sys := tset (konst SysTree.reset) s.sys (if t = .count then 1 else 0) x }

/-- A RED flit given to half-edge 0 of an edge. -/
def sendRed (e : Nat) (r : RedFlit) (s : State) : State := s.modHalf e 0 (fun x => x.send (.red r))

/-- The first offer of each partition that meets a test becomes part of the combination (R136, R311). -/
def joinAll (t : Tree) (c : Offer → Bool) (s : State) : State :=
  let mark := fun (l : List Offer) => match l.findIdx? c with | some i => l.modify i (fun o => { o with joined := true }) | none => l
  each s.offering (fun p s => setTree p t (mark ((s.trees p).of t)) s) s

/-- The offers that are part of a combination take its result, whatever shape has taken effect since (R136). -/
def giveJoined (t : Tree) (v : Nat) (s : State) : State :=
  each (List.range 4) (fun p s => setTree p t (giveTo (fun o => o.joined && o.got.isNone) v false ((s.trees p).of t)) s) s

/-- The result of offer k: forwarded to each child, and landed in every partition; the next offer's combination begins (R311). -/
def sysResult (t : Tree) (v : Nat) (s : State) : State :=
  let x := s.tree t
  let s1 := each s.children (fun e s => sendRed e ⟨t == .count, true, x.k, BitVec.ofNat 37 v⟩ s) s
  (giveJoined t v s1).setSysTree t { SysTree.reset with k := if x.restart then 1 else x.k + 1 }

/-- The combination, once this part's own result and every child's are there: sent up, or taken as the result (R311). -/
def sysAdvance (t : Tree) (s : State) : State :=
  let x := s.tree t
  match x.own with
  | none => s
  | some own =>
    let cs := s.children.map (fun e => tget (konst none) x.child e)
    if x.sent ∨ ¬ cs.all Option.isSome then s
    else
      let all := own :: cs.filterMap id
      let v := if t = .count then all.foldl (· + ·) 0 else all.foldl max 0
      match s.parent with
      | none => sysResult t v s
      | some e => sendRed e ⟨t == .count, false, x.k, BitVec.ofNat 37 v⟩ (s.setSysTree t { x with sent := true })

/-- The tree a RED flit belongs to. -/
def RedFlit.tree (r : RedFlit) : Tree := if r.isCount then .count else .wick

/-- The value it carries: a count, or one bit of the wick (R300). -/
def redValue (r : RedFlit) : Nat := if r.isCount then r.value.toNat else r.value.toNat % 2

/-- Whether a RED flit on edge e can be taken now: a result from the parent, or a child's value for the offer being combined (R311). -/
def State.redFits (s : State) (e : Nat) (r : RedFlit) : Bool :=
  let x := s.tree (RedFlit.tree r)
  s.inTree && r.k == x.k && x.own.isSome &&
    (if r.down then s.parent == some e && x.sent else s.children.contains e && (tget (konst none) x.child e).isNone)

/-- A RED flit is taken (R311). -/
def takeRed (e : Nat) (r : RedFlit) (s : State) : State :=
  let t := RedFlit.tree r
  if r.down then sysResult t (redValue r) s
  else
    let x := s.tree t
    sysAdvance t (s.setSysTree t { x with child := tset (konst none) x.child e (some (redValue r)) })

/-- The first RED flit on edge e that can be taken leaves its buffer, freeing its entry. -/
def drainRed (e : Nat) (s : State) : State :=
  let x := s.half e 0
  match x.rxRed.findIdx? (s.redFits e) with
  | none => s
  | some i => match x.rxRed[i]? with
    | none => s
    | some r => takeRed e r (s.setHalf e 0 { x with rxRed := x.rxRed.eraseIdx i, frRed := x.frRed + 1 })

/-- RED flits that wait are taken as they come to fit: at most 64 wait on the four edges. -/
def drainReds (s : State) : State := times 64 (fun i s => drainRed (i % 4) s) (times 64 (fun i s => drainRed (i % 4) s) s)

/-- DEVICE_SCOPE_MATCH: the device result, or this part's contribution to a system result (R132, R136, R311). -/
def execDeviceScopeMatch (t : Tree) (s : State) : Out :=
  let s1 := match s.firsts t (s.deviceOffer t) with
    | some os => giveAll t (s.deviceOffer t) (combine t os) s
    | none => s
  match s1.firsts t (s1.systemOffer t) with
  | some os =>
    if (s1.tree t).own.isNone then
      .next (drainReds (sysAdvance t ((joinAll t (s1.systemOffer t) s1).setSysTree t { s1.tree t with own := some (combine t os) })))
    else .next s1
  | none => .next s1

/-- A RED flit enters the receive buffer of edge e and is taken if it fits. -/
def receiveRed (e : Nat) (r : RedFlit) (s : State) : State :=
  drainReds (s.modHalf e 0 (fun x => if x.rxRed.length < 16 then { x with rxRed := x.rxRed ++ [r] } else x))

/-- REDUCTION_FLIT_RECEIVE (R311). -/
def execReductionFlitReceive (e : EdgeId) (r : RedFlit) (s : State) : Out :=
  if (s.half e.val 0).link = .up then .next (receiveRed e.val r s) else .next s

/-- A vector enters the receive buffer of its half-edge (R124). -/
def receiveVector (e h : Nat) (v : BitVec 512) (s : State) : State :=
  s.modHalf e h (fun x => if x.rxEv.length < 64 then { x with rxEv := x.rxEv ++ [v] } else x)

/-- EDGE_VECTOR_RECEIVE (R124). -/
def execEdgeVectorReceive (e : EdgeId) (h : HalfId) (v : BitVec 512) (s : State) : Out :=
  if (s.half e.val h.val).link = .up then .next (receiveVector e.val h.val v s) else .next s

-- Flits (R300–R303)

/-- Fields of a flit (Table SEAM-2). -/
def flitType (f : BitVec 560) : Nat := bits f.toNat 13 3
@[inherit_doc flitType] def flitSeq (f : BitVec 560) : BitVec 9 := BitVec.ofNat 9 (bits f.toNat 4 9)
@[inherit_doc flitType] def flitSub (f : BitVec 560) : Nat := bits f.toNat 0 4
@[inherit_doc flitType] def flitPayload (f : BitVec 560) : Nat := bits f.toNat 16 512

/-- A flit passes: its CRC is right, and its TYPE and SUB codes are not reserved (R300). -/
def flitOk (f : BitVec 560) : Bool :=
  bits f.toNat 528 32 == crc32Bits 528 f.toNat && decide (flitType f ≤ 4) &&
  (match flitType f with
   | 2 => flitSub f % 4 == 0
   | 3 => decide (flitSub f < 8)
   | _ => flitSub f == 0)

/-- The CTL a payload carries. -/
def ctlOf (p : Nat) : CtlFlit :=
  let f := fun k => Config.ctlField k p
  ⟨BitVec.ofNat 9 (f 0), if f 1 = 1 then some (BitVec.ofNat 9 (f 2)) else none, BitVec.ofNat 8 (f 3), BitVec.ofNat 8 (f 4), BitVec.ofNat 8 (f 5),
   BitVec.ofNat 8 (f 6), BitVec.ofNat 8 (f 7)⟩

/-- The steering an LMF payload carries. -/
def lmfOf (p : Nat) : LmfSteer :=
  let f := fun k => Config.lmfField k p
  ⟨Fin.ofNat 34 (f 1), Fin.ofNat 34 (f 2), f 3 == 1, f 4 == 1⟩

/-- What a flit carries. -/
def flitBody (f : BitVec 560) : FlitBody :=
  let p := flitPayload f
  let b := flitSub f
  match flitType f with
  | 0 => .ctl (ctlOf p)
  | 1 => .ev (BitVec.ofNat 512 p)
  | 2 => .red ⟨b.testBit 3, b.testBit 2, BitVec.ofNat 8 p, BitVec.ofNat 37 (if b.testBit 3 then p / 256 else p / 256 % 2)⟩
  | 3 => .msg (b.testBit 2) (b.testBit 1) (b.testBit 0) (BitVec.ofNat 512 p)
  | _ => .lmf (lmfOf p)

/-- The flits up to the acknowledged SEQ leave the replay buffer (R302). -/
def ackTo (a : BitVec 9) (l : List (BitVec 9 × Numbered)) : List (BitVec 9 × Numbered) :=
  if l.any (fun f => f.1 == a) then (l.dropWhile (fun f => f.1 != a)).tail else l

/-- A CTL: acknowledgement and credits; the credit rises by what has been freed since the last report (R302, R303). -/
def Half.credit (h : Half) (c : CtlFlit) : Half :=
  let n := { h with
    replay := ackTo c.ack h.replay, resend := ackTo c.ack h.resend
    crEv := h.crEv + (c.freedEv - h.repEv).toNat, crRed := h.crRed + (c.freedRed - h.repRed).toNat
    crM0 := h.crM0 + (c.freedMsg0 - h.repM0).toNat, crM1 := h.crM1 + (c.freedMsg1 - h.repM1).toNat
    repEv := c.freedEv, repRed := c.freedRed, repM0 := c.freedMsg0, repM1 := c.freedMsg1
    -- a SEQ that has been acknowledged is NAKed no longer
    nakRun := if (ackTo c.ack h.replay).any (fun f => f.1 == h.nakSeq) then h.nakRun else 0 }
  n.flow

/-- A NAK: the transmitter resends from that SEQ; the eighth in a row takes the half-edge DOWN (R302). -/
def nak (e h : Nat) (q : BitVec 9) (s : State) : State :=
  let x := s.half e h
  let run := if x.nakRun ≠ 0 ∧ x.nakSeq = q then x.nakRun + 1 else 1
  let s1 := s.setHalf e h { x with nakSeq := q, nakRun := run, resend := x.replay.dropWhile (fun f => f.1 != q) }.flow
  if 8 ≤ run then linkDown e h (s1.modHalf e h (fun x => { x with nakRun := 0 })) else s1

/-- NAK_RECEIVE. -/
def execNakReceive (e : EdgeId) (h : HalfId) (q : BitVec 9) (s : State) : Out :=
  if (s.half e.val h.val).link = .up then .next (nak e.val h.val q s) else .next s

/-- A CTL received: credits, then its NAK. -/
def receiveCtl (e h : Nat) (c : CtlFlit) (s : State) : State :=
  let s1 := s.modHalf e h (fun x => x.credit c)
  match c.nak with | some q => nak e h q s1 | none => s1

/-- CREDIT_UPDATE: a CTL arrives. -/
def execCreditUpdate (e : EdgeId) (h : HalfId) (c : CtlFlit) (s : State) : Out :=
  if (s.half e.val h.val).link = .up then .next (receiveCtl e.val h.val c s) else .next s

/-- The CTL that a half-edge sends now: its acknowledgement, a NAK that is due and what has been freed (R300, R303). -/
def Half.ctlNow (h : Half) (epoch : Byte) : CtlFlit := ⟨h.expSeq - 1, h.nakDue, h.frEv, h.frRed, h.frM0, h.frM1, epoch⟩
/-- It goes out: the slots are counted from it, and what waited behind it follows (R301). -/
def Half.sendCtl (h : Half) (epoch : Byte) : Half :=
  let x := { h with ctl := some (h.ctlNow epoch), nakDue := none, nakOut := if h.nakDue.isSome then h.nakOut + 1 else h.nakOut }.emit
    (encodeFlit 0 (.ctl (h.ctlNow epoch)))
  { x with slots := 0 }.flow

/-- CTL_FLIT_DUE: a CTL with a NAK that is due; the eighth NAK of one SEQ in a row takes the half-edge DOWN (R301–R303). -/
def execCtlFlitDue (e : EdgeId) (h : HalfId) (s : State) : Out :=
  let x := s.half e.val h.val
  if x.link = .up then
    let s1 := s.setHalf e.val h.val (x.sendCtl s.epoch)
    if x.nakDue.isSome then
      let s2 := s1.incF (sm e.val 0x200) 48 16 1
      .next (if 7 ≤ x.nakOut then linkDown e.val h.val s2 else s2)
    else .next s1
  else .next s

-- Lanes (R307–R309)

/-- SEAMe_LANEk. -/
def lane (e k : Nat) : Nat := if k < 32 then sm e (0x100 + 8 * k) else cr (0x2030 + e) (8 * k)
/-- The half-edge of a lane, and its spare (R296). -/
def laneHalf (k : Nat) : Nat := if k < 16 ∨ k = 32 then 0 else 1
@[inherit_doc laneHalf] def laneSpare (k : Nat) : Nat := 32 + laneHalf k
/-- SEAMe_LANEk as read, with the retrains begun in the last 3,600 s (R307). -/
def State.laneReg (s : State) (e k : Nat) : Nat := setBits (s.r64 (lane e k)) 54 2 (min 3 (s.retrains e k).length)
/-- A lane's STATE: 0 active, 1 spare free, 2 retired, 3 retraining. -/
def State.laneState (s : State) (e k : Nat) : Nat := s.fld (lane e k) 62 2
/-- STATE and SERVES replaced; 63 serves none. -/
def setLane (e k st serves : Nat) (s : State) : State := s.setF (lane e k) 56 8 (st * 64 + serves)

/-- Too few lanes: below 16 LDEG, below 8 DOWN and then DETECT (R309). -/
def checkLanes (e h : Nat) (s : State) : State :=
  let s1 := setNl e h (s.nl e h) s
  if s.nl e h < 8 ∧ (s.half e h).link = .up then setLink e h .detect (linkDown e h s1) else s1

/-- A lane's traffic leaves it for the free spare, or is spread over the other lanes (R308). A free spare carries none; one in service keeps in mind which lane
it serves. -/
def steerAway (e k st : Nat) (s : State) : State :=
  let h := laneHalf k
  let s1 := setLane e k st 63 s
  if s.laneState e k = 1 then s1
  else if laneSpare k ≠ k ∧ s.laneState e (laneSpare k) = 1 then setLane e (laneSpare k) 0 k s1
  else
    let s2 := if laneSpare k = k then s1.modHalf e h (fun x => { x with spareOf := s.fld (lane e k) 56 6 }) else s1
    checkLanes e h (putNl e h (s.nl e h - 1) s2)

/-- An LMF waits to be sent on a half-edge, and goes as soon as it may (R301). -/
def queueLmf (e h : Nat) (payload : BitVec 512) (s : State) : State := s.modHalf e h (fun x => { x with lmf := x.lmf ++ [payload] }.flow)

/-- The LMF that names a lane, its spare and the change (R308). -/
def sendLmf (e k : Nat) (toSpare retire : Bool) (s : State) : State :=
  queueLmf e (laneHalf k) (Config.lmfPayload ⟨Fin.ofNat 34 k, Fin.ofNat 34 (laneSpare k), toSpare, retire⟩) s

/-- A lane retrain starts if it is admitted (R307, R308, R436). -/
def startRetrain (e k : Nat) (s : State) : Bool × State :=
  if s.laneState e k = 2 ∨ s.laneState e k = 3 then (false, s)
  else
    match s.admits (act 5 e (e * 2 ^ 16 + k)) with
    | (false, s1) => (false, s1)
    | (true, s1) =>
      let spare := laneSpare k ≠ k ∧ s1.laneState e (laneSpare k) = 1
      let s2 := steerAway e k 3 { s1 with laneTimes := tset (konst []) s1.laneTimes (e * 34 + k) (s1.ran :: s1.retrains e k) }
      (true, seamReport 0 e (s2.laneReg e k) (if spare then sendLmf e k true false s2 else s2))

/-- LANE_RETIREMENT: steered away for good, recorded in the seam-lane repair map (R308, R309). -/
def retireLane (e k : Nat) (s : State) : State :=
  let spare := laneSpare k ≠ k ∧ s.laneState e (laneSpare k) = 1
  let s1 := ((steerAway e k 2 s).setB (sm e 0x10) 29).mapRecord (.lane e k (if spare then laneSpare k else 63))
  seamReport 2 e (s1.laneReg e k) (if spare then sendLmf e k true true s1 else s1)

/-- A lane retirement asks to start; it ends with the command (R307, R435). -/
def startRetire (e k : Nat) (s : State) : Bool × State :=
  if s.laneState e k = 2 then (false, s)
  else
    match s.admits (act 5 e (e * 2 ^ 16 + k)) with
    | (false, s1) => (false, s1)
    | (true, s1) => (true, (retireLane e k s1).release 5 e)

/-- LANE_BER_WINDOW (R307): `ber` is −10 × log10 of the rate. -/
def execLaneBerWindow (e : EdgeId) (k : Fin 34) (ber : Byte) (sym : Word) (s : State) : Out :=
  let s1 := (s.setF (lane e.val k.val) 40 8 ber.toNat).incF (lane e.val k.val) 0 32 sym.toNat
  let thr := max 1 (s.fld (sm e.val 8) 0 8)
  if ber.toNat < thr ∧ s.laneState e.val k.val = 0 ∧ (s.half e.val (laneHalf k.val)).link = .up then
    if (s.retrains e.val k.val).length < 3 then .next (startRetrain e.val k.val s1).2 else .next (startRetire e.val k.val s1).2
  else .next s1

/-- LANE_RETRAIN: the half-edge retrains a lane (R308). -/
def execLaneRetrain (e : EdgeId) (k : Fin 34) (s : State) : Out := .next (startRetrain e.val k.val s).2

/-- A lane's traffic returns to it: the spare is free again, or the half-edge has one more working lane; a spare serves again the lane that it served, or is free
again (R308). -/
def steerBack (e k : Nat) (s : State) : State :=
  let sp := laneSpare k
  let h := laneHalf k
  let more := putNl e h (min 16 (s.nl e h + 1)) s
  if sp = k then
    match (s.half e h).spareOf with
    | 63 => setLane e k 1 63 s
    | j => setLane e k 0 j (more.modHalf e h (fun x => { x with spareOf := 63 }))
  else if s.fld (lane e sp) 56 8 = k then setLane e sp 1 63 (setLane e k 0 k s)
  else setLane e k 0 k more

/-- LANE_RETRAIN_END. -/
def execLaneRetrainEnd (e : EdgeId) (k : Fin 34) (s : State) : Out :=
  if s.laneState e.val k.val = 3 then
    let spared := s.fld (lane e.val (laneSpare k.val)) 56 8 == k.val
    let s1 := (steerBack e.val k.val s).release 5 e.val
    .next (if spared then sendLmf e.val k.val false false s1 else s1)
  else .next s

/-- The partner's steering is followed in both directions; a retirement is recorded here too (R308, worked example SEAM-1). -/
def receiveLmf (e : Nat) (l : LmfSteer) (s : State) : State :=
  let k := l.lane.val
  if l.toSpare then
    if s.laneState e k = 0 then
      let s1 := steerAway e k (if l.retire then 2 else 3) s
      if l.retire then (s1.setB (sm e 0x10) 29).mapRecord (.lane e k l.spare.val) else s1
    else s
  else if s.laneState e k = 3 then steerBack e k s
  else s

/-- LMF_RECEIVE. -/
def execLmfReceive (e : EdgeId) (_h : HalfId) (l : LmfSteer) (s : State) : Out := .next (receiveLmf e.val l s)

-- Receiving (R302)

/-- A MSG flit joins a receive buffer: a head, or a flit of the wormhole that is arriving. What follows a cut is discarded, its entry freed (R318). -/
def joins (l : List (Bool × Bool × BitVec 512)) (head : Bool) : Bool := head || l.getLast?.any (fun f => !f.2.1)

/-- A numbered flit with the expected SEQ is delivered. -/
def deliverFlit (e h : Nat) (b : FlitBody) (s : State) : State :=
  match b with
  | .ev v => receiveVector e h v s
  | .red r => receiveRed e r s
  | .msg vc1 hd tl p => s.modHalf e h (fun x =>
    if vc1 then (if joins x.rxM1 hd then { x with rxM1 := x.rxM1 ++ [(hd, tl, p)] } else { x with frM1 := x.frM1 + 1 })
    else if joins x.rxM0 hd then { x with rxM0 := x.rxM0 ++ [(hd, tl, p)] } else { x with frM0 := x.frM0 + 1 })
  | _ => s

/-- A flit that passes: CTL and LMF act, a numbered flit is delivered once, in order; while the receiver discards, only the flit with the
expected SEQ ends that (R302). -/
def acceptFlit (e h : Nat) (f : BitVec 560) (s : State) : State :=
  let x := s.half e h
  match flitBody f with
  | .ctl c => if x.discard then s else receiveCtl e h c s
  | .lmf l => if x.discard ∨ Config.lmfField 0 (flitPayload f) = 0 then s else receiveLmf e l s
  | b => if flitSeq f = x.expSeq then deliverFlit e h b (s.setHalf e h { x with expSeq := x.expSeq + 1, discard := false, nakOut := 0 }) else s

/-- Whether a flit that passes is delivered: CTL and LMF unless the receiver discards, a numbered flit where its SEQ is the expected one (R302). -/
def Half.takes (x : Half) (f : BitVec 560) : Bool :=
  if flitType f = 0 ∨ flitType f = 4 then !x.discard else flitSeq f == x.expSeq

/-- A flit that fails after FEC: discarded with those behind it, and its SEQ NAKed (R302). -/
def rejectFlit (e h : Nat) (s : State) : State :=
  (s.modHalf e h (fun x => { x with discard := true, nakDue := some x.expSeq })).incF (sm e 0x200) 32 16 1

/-- One flit of the raw stream, with its corrected copy where there is one (R302). -/
def receiveFlit (e h : Nat) (raw : BitVec 560) (fixed : Option (BitVec 560)) (s : State) : State :=
  if flitOk raw then acceptFlit e h raw s
  else match fixed with
    | some f =>
      if flitOk f then (if (s.half e h).takes f then (acceptFlit e h f s).incF (sm e 0x200) 0 32 1 else s)
      else rejectFlit e h s
    | none => rejectFlit e h s

/-- FLIT_RECEIVE: without a code the flit itself, with one the codewords that hold it (R297, R298). -/
def execFlitReceive (e : EdgeId) (h : HalfId) (raw : BitVec 560) (symbols : List (List (BitVec 10))) (s : State) : Out :=
  let x := s.half e.val h.val
  if x.link ≠ .up then .next s
  else if x.parity = 0 then .next (receiveFlit e.val h.val raw none s)
  else
    let y := x.flitIn symbols
    .next (receiveFlit e.val h.val y.1 y.2 (s.modHalf e.val h.val Half.passed))

/-- TIME_EXCHANGE: link delay and offset, and under SRC 10 the correction of a follower (R319, R368). -/
def execTimeExchange (e : EdgeId) (t1 t2 t3 t4 : Int) (s : State) : Out :=
  if (s.half e.val 0).link ≠ .up then .next s
  else
    let delay := ((t2 - t1) + (t4 - t3)) / 2
    let o := ((t2 - t1) - (t4 - t3)) / 2
    let s1 := (queueLmf e.val 0 (Config.timeLmf s.free) s).draw.setR32 (sm e.val 0x208) (BitVec.ofInt 32 delay).toNat
    if s.fld (cr 0x34 0x10) 0 3 = 4 + e.val ∧ s.timeSrc = 2 then .next (correct o (2 ^ s.fld (sm e.val 8) 8 4 * 1000000) s1) else .next s1

end Sys2Proof.Machine
end

