-- ==== Sys2Proof/Machine/Router.lean ====
section
/-! DEFINITION. The seam message router: rings, routing, delivery, resends, flips and retired edges (R310, R312–R318, R320). -/
namespace Sys2Proof.Machine

/-- The router changed by a function. -/
def State.modRouter (s : State) (f : Router → Router) : State := { s with router := f s.router }

@[inherit_doc State.ownX] def State.ownAddr (s : State) : Nat := s.fld (srt 0) 0 16
/-- SRT_CTL.EN. -/
def State.srtOn (s : State) : Bool := s.bit (srt 8) 31

/-- The output edge that a code names: X 1 east, 2 west; Y 1 south, 2 north. -/
def codeEdge (dim code : Nat) : Option Nat :=
  match dim, code with
  | 0, 1 => some 1 | 0, 2 => some 3 | 1, 1 => some 2 | 1, 2 => some 0 | _, _ => none

/-- An entry of the pair table. -/
def State.pair (s : State) (a : Nat) : PairEntry := tget (konst PairEntry.none) s.router.pair a
/-- It replaced. -/
def setPair (a : Nat) (e : PairEntry) (s : State) : State := s.modRouter (fun r => { r with pair := tset (konst PairEntry.none) r.pair a e })

/-- A failure recorded in SRT_FAIL (R312, R316). -/
def srtFail (reason eseq dest : Nat) (s : State) : State :=
  (s.setR64 (srt 0x48) (2 ^ 63 + reason * 2 ^ 56 + eseq * 65536 + dest)).setB (srt 0x28) 29

/-- A message to inject. -/
def inject (m : SeamMsg) (s : State) : State := s.modRouter (fun r => { r with inject := r.inject ++ [m] })

/-- A DACK for a message; DACK and RETRY messages carry no ESEQ (R316). -/
def dack (m : SeamMsg) (st : Nat) (s : State) : State :=
  inject ⟨m.src, BitVec.ofNat 16 s.ownAddr, 0, s.epoch, 0, 0, BitVec.ofNat 16 (s.fld (srt 8) 16 9), 1, BitVec.ofNat 8 st, []⟩ s

/-- A RETRY to a source (R318). -/
def askRetry (src : BitVec 16) (s : State) : State :=
  inject ⟨src, BitVec.ofNat 16 s.ownAddr, 0, s.epoch, 0, 0, BitVec.ofNat 16 (s.fld (srt 8) 16 9), 2, 0, []⟩ s

-- Rings (R312)

/-- LOG2N, the ring's length and its base. -/
def State.ringLog (s : State) (off : Nat) : Nat := s.fld (srt off) 44 4
@[inherit_doc State.ringLog] def State.ringLen (s : State) (off : Nat) : Nat := 2 ^ s.ringLog off
@[inherit_doc State.ringLog] def State.ringBase (s : State) (off : Nat) : Nat := s.fld (srt off) 12 28 * 4096
/-- SRT_QSTAT.TXHEAD and RXTAIL. -/
def State.txHead (s : State) : Nat := s.fld (srt 0x40) 16 16
@[inherit_doc State.txHead] def State.rxTail (s : State) : Nat := s.fld (srt 0x40) 0 16
/-- SRT_TXQ.TAIL and SRT_RXQ.HEAD. -/
def State.txTail (s : State) : Nat := s.fld (srt 0x30) 48 16
@[inherit_doc State.txTail] def State.rxHead (s : State) : Nat := s.fld (srt 0x38) 48 16

/-- An entry is well-formed: reserved bytes 0, LEN 1–496, DEST another part (R312). -/
def State.txOk (s : State) (e : List Byte) : Bool :=
  let len := ofBytes ((e.drop 2).take 2)
  ofBytes ((e.drop 5).take 3) == 0 && ofBytes ((e.drop 8).take 8) == 0 && decide (1 ≤ len) && decide (len ≤ 496) && ofBytes (e.take 2) != s.ownAddr

/-- The message of a transmit entry, with its pair's next ESEQ (R312–R315). -/
def State.txMsg (s : State) (e : List Byte) : SeamMsg :=
  let dest := ofBytes (e.take 2)
  let len := ofBytes ((e.drop 2).take 2)
  ⟨BitVec.ofNat 16 dest, BitVec.ofNat 16 s.ownAddr, (s.pair dest).send, s.epoch, e.getD 4 0, BitVec.ofNat 16 len,
   BitVec.ofNat 16 (s.fld (srt 8) 16 9), 0, 0, (e.drop 16).take len⟩

/-- MESSAGE_SEND (R312). -/
def execMessageSend (s : State) : Out :=
  if s.srtOn ∧ s.ringLog 0x30 ≠ 0 ∧ s.txHead ≠ s.txTail % s.ringLen 0x30 ∧ s.router.store.length < 256 ∧ s.passes routerPort false (s.ringBase 0x30 + s.txHead * 512) then
    let (_, e, s1) := memRead routerPort .mgmt (s.ringBase 0x30 + s.txHead * 512) 512 s
    let s2 := s1.setF (srt 0x40) 16 16 ((s.txHead + 1) % s.ringLen 0x30)
    if s1.txOk e then
      let m := s1.txMsg e
      let p := s1.pair m.dest.toNat
      .next (inject m ((setPair m.dest.toNat { p with send := p.send + 1 } s2).modRouter (fun r => { r with store := r.store ++ [(m, 0)] })))
    else .next (srtFail 4 0 (ofBytes (e.take 2)) s2)
  else .next s

-- Delivery and acknowledgement (R315, R316)

/-- The receive ring is full. -/
def State.rxFull (s : State) : Bool := (s.rxTail + 1) % s.ringLen 0x38 == s.rxHead % s.ringLen 0x38

/-- The data falls short of LEN: the message ends in a poisoned tail (R318). -/
def cutShort (m : SeamMsg) : Bool := decide (m.data.length < m.len.toNat)

/-- The entry written and RXTAIL advanced; the pair expects the next ESEQ (R315). A ring past the end of staging memory takes no entry, as one that is not
there (R29; log entry 37). -/
def storeMsg (m : SeamMsg) (s : State) : State :=
  let e := toBytes 2 m.src.toNat ++ toBytes 2 m.len.toNat ++ toBytes 1 m.kind.toNat ++ toBytes 3 0 ++ toBytes 8 s.now.toNat ++ m.data
  let w := memWrite routerPort .mgmt (s.ringBase 0x38 + s.rxTail * 512) e s
  let s1 := w.2
  let p := s1.pair m.src.toNat
  if w.1 = .unmapped then dack m 2 s1
  else dack m 0 (setPair m.src.toNat { p with recv := some (m.eseq + 1, m.epoch) } (s1.setF (srt 0x40) 0 16 ((s1.rxTail + 1) % s1.ringLen 0x38)))

/-- A data message is delivered when its pair expects it (R315). -/
def State.expects (s : State) (m : SeamMsg) : Bool :=
  match (s.pair m.src.toNat).recv with
  | none => true
  | some (x, ep) => ep != m.epoch || x == m.eseq

/-- A data message that the router holds: the receive ring is full, or lies in a domain that is held OFF or where no token
lets the router write, or the router holds an earlier one of its source (R315). -/
def State.holds (s : State) (m : SeamMsg) : Bool :=
  m.mt == 0 && !cutShort m && s.srtOn && s.ringLog 0x38 != 0 &&
    (s.router.held.any (fun x => x.src == m.src) || (s.expects m && (s.rxFull || !s.passes routerPort true (s.ringBase 0x38 + s.rxTail * 512))))

/-- A data message at its destination (R315, R318). A held one back-pressures its VC, of which the four edges have eight: with as many held, the tail of one more has
not arrived, and nothing changes. -/
def deliverData (m : SeamMsg) (s : State) : State :=
  if cutShort m then askRetry m.src s
  else if ¬ s.srtOn ∨ s.ringLog 0x38 = 0 then dack m 2 s
  else if s.holds m then (if s.router.held.length < 8 then s.modRouter (fun r => { r with held := r.held ++ [m] }) else s)
  else if s.expects m then storeMsg m s
  else
    match (s.pair m.src.toNat).recv with
    | some (x, _) => if 1 ≤ (x - m.eseq).toNat ∧ (x - m.eseq).toNat ≤ 32768 then dack m 1 s else s
    | none => s

/-- The oldest unfreed message to a destination. -/
def State.oldest (s : State) (d : BitVec 16) : Option SeamMsg := (s.router.store.find? (fun e => e.1.dest == d)).map (·.1)

/-- That message leaves the retry store. -/
def freeOldest (d : BitVec 16) (s : State) : State :=
  match s.router.store.findIdx? (fun e => e.1.dest == d) with
  | some i => s.modRouter (fun r => { r with store := r.store.eraseIdx i })
  | none => s

/-- A DACK frees the oldest message to its sender; REFUSED and UNREACHABLE are recorded (R316). -/
def dackReceive (m : SeamMsg) (s : State) : State :=
  match s.oldest m.src with
  | none => s
  | some x =>
    let s1 := freeOldest m.src s
    if m.st.toNat = 2 then srtFail 2 x.eseq.toNat x.dest.toNat s1
    else if m.st.toNat = 3 then srtFail 1 x.eseq.toNat x.dest.toNat s1
    else s1

/-- DACK_RECEIVE. -/
def execDackReceive (m : SeamMsg) (s : State) : Out := .next (dackReceive m s)

/-- A message resent for the fifth time is freed instead and recorded (R316). -/
def exhaust (d : BitVec 16) (s : State) : State :=
  each ((s.router.store.filter (fun e => e.1.dest == d && decide (4 ≤ e.2))).map (·.1)) (fun m s => srtFail 3 m.eseq.toNat m.dest.toNat s)
    (s.modRouter (fun r => { r with store := r.store.filter (fun e => !(e.1.dest == d && decide (4 ≤ e.2))) }))

/-- Every unfreed message to a destination is sent again, in ESEQ order (R316). -/
def resend (d : BitVec 16) (s : State) : State :=
  let s1 := exhaust d s
  let ms := (s1.router.store.filter (fun e => e.1.dest == d)).map (·.1)
  s1.modRouter (fun r => { r with store := r.store.map (fun e => if e.1.dest = d then (e.1, e.2 + 1) else e), inject := r.inject ++ ms })

/-- MESSAGE_RETRY_RECEIVE. -/
def execMessageRetryReceive (d : BitVec 16) (s : State) : Out := .next (resend d s)

/-- MESSAGE_RESEND_TIMEOUT: the oldest message to a destination has waited 2^ETO µs. -/
def execMessageResendTimeout (d : BitVec 16) (s : State) : Out := .next (resend d s)

/-- A message at its destination, by its MT (Table SEAM-6). -/
def deliverMsg (m : SeamMsg) (s : State) : State :=
  match m.mt.toNat with
  | 0 => deliverData m s
  | 1 => dackReceive m s
  | 2 => resend m.src s
  | _ => s

/-- MESSAGE_DELIVERY. -/
def execMessageDelivery (m : SeamMsg) (s : State) : Out := .next (deliverMsg m s)

/-- Messages held on a full receive ring are delivered while it has room (R315). -/
def deliverHeld (s : State) : State :=
  let hs := s.router.held
  each hs deliverMsg (s.modRouter (fun r => { r with held := [] }))

-- Flits of a message (R313)

/-- The 16-byte header and the data. -/
def msgBytes (m : SeamMsg) : List Byte :=
  toBytes 2 m.dest.toNat ++ toBytes 2 m.src.toNat ++ toBytes 2 m.eseq.toNat ++ [m.epoch, m.kind] ++ toBytes 2 m.len.toNat ++ toBytes 2 m.ttl.toNat
    ++ [m.mt, m.st] ++ toBytes 2 0 ++ m.data

/-- The number of flits: those that LEN gives; of a poisoned message, the whole flits of it there are. -/
def msgFlitCount (m : SeamMsg) : Nat := if cutShort m then max 1 ((m.data.length + 16) / 64) else (m.len.toNat + 16 + 63) / 64

/-- The flits: head bit, tail bit, payload. A tail before LEN is reached is a poisoned one (R318). -/
def msgFlits (m : SeamMsg) : List (Bool × Bool × BitVec 512) :=
  (List.range (msgFlitCount m)).map (fun i => (i == 0, i + 1 == msgFlitCount m, BitVec.ofNat 512 (ofBytes (((msgBytes m).drop (64 * i)).take 64))))

/-- The message's flits leave the receive buffer of edge e; the VC at whose front they stood. -/
def takeFlits (e : Nat) (m : SeamMsg) (s : State) : Option (Bool × State) :=
  let x := s.half e 0
  let fs := msgFlits m
  if fs.isPrefixOf x.rxM1 then some (true, s.setHalf e 0 { x with rxM1 := x.rxM1.drop fs.length, frM1 := x.frM1 + BitVec.ofNat 8 fs.length })
  else if fs.isPrefixOf x.rxM0 then some (false, s.setHalf e 0 { x with rxM0 := x.rxM0.drop fs.length, frM0 := x.frM0 + BitVec.ofNat 8 fs.length })
  else none

-- Routing (R314, R317)

/-- The activity a flip runs ends when every input has switched (R317). -/
def srtSwitch (input : Nat) (s : State) : State :=
  if s.bit (srt 0x28) 28 then
    let left := s.router.flipLeft &&& ~~~(BitVec.ofNat 5 (2 ^ input))
    let s1 := s.modRouter (fun r => { r with flipLeft := left })
    if left = 0 then { s1.setF (srt 0x28) 28 1 0 with acts := s1.acts.filter (fun a => a.kind != 6) } else s1
  else s

/-- The output of a head: an edge, or none where it is unreachable. -/
def State.outEdge (s : State) (m : SeamMsg) : Option Nat :=
  let dx := m.dest.toNat % 256
  let dy := m.dest.toNat / 256
  let e := if dx ≠ s.ownX then codeEdge 0 (s.srtEntry s.router.bank 0 dx) else codeEdge 1 (s.srtEntry s.router.bank 1 dy)
  e.filter (fun e => !s.bit (srt 0x28) (24 + e))

/-- An output crosses the link between 255 and 0 of its dimension. -/
def State.dateline (s : State) (e : Nat) : Bool :=
  match e with
  | 1 => s.ownX == 255 | 3 => s.ownX == 0 | 2 => s.ownY == 255 | _ => s.ownY == 0

/-- The VC of a head that leaves on `out`, having come from `e` on VC1 or not (R314). -/
def State.outVc (s : State) (e : Option Nat) (vc1 : Bool) (out : Nat) : Bool :=
  let turn := match e with | none => true | some i => i % 2 == 1 && out % 2 == 0
  (!turn && vc1) || s.dateline out

/-- What a source is told of a data message that no route leads on: DACK UNREACHABLE, in the destination's name (R314). -/
def unreachable (dest src : BitVec 16) (mt : Byte) (s : State) : State :=
  if mt = 0 then inject ⟨src, dest, 0, s.epoch, 0, 0, BitVec.ofNat 16 (s.fld (srt 8) 16 9), 1, 3, []⟩ s else s

/-- A head flit routed with the flits behind it (R314). -/
def routeMsg (e : Option Nat) (vc1 : Bool) (m : SeamMsg) (s : State) : State :=
  if m.dest.toNat = s.ownAddr then deliverMsg m s
  else
    match s.outEdge m with
    | none => unreachable m.dest m.src m.mt s
    | some out =>
      if m.ttl = 0 then s.incF (srt 0x28) 0 16 1
      else
        let m1 := { m with ttl := m.ttl - 1 }
        let v := s.outVc e vc1 out
        each (msgFlits m1) (fun f s => s.modHalf out 0 (fun x => x.send (.msg v f.1 f.2.1 f.2.2))) s

/-- HEAD_FLIT_ROUTE: an input switches at its next head, and the head is routed; at injection it is the oldest message to inject, on an edge the one whose flits
stand at the front of a VC. A message that the router holds keeps its flits in the receive buffer and so back-pressures its VC (R315). -/
def execHeadFlitRoute (e : Option EdgeId) (m : SeamMsg) (s : State) : Out :=
  match e with
  | none =>
    if s.router.inject.head? = some m then
      .next (routeMsg none false m ((srtSwitch 4 s).modRouter (fun r => { r with inject := r.inject.tail })))
    else .next s
  | some e =>
    let s0 := srtSwitch e.val s
    match takeFlits e.val m s0 with
    | none => .next s
    | some (vc1, s1) => .next (if m.dest.toNat = s0.ownAddr ∧ s0.holds m then s0 else routeMsg (some e.val) vc1 m s1)

-- Registers (R310, R317, R318, R320)

/-- The edges named by an entry that differs between the banks. -/
def State.diffEdges (s : State) : List Nat :=
  let one := fun (dim idx : Nat) =>
    let a := s.srtEntry false dim idx
    let b := s.srtEntry true dim idx
    if a = b then [] else (codeEdge dim a).toList ++ (codeEdge dim b).toList
  ((List.range 256).flatMap (one 0) ++ (List.range 256).flatMap (one 1)).eraseDups

/-- SRT_CMD.FLIP (R317, R436). -/
def srtFlip (s : State) : State :=
  let es := s.diffEdges
  let a : Activity := ⟨6, es.headD 64, es.tail, 0⟩
  if s.bit (srt 0x28) 28 then (match s.blocker a with | some b => s.refuse a b | none => s).setB (srt 0x28) 31
  else
    match s.admits a with
    | (false, s1) => s1.setB (srt 0x28) 31
    | (true, s1) => (s1.modRouter (fun r => { r with bank := !r.bank, flipLeft := 31 })).setB (srt 0x28) 28

/-- A wormhole that has not fully arrived ends here, its last flit becoming a poisoned tail. -/
def poisonTail : List (Bool × Bool × BitVec 512) → List (Bool × Bool × BitVec 512)
  | [] => []
  | [f] => [(f.1, true, f.2.2)]
  | f :: fs => f :: poisonTail fs

/-- The heads that wait for the wire. -/
def Half.waitingHeads (h : Half) : List (BitVec 512) :=
  h.out.filterMap (fun f => match f with | .msg _ true _ p => some p | _ => none)

/-- A head that names a retired edge: its source is told (R314). -/
def headUnreachable (p : BitVec 512) (s : State) : State :=
  unreachable (BitVec.ofNat 16 p.toNat) (BitVec.ofNat 16 (bits p.toNat 16 16)) (BitVec.ofNat 8 (bits p.toNat 96 8)) s

/-- An edge is retired from routing, and the wormholes on it are cut: the flits that wait for its wire go, a message whose head still waits being answered as
unreachable, and what has arrived of one ends in a poisoned tail (R318). -/
def retireEdge (e : Nat) (s : State) : State :=
  if s.bit (srt 0x28) (24 + e) then s
  else
    let x := s.half e 0
    let s1 := s.setHalf e 0 { x with out := x.out.filter (fun f => f.rank != 2), rxM0 := poisonTail x.rxM0, rxM1 := poisonTail x.rxM1 }
    let s2 := seamReport 2 e 0 ((s1.setB (srt 0x28) (24 + e)).modRouter (fun r => { r with readmit := r.readmit &&& ~~~(BitVec.ofNat 4 (2 ^ e)) }))
    each x.waitingHeads headUnreachable s2

/-- An edge returns to routing, or will once its half-edge 0 is UP (R318). -/
def readmitEdge (e : Nat) (s : State) : State :=
  if (s.half e 0).link = .up then s.setF (srt 0x28) (24 + e) 1 0
  else if s.bit (srt 0x28) (24 + e) then s.modRouter (fun r => { r with readmit := r.readmit ||| BitVec.ofNat 4 (2 ^ e) })
  else s

/-- The edges of a 4-bit mask. -/
def edgesOf (v : Nat) : List Nat := (List.range 4).filter (fun e => v.testBit e)

/-- SRT_CMD written: retirements, readmissions, then a flip. -/
def srtCmd (v : Nat) (s : State) : State :=
  let s1 := each (edgesOf (bits v 4 4)) retireEdge s
  let s2 := each (edgesOf (bits v 8 4)) readmitEdge s1
  if v.testBit 0 then srtFlip s2 else s2

/-- SRT_RT written: the selection, and with WSBY the standby entry (R320). -/
def srtRt (v : Nat) (s : State) : State :=
  if v.testBit 31 ∧ s.bit (srt 0x28) 28 then s.setB (srt 0x28) 30
  else
    let s1 := s.plainWrite32 (srt 0x18) v
    if v.testBit 31 then
      s1.modRouter (fun r => { r with tab := tset (konst none) r.tab (srtKey (!r.bank) (bits v 24 1) (bits v 16 8)) (some (BitVec.ofNat 2 v)) })
    else s1

/-- A PARENT or TPAR code is one of 000 and 100–111. -/
def edgeCode (v : Nat) : Bool := v == 0 || decide (4 ≤ v)

/-- SRT_TXQ or SRT_RXQ written by the management core: its software index, and while EN = 0 its BASE and LOG2N (R320). -/
def srtRing (off v : Nat) (s : State) : State :=
  let log := bits v 44 4
  if log ≠ 0 ∧ (log < 4 ∨ 12 < log) then s.setB (srt 0x28) 30
  else if s.srtOn ∧ (log ≠ s.ringLog off ∨ bits v 12 28 ≠ s.fld (srt off) 12 28) then (s.setF (srt off) 48 16 (bits v 48 16)).setB (srt 0x28) 30
  else s.plainWrite (srt off) 8 v

/-- A write of n bytes of page SRT (R310, R320). -/
def srtWrite (i : Initiator) (off n v : Nat) (s : State) : State :=
  let ring := decide (0x30 ≤ off) && decide (off < 0x40)
  let a := off / 8 * 8
  let old := s.r64 (srt a)
  let v' := if n = 8 then v else if off % 8 = 4 then setBits old 32 32 v else setBits old 0 32 v
  if i = .mgmt then
    if ring then deliverHeld (srtRing a v' s)
    else if off = 0 then (if s.srtOn then s.setB (srt 0x28) 30 else s.plainWrite32 (srt 0) v)
    else if off = 0x10 then (if edgeCode (bits v 16 3) && edgeCode (bits v 0 3) then s.plainWrite32 (srt 0x10) v else s.setB (srt 0x28) 30)
    else if off = 0x18 then srtRt v s
    else if off = 0x20 then srtCmd v s
    else s.plainWrite (srt off) n v
  else
    match i with
    | .core _ => if ring then deliverHeld (s.setF (srt a) 48 16 (bits v' 48 16)) else s.reportUnmapped (0x4200000000 + srt off)
    | _ => s.reportUnmapped (0x4200000000 + srt off)

/-- SRT_ADDR_WRITE. -/
def execSrtAddrWrite (i : Initiator) (v : Word) (s : State) : Out := .next (srtWrite i 0 4 v.toNat s)
/-- SRT_FLIP: a write of SRT_CMD.FLIP. -/
def execSrtFlip (i : Initiator) (s : State) : Out := .next (srtWrite i 0x20 4 1 s)
/-- RETE: a write of SRT_CMD.RETE. -/
def execRete (i : Initiator) (es : BitVec 4) (s : State) : Out := .next (srtWrite i 0x20 4 (es.toNat * 16) s)
/-- READM: a write of SRT_CMD.READM. -/
def execReadm (i : Initiator) (es : BitVec 4) (s : State) : Out := .next (srtWrite i 0x20 4 (es.toNat * 256) s)

/-- EDGE_ROUTING_TIMEOUT: half-edge 0 has been out of UP for 10 ms (R318). -/
def execEdgeRoutingTimeout (e : EdgeId) (s : State) : Out := if (s.half e.val 0).link = .up then .next s else .next (retireEdge e.val s)

/-- RECEIVE_RING_HEAD_WRITE: software advances SRT_RXQ.HEAD (R315, R320). -/
def execReceiveRingHeadWrite (i : Initiator) (v : BitVec 16) (s : State) : Out :=
  .next (srtWrite i 0x38 8 (setBits (s.r64 (srt 0x38)) 48 16 v.toNat) s)

end Sys2Proof.Machine
end

