-- ==== Sys2Proof/Machine/Fabric.lean ====
section
/-! DEFINITION. The Yunaene fabric: loads and start-up, spare columns, scrubbing, flash and the ring target port (chapter 14). -/
namespace Sys2Proof.Machine

-- Images (R334–R336)

/-- The frame addresses of a region's image, rising: logic, RAM, I/O (Table FAB-6). -/
def regionFrames (r : Nat) : List Nat :=
  ((List.range 64).flatMap (fun row => (List.range 6).flatMap (fun c => (List.range 24).map (fun m => r * 2 ^ 24 + row * 2 ^ 18 + c * 2 ^ 15 + m * 2 ^ 10))))
  ++ ((List.range 16).flatMap (fun b => (List.range 37).map (fun m => 2 ^ 28 + r * 2 ^ 24 + b * 2 ^ 20 + m * 2 ^ 14)))
  ++ [2 * 2 ^ 28 + r * 2 ^ 24]

/-- The frame addresses of a full image, rising. -/
def fullFrames : List Nat :=
  let logic := fun (r : Nat) => (regionFrames r).take 9216
  let ram := fun (r : Nat) => ((regionFrames r).drop 9216).take 592
  (List.range 16).flatMap logic ++ (List.range 16).flatMap ram ++ (List.range 16).map (fun r => 2 * 2 ^ 28 + r * 2 ^ 24)
    ++ (List.range 64).map (fun m => 3 * 2 ^ 28 + m)

/-- A field of n bytes of a header. -/
def hf (h : List Byte) (off n : Nat) : Nat := ofBytes ((h.drop off).take n)

/-- Two entries overlap. -/
def winOverlap (a b : Nat × Nat × Nat) : Bool := decide (a.2.1 < b.2.1 + b.2.2) && decide (b.2.1 < a.2.1 + a.2.2)

/-- No two entries of a list overlap. -/
def noOverlap : List (Nat × Nat × Nat) → Bool
  | [] => true
  | e :: es => !es.any (winOverlap e) && noOverlap es

/-- A header within its ranges for a load of `region` (0xFFFF full) (R334, Table FAB-7 code 1); `len` is the length a job gives. -/
def headerOk (h : List Byte) (region : Nat) (len : Option Nat) : Bool :=
  let full := region == 0xFFFF
  let frames := if full then 157008 else 9809
  let pm := (List.range 11).map (fun i => hf h (0x18 + i) 1)
  let wm := (List.range 16).map (fun i => hf h (0x40 + 8 * i) 8)
  let ws := wm.filterMap winEntry
  hf h 0 4 == 0x594E4546 && hf h 4 2 == 1 && hf h 6 2 == region && hf h 8 4 == frames && decide (100 ≤ hf h 0xC 2) && decide (hf h 0xC 2 ≤ 600)
    && hf h 0x23 29 == 0 && hf h 0xC0 64 == 0
    && (if full then pm.all (fun v => decide (v < 16) || v == 255) && ws.all (fun w => decide (w.2.1 + w.2.2 ≤ 65536)) && noOverlap ws
        else pm.all (· == 0) && wm.all (· == 0))
    && (match len with | some n => n == 256 + 72 * frames | none => true)

/-- A report of class 11: FAB_ERR and FAB_STAT. -/
def fabReport (sev : Nat) (s : State) : State := s.reportN 11 sev 0x48 (s.r64 (fb 0x30)) (s.r32 (fb 0x20))

/-- FAIL set, FAB_ERR recorded, and the report made (R336). -/
def fabError (code index faddr : Nat) (s : State) : State :=
  fabReport 3 ((s.setR64 (fb 0x30) (code * 2 ^ 56 + index % 2 ^ 24 * 2 ^ 32 + faddr)).setB (fb 0x20) 31)

/-- The job of a load completes (R336). -/
def loadJobDone (l : FabLoad) (c : Completion) (s : State) : State :=
  match l.job with
  | none => s
  | some (q, _) => match s.runningJob q [5] with
    | some (i, _) => completeJob q i c s
    | none => s

/-- LOAD_FAILURE (R336, R339, R341). -/
def loadFails (l : FabLoad) (code index faddr : Nat) (s : State) : State :=
  let s1 := unconfigure l.region.toNat (fabError code index faddr s)
  loadJobDone l ⟨16, code * 2 ^ 24 + index % 2 ^ 24, faddr, 0, 0⟩ (s1.modFab (fun f => { f with cur := none }))

-- Frames (R336, R343)

/-- The faulty physical columns of a region. -/
def State.faultyCols (s : State) (r : Nat) : List Nat := (List.range 8).filter (fun c => (tget (konst 0) s.fab.faulty r).getLsbD c)

/-- The physical columns that serve the six logical ones: the first working ones (R343). -/
def State.usedCols (s : State) (r : Nat) : List Nat := ((List.range 8).filter (fun c => !(s.faultyCols r).contains c)).take 6

/-- FAB_COLMAP of a region: spares in use, 3 for more faulty columns than spares. -/
def showCols (r : Nat) (s : State) : State :=
  s.setF (fb 0x48) (2 * r) 2 (if 2 < (s.faultyCols r).length then 3 else ((s.usedCols r).filter (fun c => decide (6 ≤ c))).length)

/-- FRAME_READBACK_FAULT: a column fails its read-back twice: it is marked and reported, and recorded in the repair map with the spare that comes into use, 255
for none; with more faulty columns than spares, EXH is set and the device degrades (R343, R434, R440, R442). -/
def markColumn (r c : Nat) (s : State) : State :=
  let s1 := showCols r (s.modFab (fun x => { x with faulty := tset (konst 0) x.faulty r (tget (konst 0) x.faulty r ||| BitVec.ofNat 8 (2 ^ c)) }))
  let n := (s1.faultyCols r).length
  let s2 := if 2 < n then degrade 20 (s1.setB (fb 0x20) 28) else s1
  fabReport 2 (s2.mapRecord (.fabColumn r c (if 2 < n then 255 else 5 + n)))

/-- The physical column of a logic frame, where it fails its read-back there (R343). -/
def State.failsAt (s : State) (addr : Nat) : Option Nat :=
  if faType addr = 0 then ((s.usedCols (faRegion addr))[bits addr 15 3]?).filter (fun c => Config.readBack s.free addr c) else none

/-- A frame written: where it is a RAM block's contents, they are what it brings; minor m holds bits 512 (m − 1) and on (R324; log entry 41). -/
def writeFrame (addr : Nat) (v : BitVec 512) (s : State) : State :=
  s.modFab (fun f =>
    let g := { f with frames := tset (konst Frame512.zero) f.frames addr ⟨v, 0⟩ }
    let m := bits addr 14 6
    if faType addr = 1 ∧ m ≠ 0 then
      { g with ram := tmod (konst 0) g.ram (faRegion addr * 16 + bits addr 20 4) (fun x => BitVec.ofNat 18432 (setBits x.toNat (512 * (m - 1)) 512 v.toNat)) }
    else g)

/-- An I/O frame of region r fails: a cell's level is not that of its bank's supply, or that supply has none (R328, R336, R460). -/
def ioBad (r : Nat) (v : BitVec 512) (s : State) : Bool :=
  match s.bankLevel (r / 8) with | none => true | some l => (Config.ioCells v).any (fun c => c.level != l)
/-- It gives a pin a drive above the ceiling, at which the pin is then configured (R329). -/
def ioOver (v : BitVec 512) : Bool := (Config.ioCells v).any (fun c => decide (Config.fioDrive.toNat < c.drive))

/-- One frame checked and, where `write`, written: the failing code with the state, or the state after (R329, R336). -/
def loadFrame (addr : Nat) (rec : List Byte) (write : Bool) (s : State) : Except (Nat × State) State :=
  match (Config.frameDecode (rec.drop 4)).filter (fun x => decide (x.2 ≤ 2)) with
  | none => .error (4, s)
  | some (v, n) =>
    let s1 := if n = 0 then s else s.incF (fb 0x40) 0 16 1
    if ofBytes (rec.take 4) ≠ addr then .error (3, s1)
    else if ¬ Config.selectsOk (faType addr) (faMinor addr) v then .error (5, s1)
    else if faType addr = 2 ∧ ioBad (faRegion addr) v s1 then .error (6, s1)
    else if ¬ write then .ok s1
    else if faType addr = 2 ∧ ioOver v then .ok (writeFrame addr v (fabReport 3 (s1.setB (fb 0x20) 30)))
    else .ok (writeFrame addr v s1)

/-- A logic frame has no place: its region has more faulty columns than spares (R343). -/
def State.noSpare (s : State) (addr : Nat) : Bool := faType addr == 0 && decide (2 < (s.faultyCols (faRegion addr)).length)

/-- The place of a logic frame among those of its region, which stand together in an image (Table FAB-6). -/
def frameIndex (addr : Nat) : Nat := bits addr 18 6 * 144 + bits addr 15 3 * 24 + bits addr 10 5

/-- The frame records of an image at `base` from the i-th on, against the expected addresses `all`, of which `rest` are left: failing code, index and frame address,
or the state after. A column that fails its read-back starts its region's frames again (R336, R343). -/
def loadFrames (only : Option Nat) (all : List Nat) (base : Nat) : Nat → List Nat → Nat → State → Except (Nat × Nat × Nat × State) State
  | 0, _, _, s => .ok s
  | _ + 1, [], _, s => .ok s
  | n + 1, x :: xs, i, s =>
    let r := memRead (8, 0) .fabric (base + 72 * i) 72 s
    let writes : Bool := match only with | some g => faType x != 3 && faRegion x == g | none => true
    if r.1 ≠ .ok then .error (10, i, x, r.2.2)
    else
      match (if writes && r.2.2.noSpare x then .error (7, r.2.2.setB (fb 0x20) 28) else loadFrame x r.2.1 writes r.2.2) with
      | .error (c, s1) => .error (c, i, x, s1)
      | .ok s1 =>
        match (if writes then s1.failsAt x else none) with
        | none => loadFrames only all base n xs (i + 1) s1
        | some c =>
          let s2 := (markColumn (faRegion x) c s1).draw
          if 2 < (s2.faultyCols (faRegion x)).length then .error (7, i, x, s2)
          else loadFrames only all base n (all.drop (i - frameIndex x)) (i - frameIndex x) s2

/-- The records that a load can read: every region starts its frames again at most twice. -/
def loadFuel (l : List Nat) : Nat := 3 * l.length + 1

/-- GLOBAL_SET_RESET: every flip-flop of a region takes its INIT value (R338). -/
def initFlops (r : Nat) (s : State) : State :=
  s.modFab (fun f => { f with ff := (List.range 384).foldl (fun t i => tset (konst 0) t (r * 384 + i) (Config.ffInit (s.blockFrames (r * 384 + i)))) f.ff })

/-- The frames loaded and the CRC right: bindings of a full image, the regions' images, phase 1 and STARTING (R334, R338); `h` and `body` are the image. -/
def loadStarts (l : FabLoad) (h body : List Byte) (s : State) : State :=
  let region := l.region.toNat
  let s1 := s.modFab (fun f =>
    { f with image := (loadRegions region).foldl (fun t r => tset (konst 0) t r l.image) f.image })
  let s2 := if region = 0xFFFF then
      s1.modFab (fun f =>
        { f with full := Config.shake256 (h ++ body), portmap := (List.range 11).foldl (fun t i => tset (konst 255) t i (BitVec.ofNat 8 (hf h (0x18 + i) 1))) [],
                 winmap := (List.range 16).foldl (fun t i => tset (konst 0) t i (BitVec.ofNat 64 (hf h (0x40 + 8 * i) 8))) [] })
    else s1
  let s3 := each (loadRegions region) (fun r s => setRegion r 2 1 (initFlops r s)) s2
  if region = 0xFFFF then setFabState 2 s3 else s3

/-- A load run up to phase 1 of start-up, or to its failure (R336, R339, R341). -/
def runLoad (l : FabLoad) (s : State) : State :=
  let region := l.region.toNat
  let s0 := s.modFab (fun f => { f with cur := some l })
  let s1 := if region = 0xFFFF then enterLoading region s0 else s0
  let a := l.image.toNat
  let r := memRead (8, 0) .fabric a 256 s1
  let s2 := r.2.2
  let h := r.2.1
  -- a reload may read its region out of a full image
  let imgRegion := if l.reload ∧ hf h 6 2 = 0xFFFF then 0xFFFF else region
  if a % 64 ≠ 0 then loadFails l 1 0 0 s1
  else if r.1 ≠ .ok then loadFails l 10 0 0 s2
  else if ¬ headerOk h imgRegion (l.job.map (·.2)) then loadFails l 1 0 0 s2
  else if region ≠ 0xFFFF ∧ s2.fabState ≠ 3 then loadFails l 8 0 0 s2
  else if region ≠ 0xFFFF ∧ hf h 0xC 2 ≠ s2.r32 (fb 0x50) then loadFails l 9 0 0 s2
  else
    -- the PLL relocks to the header's FCLK before the frames are written (R339)
    let s3 := if region = 0xFFFF then s2.setR32 (fb 0x50) (hf h 0xC 2) else enterLoading region s2
    let all := if imgRegion = 0xFFFF then fullFrames else regionFrames region
    match loadFrames (if imgRegion = region then none else some region) all (a + 256) (loadFuel all) all 0 s3 with
    | .error (c, i, x, s4) => loadFails l c i x s4
    | .ok s4 =>
      let body := memRead (8, 0) .fabric (a + 256) (72 * hf h 8 4) s4
      if crc32 body.2.1 ≠ hf h 0x14 4 then loadFails l 2 0 0 s4 else loadStarts l h body.2.1 s4

/-- The loader takes the oldest load that waits while it is free and domain F is up (R340, Table PWR-1). -/
def kickLoader : Nat → State → State
  | 0, s => s
  | n + 1, s =>
    match s.fab.cur, s.fab.waiting with
    | none, l :: ls => if s.domUp 30 then kickLoader n (runLoad l (s.modFab (fun f => { f with waiting := ls }))) else s
    | _, _ => s

/-- A load reaches the loader, waking domain F (R340, Table PWR-1). -/
def addLoad (l : FabLoad) (s : State) : State :=
  let s1 := wakeDomain 30 (s.modFab (fun f => { f with waiting := f.waiting ++ [l] }))
  kickLoader (s1.fab.waiting.length + 1) s1

/-- FAB_CMD.CLEAR: the whole fabric UNCONFIGURED (R339); a load in progress ends, failed. -/
def fabClear (s : State) : State :=
  let s1 := unconfigure 0xFFFF s
  let s2 := match s1.fab.cur with
    | some l => loadJobDone l ⟨16, 0, 0, 0, 0⟩ (s1.modFab (fun f => { f with cur := none }))
    | none => s1
  kickLoader (s2.fab.waiting.length + 1) s2

/-- FAB_CMD written (R350). -/
def fabCmd (v : Nat) (s : State) : State :=
  if v.testBit 30 then fabClear s
  else if v.testBit 31 then
    let g := bits v 0 16
    if 16 ≤ g ∧ g ≠ 0xFFFF then fabError 1 0 0 s
    else addLoad ⟨BitVec.ofNat 64 (s.r64 (fb 0x10)), BitVec.ofNat 16 g, none, false⟩ s
  else s

/-- A write of n bytes of page FAB (R350). -/
def fabWrite (i : Initiator) (off n v : Nat) (s : State) : State :=
  if i ≠ .mgmt then s.reportUnmapped (0x4200000000 + fb off)
  else if off = 8 then fabCmd v s
  else s.plainWrite (fb off) n v

/-- LOAD: a write of FAB_CMD.LOAD. -/
def execLoad (i : Initiator) (region : BitVec 16) (s : State) : Out := .next (fabWrite i 8 4 (2 ^ 31 + region.toNat) s)
/-- CLEAR: a write of FAB_CMD.CLEAR. -/
def execClear (i : Initiator) (s : State) : Out := .next (fabWrite i 8 4 (2 ^ 30) s)

-- Start-up (R338)

/-- The region that names a load: none for the whole fabric. -/
def loadIs (l : FabLoad) (r : Option (Fin 16)) : Bool := match r with | none => l.region == 0xFFFF | some g => l.region.toNat == g.val

/-- The load in start-up for r, its regions being in phase k. -/
def State.inPhase (s : State) (r : Option (Fin 16)) (k : Nat) : Option FabLoad :=
  s.fab.cur.filter (fun l => loadIs l r && (loadRegions l.region.toNat).all (fun g => s.phase g == k))

/-- CLOCKS_START: phase 2; the gates open at one edge, and what the wires do from then on clocks flip-flops (R327, R338). -/
def execClocksStart (r : Option (Fin 16)) (s : State) : Out :=
  match s.inPhase r 1 with
  | some l => .next (settleFabric (each (loadRegions l.region.toNat) (fun g s => setRegion g 2 2 s) s))
  | none => .next s

/-- INTERNAL_PORTS_OPEN: phase 3; the isolation latches release, and the ports follow the design (R338). -/
def execInternalPortsOpen (r : Option (Fin 16)) (s : State) : Out :=
  match s.inPhase r 2 with
  | some l => .next (drivePorts (each (loadRegions l.region.toNat) (fun g s => setRegion g 2 3 s) s)).draw
  | none => .next s

/-- IO_ENABLE: phase 4, CONFIGURED; the load is done, its job completes, and the next load begins. -/
def execIoEnable (r : Option (Fin 16)) (s : State) : Out :=
  match s.inPhase r 3 with
  | some l =>
    let s1 := each (loadRegions l.region.toNat) (fun g s => setRegion g 3 4 s) s
    let s2 := (if l.region = 0xFFFF then setFabState 3 s1 else s1).setB (fb 0x20) 26
    let s3 := loadJobDone l ⟨0, 0, 0, 0, 0⟩ (s2.modFab (fun f => { f with cur := none }))
    .next (kickLoader (s3.fab.waiting.length + 1) s3)
  | none => .next s

-- Scrubbing, flash and windows (R332, R344, R349)

/-- A frame the scrubber reads: of a CONFIGURED region or the global set, and no RAM contents. -/
def State.scrubs (s : State) (a : Nat) : Bool :=
  if faType a = 3 then s.fabState == 3 else s.fld (fb 0x28) (2 * faRegion a) 2 == 3 && !(faType a == 1 && bits a 14 6 != 0)

/-- An uncorrectable frame: UE, FAB_ERR with code 0x0B, and the reload of its region (R344). -/
def frameUe (a : Nat) (s : State) : State :=
  let s1 := fabReport 1 ((s.setR64 (fb 0x30) (0xB * 2 ^ 56 + a)).setB (fb 0x20) 29)
  if s1.bit (fb 0) 0 ∧ faType a ≠ 3 then
    addLoad ⟨tget (konst 0) s1.fab.image (faRegion a), BitVec.ofNat 16 (faRegion a), none, true⟩ s1
  else s1

/-- The frame at an address as the scrubber reads it in its turn, which an earlier frame's reload may have changed. -/
def scrubFrame (a : Nat) (s : State) : State :=
  if s.scrubs a then
    match (tget (konst Frame512.zero) s.fab.frames a).flaw with
    | .none => s
    | .correctable => (s.modFab (fun f => { f with frames := tmod (konst Frame512.zero) f.frames a (fun x => { x with upset := 0 }) })).incF (fb 0x40) 16 16 1
    | .uncorrectable => frameUe a s
  else s

/-- FABRIC_SCRUB_PASS: the frames that hold anything, in the order of their addresses; a frame of zeros is right. -/
def execFabricScrubPass (s : State) : Out :=
  if s.bit (fb 0) 1 then .next (each (s.fab.frames.map (·.1)) scrubFrame s) else .next s

/-- Bytes of the flash from an address; erased bytes are 0xFF. -/
def State.flashBytes (s : State) (a n : Nat) : List Byte := (List.range n).map (fun i => tget (konst 255) s.fab.flash (a + i))

/-- FLASH_READ: 8 bytes for the design. -/
def execFlashRead (a : BitVec 15) (s : State) : Out :=
  if s.designRuns then .next (s.modFab (fun f => { f with flashOut := BitVec.ofNat 64 (ofBytes (s.flashBytes (8 * a.toNat) 8)) })) else .next s

/-- An erase or program begins: it is done within ns (R332). -/
def flashBegins (base len ns : Nat) (s : State) : State := s.modFab (fun f => { f with flashOp := some ⟨base, len, s.ran + ns⟩ })

/-- FLASH_PROGRAM: the bytes AND the new data. -/
def execFlashProgram (a : BitVec 15) (v : Dword) (s : State) : Out :=
  if s.designRuns then
    .next (flashBegins (8 * a.toNat) 8 50000 <| each (List.range 8) (fun i s => s.modFab (fun f =>
      { f with flash := tset (konst 255) f.flash (8 * a.toNat + i) (tget (konst 255) f.flash (8 * a.toNat + i) &&& BitVec.ofNat 8 (v.toNat / 2 ^ (8 * i))) })) s)
  else .next s

/-- FLASH_ERASE: the counter, FWEAR beyond 10,000, and the sector erased. -/
def execFlashErase (k : Fin 64) (s : State) : Out :=
  if s.designRuns then
    let n := tget (konst 0) s.fab.wear k.val + 1
    let s1 := flashBegins (4096 * k.val) 4096 20000000
      (s.modFab (fun f => { f with wear := tset (konst 0) f.wear k.val n, flash := f.flash.filter (fun e => e.1 / 4096 != k.val) }))
    .next (if 10000 < n then s1.setB (fb 0x20) 27 else s1)
  else .next s

/-- The request that RING_TARGET_REQUEST describes. -/
def windowOp (size : Size) (write : Option Dword) : RingOp := match write with | some v => .wr size v | none => .rd size

/-- The same request as the port passed it to the design earlier, not answered yet. -/
def State.asked (s : State) (i : Initiator) (a : BitVec 32) (op : RingOp) : Option Packet :=
  s.packets.find? (fun p => p.init == i && p.addr.toNat == 0x4400000000 + a.toNat && p.cargo == .req op && p.stage == .served && !p.answered)

/-- A request that the port has passed to the design (R349). -/
def passToDesign (i : Initiator) (a : BitVec 32) (op : RingOp) (s : State) : State :=
  let src := sourcePort i
  let p : Packet := { tag := s.nextTag, ref := s.nextTag, init := i, net := .req, sstop := Fin.ofNat 16 src.1, sport := src.2, dstop := 8, dport := 0
                      addr := BitVec.ofNat 40 (0x4400000000 + a.toNat), cargo := .req op, prio := 0, ring := 0, resends := 0, left := 0, stage := .served
                      answered := false, status := none, data := none, discard := false }
  { s with packets := s.packets ++ [p], nextTag := s.nextTag + 1 }

/-- RING_TARGET_REQUEST: served, refused NOT_READY or unmapped; a request that the design has not answered waits at the port, and one that waited is
answered when the design replies (R349). -/
def execRingTargetRequest (i : Initiator) (a : BitVec 32) (size : Size) (write reply : Option Dword) (s : State) : Out :=
  let op := windowOp size write
  match s.asked i a op, reply with
  | some p, some v => .next (answer p .ok (if write.isSome then [] else toBytes size.bytes v.toNat) s)
  | some _, none => .next s
  | none, _ =>
    if s.winStatus a.toNat = none ∧ reply = none then .next (passToDesign i a op s)
    else
      let r := winAccess a.toNat size.bytes (write.map (·.toNat)) reply s
      .next (respond i 0 r.1 r.2.1 r.2.2)

end Sys2Proof.Machine
end

