-- ==== Sys2Proof/Machine/Lines.lean ====
section
/-! DEFINITION. The levels of the source lines, and their samples (R226, R227, Table ICU-1). -/
namespace Sys2Proof.Machine

/-- A register has a bit of a mask set. -/
def State.anyOf (s : State) (a mask : Nat) : Bool := BitVec.ofNat 32 (s.r32 a) &&& BitVec.ofNat 32 mask != 0

/-- The level of a source's line; `ext` is the level of a line that the fabric design drives. Pulsed and reserved lines are low. -/
def State.line (s : State) (j : Nat) (ext : Bool) : Bool :=
  if j ≤ 4 then s.bit (sq j 0x850) 31
  else if 12 ≤ j ∧ j ≤ 15 then s.bit (mc (j - 12) 8) 63
  else if 24 ≤ j ∧ j ≤ 27 then s.anyOf (sm (j - 24) 0x10) 0xfc000000
  else if 32 ≤ j ∧ j ≤ 36 then (List.range 4).any (fun p => s.driver p == j - 32 && (match s.prog p with | some g => !g.taken | none => false))
  else if 64 ≤ j ∧ j ≤ 127 then s.firq (j - 64) ext
  else match j with
    | 16 => s.bit (cr 6 0x20) 30
    | 17 => s.bit (cr 6 0x20) 31
    | 28 => s.bit (srt 0x28) 29 || s.rxTail != s.rxHead
    | 40 => s.anyOf (cr 0x38 0x1100) 0xf
    | 44 => (List.range 16).any (fun p => s.anyOf (cr 0x40 (0x100 + 4 * p)) 0xff)
    | 45 => (List.range 32).any (fun k => s.bit (cr 0x41 (0x40 * k)) 14)
    | 48 => s.anyOf (cr 0x48 0x20) 0xfc000000
    | 52 => s.errlog != []
    | 56 => s.anyOf (cr 0x4c 8) 0x60000000
    | 57 => s.anyOf (cr 0x4d 8) 0xc0000000
    | 58 => s.anyOf (cr 0x4e 0x10) 0xc0000000
    | 62 => s.anyOf secAlarm 0x7ff
    | 63 => s.boot.warn
    | _ => false

/-- Source j's line sampled at the level at which it stands: the ICU samples every line in every cycle (R227). A fabric line stands at the level that the design drove last. -/
def State.settle (s : State) (n j : Nat) : State := if hasLine j then s.sample n j (s.line j (s.fab.firq.getLsbD (j - 64))) else s

/-- LINE_EVENT: ICUn samples the line of source j, a fabric line at the level that the design drives now (R229, Table FAB-8). -/
def execLineEvent (n : Fin 6) (j : Fin 1024) (level : Bool) (s : State) : Out :=
  if hasLine j.val then
    .next ((when (decide (64 ≤ j.val) && decide (j.val ≤ 127)) (driveFirq (j.val - 64) level) s).sample n.val j.val (s.line j.val level))
  else .next s

end Sys2Proof.Machine
end

