-- ==== Sys2Proof/Machine/Icu.lean ====
section
/-! DEFINITION. Writes to the interrupt controllers, coalescing times and the machine-check queue (chapter 09). -/
namespace Sys2Proof.Machine

/-- A write of ICUn that R239 does not accept (R29). -/
def icuRefuse (n off : Nat) (s : State) : State := s.reportUnmapped (0x4200000000 + icu n off)

/-- A write of ICUn_SEND: one event of a message source, or WREJ (R237). -/
def sendWrite (i : Initiator) (n v : Nat) (s : State) : State :=
  match i with
  | .core _ => if isMessage (v % 1024) then s.icuStep n (v % 1024) { ev := s.target n (v % 1024) } else s.setB (icu n 0) 31
  | _ => icuRefuse n 0x10 s

/-- SEND. -/
def execSend (i : Initiator) (n : Fin 6) (v : Word) (s : State) : Out := .next (sendWrite i n.val v.toNat s)

/-- A write of ICUn_PENDINGk: one cycle of each source of the word, with its line as it stands: the hardware set wins (R229, R16). -/
def pendingWrite (i : Initiator) (n k v : Nat) (s : State) : State :=
  if mayIcu i n then
    each ((List.range 32).filter (fun b => decide (32 * k + b < 1022))) (fun b s => (s.settle n (32 * k + b)).icuStep n (32 * k + b) { pend := some (v.testBit b) }) s
  else icuRefuse n (0x200 + 4 * k) s

/-- PENDING_WRITE. -/
def execPendingWrite (i : Initiator) (n : Fin 6) (k : Fin 32) (v : Word) (s : State) : Out := .next (pendingWrite i n.val k.val v.toNat s)

/-- A write of ICUn_COUNTj (R229, R230). -/
def countWrite (i : Initiator) (n j v : Nat) (s : State) : State :=
  if j ≥ 1022 then s else if mayIcu i n then s.icuStep n j { count := some (v % 256) } else icuRefuse n (0x2000 + 4 * j) s

/-- COUNT_WRITE. -/
def execCountWrite (i : Initiator) (n : Fin 6) (j : Fin 1024) (v : Word) (s : State) : Out := .next (countWrite i n.val j.val v.toNat s)

/-- A write of ICUn_CFGj: a reserved SENSE sets WREJ; TARGET takes writes of the management core alone (R239). The line is sampled before SENSE changes, so
that an edge sense selected while it stands at its new level makes no event (R227). -/
def cfgWrite (i : Initiator) (n j v : Nat) (s : State) : State :=
  if j ≥ 1022 then s
  else if mayIcu i n then
    if 5 ≤ bits v 24 3 then s.setB (icu n 0) 31
    else
      let s0 := s.settle n j
      (s0.plainWrite32 (icuCfg n j) (if i = .mgmt then v else setBits v 31 1 (b2n (s.target n j)))).icuStep n j {}
  else icuRefuse n (0x1000 + 4 * j) s

/-- CFG_WRITE. -/
def execCfgWrite (i : Initiator) (n : Fin 6) (j : Fin 1024) (v : Word) (s : State) : Out := .next (cfgWrite i n.val j.val v.toNat s)

/-- COALESCING_TIMER: the timer of source j has run for COAL_T µs (R230); the source that is then deliverable wakes its core's domain (R238). Before that time
the trigger is absent. -/
def execCoalescingTimer (n : Fin 6) (j : Fin 1024) (s : State) : Out :=
  match tget (konst none) s.timers (n.val * 1024 + j.val) with
  | none => .next s
  | some t =>
    if t + 1000 * s.fld (icu n.val (0x3000 + 4 * j.val)) 0 16 ≤ s.ran then .next (icuWake n.val j.val s) else .next s

/-- A write of ICU5_MCCTL by the management core: OVF is W1C, POP removes the head record (R236). -/
def mcctlWrite (i : Initiator) (v : Nat) (s : State) : State :=
  if i = .mgmt then
    let s1 := when (v.testBit 31) (fun s => s.setF (icu 5 0x28) 31 1 0) s
    if v.testBit 0 then { s1 with mcq := s1.mcq.tail } else s1
  else icuRefuse 5 0x28 s

/-- MCCTL_POP. -/
def execMcctlPop (i : Initiator) (s : State) : Out := .next (mcctlWrite i 1 s)

/-- A 32-bit write of ICUn at an offset (R239). -/
def icuWrite (i : Initiator) (n off v : Nat) (s : State) : State :=
  if off = 0x10 then sendWrite i n v s
  else if 0x200 ≤ off ∧ off < 0x280 then pendingWrite i n ((off - 0x200) / 4) v s
  else if 0x2000 ≤ off ∧ off < 0x3000 then countWrite i n ((off - 0x2000) / 4) v s
  else if 0x1000 ≤ off ∧ off < 0x2000 then cfgWrite i n ((off - 0x1000) / 4) v s
  else if off = 0x28 ∧ n = 5 then mcctlWrite i v s
  else if mayIcu i n then s.plainWrite32 (icu n off) (if 0x100 ≤ off ∧ off < 0x180 ∧ off = 0x17c then v % 2 ^ 30 else v)
  else icuRefuse n off s

end Sys2Proof.Machine
end

