-- ==== Sys2Proof/Machine/MiscRegs.lean ====
section
/-! DEFINITION. Register pages of the sequencers, engines, memory controllers, lamplighter, logs, partitions, banks, host block and transports
(R83, R119, R138, R162, R191, R224, R256, R295, R386, R431, R444). -/
namespace Sys2Proof.Machine

-- Sequencer pages 0x0010–0x0014

/-- SEQs_SLOCK written (R214). -/
def slockWrite (i : Initiator) (q v : Nat) (s : State) : State :=
  if i = .mgmt then s.plainWrite32 (sq q 0x20) v
  else if i = .core (Fin.ofNat 6 q) then s.plainWrite32 (sq q 0x20) (s.r32 (sq q 0x20) ||| v)
  else s.reportUnmapped (0x4200000000 + sq q 0x20)

/-- SLOCK_WRITE. -/
def execSlockWrite (i : Initiator) (q : SeqId) (v : Word) (s : State) : Out := .next (slockWrite i q.val v.toNat s)

/-- A 32-bit write of a sequencer page (R119, R214, R224). -/
def seqWrite (i : Initiator) (q off v : Nat) (s : State) : State :=
  if off = 0x20 then slockWrite i q v s
  else if off = 0x858 then acmdWrite i q v s
  else if seqRo off then s
  else if (if off < 0x800 then i == .mgmt else maySeq i q) then s.plainWrite32 (sq q off) v
  else s.reportUnmapped (0x4200000000 + sq q off)

-- Engines and memory controllers, pages 0x0020–0x0027 (R162)

/-- A 32-bit write of page CTk. -/
def ctWrite (i : Initiator) (k off v : Nat) (s : State) : State :=
  if off = 8 then ctCmdWrite i k v s
  else if mayEngine i k s then s.plainWrite32 (ct k off) v
  else s.reportUnmapped (0x4200000000 + ct k off)

/-- A 32-bit write of page MCk. -/
def mcWrite (i : Initiator) (k off v : Nat) (s : State) : State :=
  if mayEngine i k s then s.plainWrite32 (mc k off) v else s.reportUnmapped (0x4200000000 + mc k off)

-- Lamplighter, page 0x0006 (R191)

/-- A 32-bit write of a page that the management core alone writes and whose registers have no behaviour of their own: LAMP, MAINT. -/
def mgmtWrite (i : Initiator) (page off v : Nat) (s : State) : State :=
  if i = .mgmt then s.plainWrite32 (cr page off) v else s.reportUnmapped (0x4200000000 + cr page off)

-- Error log, maintenance, NVM: pages 0x0005, 0x0007, 0x0004 (R444)

/-- ERRLOG_CMD.POP: the oldest entry is removed (R440). -/
def errPop (v : Nat) (s : State) : State := if v.testBit 0 then { s with errlog := s.errlog.tail } else s

/-- A 32-bit write of page ERRLOG. -/
def errWrite (i : Initiator) (off v : Nat) (s : State) : State :=
  if i = .mgmt then (if off = 8 then errPop v s else s) else s.reportUnmapped (0x4200000000 + cr 5 off)

/-- ERRLOG_POP: a write of ERRLOG_CMD. -/
def execErrlogPop (i : Initiator) (v : Word) (s : State) : Out := .next (errWrite i 8 v.toNat s)

/-- A 32-bit write of page NVM. -/
def nvmWrite (i : Initiator) (off : Nat) (s : State) : State := if i = .mgmt then s else s.reportUnmapped (0x4200000000 + cr 4 off)

-- Partitions, page 0x0009 (R83)

/-- The sequencer that drives partition p, or the management core, writes ARR_PSTATp. -/
def pstatWrite (i : Initiator) (p v : Nat) (s : State) : State :=
  let a := cr 9 (0x300 + 8 * p)
  if i = .mgmt ∨ (s.quads p ≠ [] ∧ i = .core (Fin.ofNat 6 (s.driver p))) then s.plainWrite32 a v else s.reportUnmapped (0x4200000000 + a)

/-- A 32-bit write of page ARR. -/
def arrWrite (i : Initiator) (off v : Nat) (s : State) : State :=
  if off = 0 then shapeWrite i v s
  else if off < 0x200 then edgeWrite i ((off - 0x100) / 8) v s
  else if off < 0x300 then keysegWrite i ((off - 0x200) / 8) v s
  else if off < 0x400 then pstatWrite i ((off - 0x300) / 8) v s
  else fopWrite i ((off - 0x400) / 8) v s

-- Scratchpad banks, pages 0x0100–0x013F (R256)

-- Host block, pages 0x0038 and 0x0039 (R295)

/-- A 32-bit write of page HOST, whose other registers are RO (R15, R295). -/
def hostWrite (i : Initiator) (off v : Nat) (s : State) : State :=
  if off = 0x10 ∨ off = 0x1000 ∨ off = 0x1100 then mgmtWrite i 0x38 off v s else s

-- The pilot, page 0x0001 (R386)

/-- PILOT_WDT written: a kick, and a period within 10–20 (R379). -/
def wdtWrite (v : Nat) (s : State) : State :=
  let s1 := if v / 65536 % 65536 = 0xA5C3 then s.modBoot (fun b => { b with warn := false }) else s
  if 10 ≤ v % 32 ∧ v % 32 ≤ 20 then s1.setF (cr 1 8) 0 5 (v % 32) else s1

/-- A 32-bit write of page PILOT. -/
def pilotWrite (i : Initiator) (off v : Nat) (s : State) : State :=
  if i ≠ .mgmt then s.reportUnmapped (0x4200000000 + cr 1 off)
  else if off = 8 then wdtWrite v s
  else s.plainWrite32 (cr 1 off) v

/-- KICK: a write of PILOT_WDT. -/
def execKick (i : Initiator) (v : Word) (s : State) : Out := .next (pilotWrite i 8 v.toNat s)

-- Transports, pages 0x004C and 0x004D (R431)

/-- CAN_CTL takes a value. -/
def canOk (v : Nat) : Bool := !(v % 128 == 0 || v % 128 == 127 || decide (3 < bits v 8 4) || decide (4 < bits v 12 4))

/-- CAN_CTL written (R431): a node or a rate that the controller does not have leaves the register unchanged and sets WREJ. -/
def canCtl (v : Nat) (s : State) : State :=
  if canOk v then s.plainWrite32 (cr 0x4d 0) v else s.setB (cr 0x4d 8) 30

/-- A 32-bit write of page CAN. -/
def canWrite (i : Initiator) (off v : Nat) (s : State) : State :=
  if i ≠ .mgmt then s.reportUnmapped (0x4200000000 + cr 0x4d off)
  else if off = 0 then canCtl v s
  else s.plainWrite32 (cr 0x4d off) v

/-- MGE_CTL takes a value. -/
def State.mgeOk (s : State) (v : Nat) : Bool := bits v 28 2 != 3 && (!v.testBit 24 || s.bit (cr 0 0x10) 7)

/-- MGE_CTL written: PTP 11, or role 1 while GM_ALLOW is low, leaves the register unchanged and sets WREJ. -/
def mgeCtl (v : Nat) (s : State) : State :=
  if s.mgeOk v then s.plainWrite32 (cr 0x4c 0) v else s.setB (cr 0x4c 8) 29

/-- A 32-bit write of page MGE. -/
def mgeWrite (i : Initiator) (off v : Nat) (s : State) : State :=
  if i ≠ .mgmt then s.reportUnmapped (0x4200000000 + cr 0x4c off)
  else if off = 0 then mgeCtl v s
  else s.plainWrite32 (cr 0x4c off) v

/-- CAN_STAT.TEC, REC and EPASS: error passive above 127 (R431; PRESUMED: ISO 11898-1; log entry 19). -/
def canCounters (tec rec : Nat) (s : State) : State :=
  ((s.setF (cr 0x4d 8) 8 8 tec).setF (cr 0x4d 8) 0 8 rec).setF (cr 0x4d 8) 29 1 (b2n (decide (127 < tec) || decide (127 < rec)))

/-- The bus moves the error counters of the controller, while it is enabled (R418, R431). -/
def canTurn (s : State) : State :=
  if s.bit (cr 0x4d 0) 31 ∧ s.domUp 32 then (match Config.canErrors s.free with | some (t, r) => canCounters t.toNat r.toNat s | none => s).draw else s

/-- BUS_OFF: the CAN controller enters bus-off and recovers under ISO 11898-1, its counters at 0 (R418, R431). -/
def execBusOff (s : State) : Out := .next (canCounters 0 0 (s.setB (cr 0x4d 8) 31))

/-- MGE_LINK_CHANGE. -/
def execMgeLinkChange (up : Bool) (s : State) : Out :=
  if s.bit (cr 0x4c 8) 31 = up then .next s else .next ((s.setF (cr 0x4c 8) 31 1 (b2n up)).setB (cr 0x4c 8) 30)

end Sys2Proof.Machine
end

