-- ==== Sys2Proof/Machine/DictEntry.lean ====
section
/-! DEFINITION. The index map of the Nazen dictionary: types, access, levels, defaults, and the value behind each entry (R407–R409, R430). -/
namespace Sys2Proof.Machine

/-- Access of an entry (R409). -/
inductive DAccess where
  | const | ro | rw | wo
  deriving DecidableEq, Repr

/-- An entry of Table DICT-11: size in bytes (none: BLOB), whether it is a BOOL, access, read and write level, whether STORE saves it. -/
structure DEntry where
  size : Option Nat
  bool : Bool := false
  acc : DAccess
  rl : Nat := 0
  wl : Nat := 2
  stored : Bool := false
  deriving DecidableEq, Repr

/-- A row of the map: index, first subindex, how many, the entry. -/
abbrev DRow := Nat × Nat × Nat × DEntry

/-- An RW S entry of n bytes at levels 0/2. -/
def rwS (n : Nat) : DEntry := { size := some n, acc := .rw, stored := true }
/-- The same of type BOOL. -/
def rwBool : DEntry := { size := some 1, bool := true, acc := .rw, stored := true }
/-- A read-only entry of n bytes at level 0. -/
def roN (n : Nat) : DEntry := { size := some n, acc := .ro }
/-- A read-only BLOB at a level. -/
def roBlob (l : Nat) : DEntry := { size := none, acc := .ro, rl := l }
/-- A command of four bytes at write level l. -/
def woCmd (l : Nat) : DEntry := { size := some 4, acc := .wo, wl := l }

/-- Table DICT-11, indices 0x1000–0x1FFF. -/
def dictCore : List DRow :=
  [ (0x1000, 1, 3, { size := some 2, acc := .const }), (0x1000, 4, 1, { size := some 8, acc := .const }), (0x1000, 5, 1, roN 4)
  , (0x1010, 0, 1, woCmd 2), (0x1011, 0, 1, woCmd 2), (0x1012, 1, 1, roN 8), (0x1012, 2, 1, roN 2)
  , (0x1020, 0, 1, roN 1), (0x1021, 0, 1, roN 4), (0x1022, 0, 1, roN 8)
  , (0x1030, 1, 7, woCmd 2), (0x1030, 8, 1, woCmd 0), (0x1030, 9, 1, woCmd 2)
  , (0x1031, 1, 1, { size := some 8, acc := .rw, rl := 2 }), (0x1031, 2, 1, { size := some 4, acc := .rw, rl := 2 })
  , (0x1100, 0, 1, rwS 1), (0x1101, 1, 2, rwS 4), (0x1101, 3, 1, rwS 2)
  , (0x1110, 1, 1, rwS 1), (0x1110, 2, 1, rwS 4), (0x1110, 3, 1, rwS 1), (0x1110, 4, 1, rwS 4), (0x1110, 5, 1, rwBool), (0x1110, 6, 1, roN 8)
  , (0x1200, 1, 2, rwS 1), (0x1210, 0, 1, roN 1) ]

/-- Table DICT-11, indices 0x2000–0x5FFF. -/
def dictArray : List DRow :=
  [ (0x2001, 0, 1, rwS 2), (0x2002, 0, 1, rwS 2), (0x2003, 0, 1, roN 4), (0x2004, 0, 1, roN 4), (0x2005, 0, 1, roN 1)
  , (0x2010, 1, 1, rwS 1), (0x2010, 2, 1, rwS 4), (0x2010, 3, 2, rwS 1), (0x2010, 5, 1, rwBool), (0x2010, 6, 1, rwS 1), (0x2011, 0, 1, rwBool)
  , (0x3001, 0, 1, rwS 1), (0x3002, 1, 4, rwS 1), (0x3003, 1, 4, rwS 4)
  , (0x4001, 1, 4, rwS 2), (0x4010, 1, 2, rwS 1), (0x4011, 0, 1, rwS 4), (0x4012, 0, 1, rwBool), (0x5001, 0, 1, roN 4) ]

/-- Table DICT-11, indices from 0x6000 upwards. -/
def dictService : List DRow :=
  [ (0x6001, 1, 2, rwS 8), (0x6002, 0, 1, roN 4), (0x7001, 1, 5, roN 4), (0x7020, 1, 4, roBlob 1), (0x7100, 1, 6, woCmd 2), (0x7300, 0, 1, roBlob 1)
  , (0x8001, 0, 1, roBlob 0), (0x8002, 0, 1, { size := none, acc := .wo, wl := 0 }), (0x8003, 0, 1, roBlob 0), (0x8004, 0, 1, roBlob 0)
  , (0x8005, 1, 1, { size := none, acc := .wo, wl := 1 }), (0x8005, 2, 1, roBlob 1), (0x8006, 0, 1, rwS 4), (0x8007, 0, 1, roBlob 1)
  , (0x8008, 0, 1, roN 8), (0x8009, 0, 1, roN 4)
  , (0x9001, 1, 1, { size := some 8, acc := .rw, rl := 2 }), (0x9001, 2, 1, { size := some 8, acc := .ro, rl := 2 }) ]

/-- Table DICT-11. -/
def dictMap : List DRow := dictCore ++ dictArray ++ dictService

/-- The map has the index. -/
def hasIndex (i : Nat) : Bool := dictMap.any (fun r => r.1 == i)

/-- The entry at an index and subindex. -/
def entryOf (i sub : Nat) : Option DEntry :=
  (dictMap.find? (fun r => r.1 == i && decide (r.2.1 ≤ sub) && decide (sub < r.2.1 + r.2.2.1))).map (fun r => r.2.2.2)


/-- The stored entries, in the order of the map. -/
def storedKeys : List (Nat × Nat) :=
  dictMap.flatMap (fun r => if r.2.2.2.stored then (List.range r.2.2.1).map (fun k => (r.1, r.2.1 + k)) else [])

-- Values

/-- Arbitration rates by code (R431). -/
def arates : List Nat := [125000, 250000, 500000, 1000000]
/-- Data rates by code. -/
def drates : List Nat := [1000000, 2000000, 4000000, 5000000, 8000000]

/-- The dictionary changed by a function. -/
def State.modDict (s : State) (f : DictState → DictState) : State := { s with dict := f s.dict }

/-- The value replaced. -/
def setDval (i sub v : Nat) (s : State) : State :=
  s.modDict (fun d => { d with vals := tset dictDefault d.vals (dkey i sub) (BitVec.ofNat 64 v) })

/-- The default of every stored entry (Table DICT-11). -/
def State.entryDefault (s : State) (i sub : Nat) : Nat :=
  if i = 0x1100 then 1 + s.fld (cr 0 0x10) 0 4
  else if i = 0x1101 ∧ sub = 1 then 500000
  else if i = 0x1101 ∧ sub = 2 then 2000000
  else if i = 0x1110 ∧ sub = 5 then 1
  else if i = 0x2001 then 3000
  else if i = 0x2002 then 720
  else if i = 0x2010 ∧ sub = 2 then 1000
  else if i = 0x2010 ∧ sub = 3 then 1
  else if i = 0x3001 then 7
  else if i = 0x3002 then 0x55
  else if i = 0x4001 then 0x8380
  else if i = 0x8006 then polFloor
  else (dictDefault (dkey i sub)).toNat

/-- Offset of the image that started the firmware (Table SYS-5, SYS_STATE.IMG). -/
def State.imageBase (s : State) : Nat := nvmBase + s.fld (cr 0 0x18) 8 1 * 0x200000

/-- The partition that holds the quadrant of subindex sub. -/
def State.subPart (s : State) (sub : Nat) : Nat := s.partIdx (sub - 1)

/-- Free spares of the device (R443). -/
def State.spares (s : State) (sub : Nat) : Nat :=
  match sub with
  | 1 => s.freeColumns
  | 2 => s.freeClusters
  | 3 => (List.range 5).foldl (fun n q => n + s.fld (sq q 0x860) 16 9) 0
  | 4 => (List.range 64).foldl (fun n b => n + s.fld (bk b 0x10) 4 4) 0
  | _ => (List.range 4).foldl (fun n e => n + b2n (s.laneState e 32 == 1) + b2n (s.laneState e 33 == 1)) 0

/-- The part code (Table SCO-1). -/
def partCode : Nat := if Config.is30T then 0x0302 else 0x0301

/-- Values of the entries 0x1000–0x1FFF of fixed size; `lvl` is the level that serves the request. -/
def coreVal (lvl i sub : Nat) (s : State) : Nat :=
  if i = 0x1000 then
    (match sub with | 1 => 0x5A56 | 2 => partCode | 3 => 0x00B0 | 4 => Config.serial.toNat | _ => s.num (s.imageBase + 4) 4)
  else if i = 0x1012 then (if sub = 1 then max s.dict.copyA.gen s.dict.copyB.gen else s.dict.result.toNat)
  else if i = 0x1020 then s.devState
  else if i = 0x1021 then s.r32 (cr 0 0x18)
  else if i = 0x1022 then s.now.toNat
  else if i = 0x1100 then s.fld (cr 0x4d 0) 0 7
  else if i = 0x1101 ∧ sub = 1 then arates.getD (s.fld (cr 0x4d 0) 8 4) 0
  else if i = 0x1101 ∧ sub = 2 then drates.getD (s.fld (cr 0x4d 0) 12 4) 0
  else if i = 0x1110 ∧ sub = 1 then s.fld (cr 0x4c 0) 30 1
  else if i = 0x1110 ∧ sub = 5 then s.fld (cr 0x4c 0) 26 1
  else if i = 0x1110 ∧ sub = 6 then mgeMac
  else if i = 0x1210 then lvl
  else s.dval i sub

/-- Values of the entries 0x2000–0x5FFF. -/
def arrayVal (i sub : Nat) (s : State) : Nat :=
  if i = 0x2001 then s.fld (pw 0x20) 0 12
  else if i = 0x2002 then s.fld (pw 0x18) 0 16
  else if i = 0x2003 then (BitVec.ofInt 32 s.hottest).toNat
  else if i = 0x2004 then s.power.draw.toNat
  else if i = 0x2005 then s.fld (pw 0x10) 8 3
  else if i = 0x2010 then
    (match sub with
     | 1 => s.fld (tm 0x10) 24 2 | 2 => s.fld (tm 0x10) 0 24 | 3 => s.fld (cr 0x4c 0) 28 2 | 4 => s.fld (cr 0x4c 0) 8 8
     | 5 => s.fld (cr 0x4c 0) 27 1 | _ => s.fld (cr 0x4c 0) 24 1)
  else if i = 0x2011 then s.fld (tm 0x30) 63 1
  else if i = 0x3001 then s.shape
  else if i = 0x3002 then s.r32 (cr 9 (0x100 + 8 * s.subPart sub))
  else if i = 0x3003 then s.r32 (cr 9 (0x200 + 8 * s.subPart sub))
  else if i = 0x4001 then s.fld (sm (sub - 1) 0) 0 16
  else if i = 0x4011 then s.r32 (srt 0x10)
  else if i = 0x4012 then s.fld (srt 8) 31 1
  else if i = 0x5001 then (s.link 0).gts.toNat + (s.link 0).width.toNat * 256
  else s.dval i sub

/-- The value of an entry of fixed size (R408, R430). -/
def entryVal (lvl i sub : Nat) (s : State) : Nat :=
  if i < 0x2000 then coreVal lvl i sub s
  else if i < 0x6000 then arrayVal i sub s
  else if i = 0x6002 then s.r32 (fb 0x28)
  else if i = 0x7001 then s.spares sub
  else if i = 0x8006 then s.r32 secPol
  else if i = 0x8008 then s.sec.next
  else if i = 0x8009 then secRead 0 s
  else s.dval i sub

/-- A record of the alarm log: time, source, policy, state, detail (R399). -/
def AlarmRec.bytes (r : AlarmRec) : List Byte := toBytes 8 r.time.toNat ++ [r.src, r.pol, r.state] ++ toBytes 5 r.detail.toNat

/-- The value of a BLOB entry; 0x8001 and 0x8005 belong to the security monitor's commands. -/
def entryBlob (i sub : Nat) (s : State) : List Byte :=
  if i = 0x7020 then toBytes 8 (s.stack (sub - 1)).ecs.toNat
  else if i = 0x7300 then s.bytes (flogSlot 0) (32 * (1 + min s.flogTotal 16383))
  else if i = 0x8003 then (Config.identityKey s.sec.enrol).toList
  else if i = 0x8004 then Config.identityCert s.sec.enrol
  else if i = 0x8007 then toBytes 4 s.sec.total.toNat ++ s.sec.log.flatMap AlarmRec.bytes
  else []

-- Writes of RW entries (R409)

/-- A register write made by the management core, accepted where the register takes the value, else refused with 0x0006, the register's own report standing (R409). -/
def putReg (w : State → State) (ok : Bool) (s : State) : Nat × State := (if ok then 0 else 6, w s)

/-- A write of an entry that no register holds, within its range. -/
def putVal (i sub v : Nat) (ok : Bool) (s : State) : Nat × State := if ok then (0, setDval i sub v s) else (6, s)

/-- MGE_CTL with a field replaced. -/
def putMge (lo len v : Nat) (s : State) : Nat × State :=
  let w := setBits (s.r32 (cr 0x4c 0)) lo len v
  if 2 ^ len ≤ v then (6, s) else putReg (mgeWrite .mgmt 0 w) (s.mgeOk w) s
/-- TIME_CTL with a field replaced. -/
def putTime (lo len v : Nat) (s : State) : Nat × State :=
  if 2 ^ len ≤ v then (6, s) else putReg (timeWrite .mgmt 0x10 4 (setBits (s.r32 (tm 0x10)) lo len v)) true s

/-- The field of CAN_CTL that holds an entry, and the code of a value: node ID, arbitration and data rate; none for another entry or outside its range (R420). -/
def canField (i sub v : Nat) : Option (Nat × Nat × Nat) :=
  if i = 0x1100 then (if 1 ≤ v ∧ v ≤ 126 then some (0, 7, v) else none)
  else if sub = 1 then (arates.findIdx? (· == v)).map (fun c => (8, 4, c))
  else (drates.findIdx? (· == v)).map (fun c => (12, 4, c))

/-- A write of an entry 0x1000–0x1FFF but those of CAN_CTL; a ceiling that falls ends level 3 (R411). -/
def putCore (i sub v : Nat) (s : State) : Nat × State :=
  if i = 0x1031 ∨ i = 0x1101 ∧ sub = 3 ∨ i = 0x1110 ∧ (sub = 3 ∨ sub = 4) then putVal i sub v true s
  else if i = 0x1110 then
    if sub = 1 then putMge 30 1 v s
    else if sub = 2 then (0, setDval i sub v (putMge 25 1 (b2n (v != 0)) s).2)
    else putMge 26 1 v s
  else let r := putVal i sub v (decide (v ≤ 3)) s; (r.1, endLevel3 r.2)

/-- Partition shape: 0x0006 for a code of no shape, 0x0008 while a partition it changes is busy (R22, R23). -/
def putShape (v : Nat) (s : State) : Nat × State :=
  let s1 := shapeWrite .mgmt v s
  (if 7 < v then 6 else if s1.arr.newShape = some (BitVec.ofNat 8 v) then 0 else 8, s1)

/-- A write of an entry 0x2000–0x5FFF. -/
def putArray (i sub v : Nat) (s : State) : Nat × State :=
  if i = 0x2001 then putReg (powerWrite .mgmt 0x20 v) (aclkOk v) s
  else if i = 0x2002 then putReg (powerWrite .mgmt 0x18 v) (decide (bits v 0 16 ≤ 720)) s
  else if i = 0x2010 then
    (match sub with
     | 1 => putTime 24 2 v s | 2 => putTime 0 24 v s | 3 => putMge 28 2 v s | 4 => putMge 8 8 v s | 5 => putMge 27 1 v s | _ => putMge 24 1 v s)
  else if i = 0x2011 then putReg (timeWrite .mgmt 0x30 8 (setBits (s.r64 (tm 0x30)) 63 1 v)) true s
  else if i = 0x3001 then putShape v s
  else if i = 0x3002 then (0, edgeWrite .mgmt (s.subPart sub) v s)
  else if i = 0x3003 then putReg (keysegWrite .mgmt (s.subPart sub) v) (keysegOk v) s
  else if i = 0x4001 then
    let w := (BitVec.ofNat 16 v &&& 0xf3c3).toNat
    putReg (seamWrite .mgmt (sub - 1) 0 w) (bits w 6 2 != 3 && s.seamFits (sub - 1) w) s
  else if i = 0x4010 then putVal i sub v true s
  else if i = 0x4011 then
    putReg (srtWrite .mgmt 0x10 4 v) (edgeCode (bits v 16 3) && edgeCode (bits v 0 3)) s
  else putReg (srtWrite .mgmt 8 4 (setBits (s.r32 (srt 8)) 31 1 v)) true s

/-- SEC_POL: a value of which some field is refused changes none, and shows in LOWREJ where the register does (R400, R409, R424). -/
def putPol (v : Nat) (s : State) : Nat × State :=
  let t := secWrite .mgmt 0x18 4 v s
  if t.fld secPol 0 16 = bits v 0 16 ∧ t.fld secPol 18 4 = bits v 18 4 then (0, t) else (6, when (t.bit secStat 31) (fun s => s.setB secStat 31) s)

/-- A write of an RW entry: refusal code or 0, and what it did (R409). -/
def entryPut (i sub v : Nat) (s : State) : Nat × State :=
  if i < 0x2000 then putCore i sub v s
  else if i < 0x6000 then putArray i sub v s
  else if i = 0x8006 then putPol v s
  else putVal i sub v true s

end Sys2Proof.Machine
end

