-- ==== Sys2Proof/Machine/Store.lean ====
section
/-! DEFINITION. The dictionary store as start-up applies it, the start of a core, and the end of a nap (R376, R378, R384, R385, R425). -/
namespace Sys2Proof.Machine

-- The dictionary store (R425)

/-- The copy in use: the one of the higher generation that passes its check, then the other, and otherwise the defaults (Table BOOT-3, step B3). -/
def State.storeCopy (s : State) : StoreCopy :=
  let d := s.dict
  let x := if d.copyA.gen < d.copyB.gen then (d.copyB, d.copyA) else (d.copyA, d.copyB)
  if x.1.ok then x.1 else if x.2.ok then x.2 else { gen := 0, vals := [] }

/-- A copy's value of a stored entry; the default where it holds none. -/
def StoreCopy.value (c : StoreCopy) (s : State) (k : Nat × Nat) : Nat :=
  match c.vals.find? (·.1 == dkey k.1 k.2) with
  | some e => e.2.toNat
  | none => s.entryDefault k.1 k.2

/-- The stored alarm policies, each at the floor at least (R400). -/
def storedPolicy (v : Nat) (s : State) : State :=
  each (List.range 11) (fun k s =>
    let p := bits v (2 * k) 2
    let f := bits polFloor (2 * k) 2
    if k = 8 then s else s.setF secPol (2 * k) 2 (if polRank p < polRank f then f else p)) s

/-- A stored entry takes effect, where its value is not yet the one stored. -/
def applyStored (c : StoreCopy) (k : Nat × Nat) (s : State) : State :=
  let v := c.value s k
  if k.1 = 0x3001 then (if v ≤ 7 then s.setF (cr 9 0) 0 8 v else s)
  else if k.1 = 0x8006 then storedPolicy v s
  else if entryVal 2 k.1 k.2 s = v then s
  else (entryPut k.1 k.2 v s).2

/-- The board origin added to SRT_ADDR (R310). -/
def addOrigin (c : StoreCopy) (s : State) : State :=
  (s.setF (srt 0) 0 8 (s.ownX + c.value s (0x4010, 1))).setF (srt 0) 8 8 (s.ownY + c.value s (0x4010, 2))

/-- Turn some domains ON. -/
def domainsOn (ds : List Nat) (s : State) : State := each ds domOn s

/-- A core starts at the active image (R376). -/
def startCore (c : Nat) (s : State) : State :=
  s.modCore c (fun k => { k with run := .running, started := false, pc := 0x100
                                 cs := ⟨BitVec.ofNat 40 s.imageBase, 0x200000, true, false, true⟩ })

/-- SEQUENCER_RUN: a core held in reset starts (R376). -/
def runCore (c : Nat) (s : State) : State := if (s.core c).run = .held then startCore c s else s

-- The end of a nap (Table BOOT-6, R385)

/-- The seam enables that the store holds for an edge (Table DICT-11). -/
def State.storedEnables (s : State) (e : Nat) : Nat := s.storeCopy.value s (0x4001, e + 1) % 4

/-- B7 for a seam domain that wakes: firmware writes the stored enables, under the ceilings of R299. -/
def enableStored (e : Nat) (s : State) : State := seamCtl e (setBits (s.r32 (sm e 0)) 0 2 (s.storedEnables e)) s

/-- The domains that wake at the end of a nap: the sequencers, the stacks, and the seam domains that the store enables (log entry 46). -/
def State.napWakes (s : State) : List Nat :=
  ((List.range 9).map (· + 16) ++ ((List.range 4).filter (fun e => s.storedEnables e != 0)).map (· + 25)).filter (fun d => s.dom d == 3)

/-- Nap ends: the management core runs on, those domains wake, and B7 is done for them: seam enables, and the release of the sequencers. -/
def leaveNap (s : State) : State :=
  if s.boot.nap then
    let ds := s.napWakes
    let s1 := (domainsOn ds (s.modBoot (fun b => { b with nap := false }))).modCore 5 (fun k => { k with run := if k.run = .waiting .wfi then .running else k.run })
    each ((ds.filter (fun d => decide (d < 21))).map (· - 16)) runCore (each ((ds.filter (fun d => decide (25 ≤ d))).map (· - 25)) enableStored s1)
  else s

end Sys2Proof.Machine
end

