-- ==== Sys2Proof/Machine/Jobs.lean ====
section
/-! DEFINITION. Doorbells, queues, function pages, jobs and function resets (R275–R295, R404). -/
namespace Sys2Proof.Machine

/-- The host reaches the part: domain P has power, PERST_N is high and the TAP leaves the link alone (R375, R454). -/
def State.hostUp (s : State) : Bool := s.domUp 29 && !s.host.perst && !s.boot.tap.disturbs

-- Doorbells (R283, R285)

/-- A doorbell takes effect: a bad value puts the queue into ERROR, else it is the new tail or head. -/
def ring (q v : Nat) (s : State) : State :=
  let k := s.queue q
  if k.len ≤ v then queueError q 5 s
  else if k.type = 1 then s.setQueue q { k with tail := BitVec.ofNat 16 v }
  else s.setQueue q { k with head := BitVec.ofNat 16 v }

/-- An accepted doorbell: kept until the device has reached READY (R283). -/
def ringOrKeep (q v : Nat) (s : State) : State :=
  if s.devState < stReady then s.modQueue q (fun k => { k with kept := some (BitVec.ofNat 64 v) }) else ring q v s

/-- A doorbell of function f. -/
def doorbell (f q : Nat) (size : Size) (v : Nat) (s : State) : State :=
  let k := s.queue q
  if size ≠ .b8 ∨ k.state ≠ .enabled ∨ k.owner ≠ some f then dbDrop f s else ringOrKeep q v s

/-- An Unsupported Request answered (R277). -/
def unsupported (s : State) : State := s.modHost (fun h => { h with ur := h.ur + 1, bar := [] })

/-- A request of the host reaches the part: it ends a nap (R385). -/
def hostRequest (act : State → State) (s : State) : Out := if s.hostUp then .next (act (leaveNap s)) else .next s

/-- A memory request to function f: in D3hot the function takes none (R274, log entry 39). -/
def memRequest (f : Nat) (act : State → State) (s : State) : Out := hostRequest (fun s => if (s.fn f).d3 then unsupported s else act s) s

/-- DOORBELL. -/
def execDoorbell (f : FnId) (q : QueueId) (size : Size) (v : Dword) (s : State) : Out := memRequest f.val (doorbell f.val q.val size v.toNat) s

/-- A write of WQDB: a doorbell whatever function the queue is assigned to (R285). -/
def wqdb (i : Initiator) (q : Nat) (size : Size) (v : Nat) (s : State) : State :=
  if i = .mgmt then
    let k := s.queue q
    if size ≠ .b8 ∨ k.state ≠ .enabled then (match k.owner with | some f => dbDrop f s | none => s) else ringOrKeep q v s
  else s.reportUnmapped (0x4210000000 + q * 8)

/-- WQDB_DOORBELL. -/
def execWqdbDoorbell (i : Initiator) (q : QueueId) (size : Size) (v : Dword) (s : State) : Out := .next (wqdb i q.val size v.toNat (leaveNap s))

/-- Doorbells kept until READY take effect (R283). -/
def ringKept (s : State) : State :=
  each (s.host.queues.map (·.1)) (fun q s =>
    match (s.queue q).kept with
    | some v => ring q v.toNat (s.modQueue q (fun k => { k with kept := none }))
    | none => s) s

/-- The entry at HEAD is fetched. -/
def takeEntry (q f a : Nat) (s : State) : State :=
  let k := s.queue q
  s.setQueue q { k with head := BitVec.ofNat 16 ((k.head.toNat + 1) % k.len), jobs := k.jobs ++ [⟨s.hostBytes f a 64, none, none, 0⟩] }

/-- DESCRIPTOR_FETCH: entries from HEAD up to the tail, in ring order; `okBytes` is what the host delivers before it fails (R284). -/
def fetchJobs : Nat → Nat → Option Nat → State → State
  | 0, _, _, s => s
  | fuel + 1, q, okBytes, s =>
    let k := s.queue q
    let f := k.owner.getD 0
    let a := k.entry k.head.toNat
    if k.state ≠ .enabled ∨ k.type ≠ 1 ∨ k.head = k.tail then s
    else if !s.window f a 64 false then queueError q 6 (windowFail f a q s)
    else match okBytes with
      | some n => if n < 64 then queueError q 7 (hostReport f a q s) else fetchJobs fuel q (some (n - 64)) (takeEntry q f a s)
      | none => fetchJobs fuel q none (takeEntry q f a s)

/-- Bytes that a reply delivers before it fails; none for a reply that does not fail. -/
def replyBytes : HostReply → Option Nat
  | .ok => none
  | .failed n => some n

/-- DESCRIPTOR_FETCH. -/
def execDescriptorFetch (q : QueueId) (r : HostReply) (s : State) : Out :=
  if s.hostUp then
    let s1 := fetchJobs ((s.queue q.val).len) q.val (replyBytes r) s
    .next (settleJobs (s1.queue q.val).jobs.length q.val s1)
  else .next s

-- Function pages (R281, R282, R285, R292, R295)

/-- The function that the queue and window registers of page f act for. -/
def State.acting (s : State) (f : Nat) : Nat := if s.isPf f then ((s.fn f).fsel.map (·.toNat)).getD f else f

/-- The queue that FN_QSEL of page f names, when it is assigned to the acting function. -/
def State.selQueue (s : State) (f : Nat) : Option Nat :=
  let q := (s.fn f).qsel.toNat
  if (s.queue q).owner = some (s.acting f) then some q else none

/-- A ring lies within one window that grants the right. -/
def State.ringOk (s : State) (f : Nat) (k : Queue) : Bool := s.window f k.base.toNat (64 * k.len) (k.type != 1)

/-- The checks of an enable, in order; 0 when every one holds (R282). -/
def State.enableErr (s : State) (f : Nat) (k : Queue) : Nat :=
  if k.base.toNat % 4096 ≠ 0 ∨ k.log < 4 ∨ 16 < k.log ∨ k.type = 0 then 1
  else if !s.ringOk f k then 2
  else if k.type = 1 then
    let c := s.queue k.cq
    if c.state ≠ .enabled ∨ c.type ≠ 2 ∨ c.owner ≠ some f ∨ ¬ (s.partMask f).testBit k.part then 3 else 0
  else if s.nvec f ≤ k.vec then 4 else 0

/-- A write of EN = 1 to a DISABLED queue (R282). -/
def queueEnable (f q : Nat) (s : State) : State :=
  let k := s.queue q
  let e := s.enableErr (s.acting f) k
  if e = 0 then
    s.setQueue q { k with state := .enabled, err := 0, head := 0, tail := 0, ph := true, jobs := [], prev := none, unsig := 0, kept := none }
  else (s.setQueue q { k with err := BitVec.ofNat 4 e }).wrej f

/-- A submission queue that is not DISABLED names completion queue c (R285). -/
def State.named (s : State) (c : Nat) : Bool := s.host.queues.any (fun e => e.2.type == 1 && e.2.state != .disabled && e.2.cq == c)

/-- A write of EN = 0 to a queue that is ENABLED or in ERROR (R285). -/
def queueDisable (f q : Nat) (s : State) : State :=
  let k := s.queue q
  if k.type = 1 then s.setQueue q { k with state := .draining }
  else if k.type = 2 ∧ s.named q then s.wrej f
  else s.setQueue q { k with state := .disabled }

/-- The bits of FN_QCTX below EN that a queue keeps. -/
def ctxMask (v : Nat) : Nat := bits v 19 44 * 2 ^ 19 + v % 65536

/-- FN_QCTX of page f written as a whole. -/
def qctxWrite (f v : Nat) (s : State) : State :=
  match s.selQueue f with
  | none => s.wrej f
  | some q =>
    let k := s.queue q
    if k.state = .disabled then
      let s1 := s.setQueue q { k with ctx := BitVec.ofNat 64 (ctxMask v) }
      if v.testBit 63 then queueEnable f q s1 else s1
    else if v.testBit 63 ∨ k.state = .draining then s
    else queueDisable f q s

/-- FN_QBASE of page f written as a whole. -/
def qbaseWrite (f v : Nat) (s : State) : State :=
  match s.selQueue f with
  | none => s.wrej f
  | some q => if (s.queue q).state = .disabled then s.modQueue q (fun k => { k with base := BitVec.ofNat 64 (v / 4096 * 4096) }) else s

/-- QUEUE_ENABLE: a write of FN_QCTX with EN = 1. -/
def execQueueEnable (f : FnId) (v : Dword) (s : State) : Out := memRequest f.val (qctxWrite f.val (setBits v.toNat 63 1 1)) s

/-- QUEUE_DISABLE: a write of FN_QCTX with EN = 0. -/
def execQueueDisable (f : FnId) (v : Dword) (s : State) : Out := memRequest f.val (qctxWrite f.val (setBits v.toNat 63 1 0)) s

/-- QUEUE_DRAIN_COMPLETE: every fetched job of a DRAINING queue has completed (R285). -/
def execQueueDrainComplete (q : QueueId) (s : State) : Out :=
  let k := s.queue q.val
  if k.state = .draining ∧ k.jobs = [] ∧ ¬ s.host.waiting.any (·.1 == q.val) then .next (s.setQueue q.val { k with state := .disabled }) else .next s

/-- PF_QASN of page f written (R281). -/
def qasnWrite (f v : Nat) (s : State) : State :=
  let g := bits v 16 8
  let q := v % 65536
  let port := s.portOf f
  if (s.queue q).state ≠ .disabled ∨ ¬ s.portQueue port q ∨ s.portOf g ≠ port then s.wrej f
  else s.modQueue q (fun k => { k with owner := if v.testBit 31 then some g else none, lost := 0 })

/-- QUEUE_ASSIGN: a write of PF_QASN with A = 1; the register is absent in a virtual function's page. -/
def execQueueAssign (f : FnId) (v : Word) (s : State) : Out :=
  memRequest f.val (when (s.isPf f.val) (qasnWrite f.val (setBits v.toNat 31 1 1))) s

/-- QUEUE_RELEASE: a write of PF_QASN with A = 0. -/
def execQueueRelease (f : FnId) (v : Word) (s : State) : Out :=
  memRequest f.val (when (s.isPf f.val) (qasnWrite f.val (setBits v.toNat 31 1 0))) s

/-- PF_FCFG of page f written (R292, R295). -/
def fcfgSet (f v : Nat) (s : State) : State :=
  let g := s.acting f
  let n := v % 4096
  let sum := (s.portFns (s.portOf f)).foldl (fun t h => t + if h = g then n else s.nvec h) 0
  let fixed := n != s.nvec g && ((s.fn g).msixEn || (!s.isPf g && (s.fn (portPf (s.portOf f))).vfEn))
  if n = 0 ∨ 2048 < n ∨ s.portVectors < sum ∨ fixed then s.wrej f
  else endLevel3 (s.modFn g (fun x => { x with fcfg := some (BitVec.ofNat 32 (bits v 31 1 * 2 ^ 31 + bits v 24 6 * 2 ^ 24 + n)) }))

/-- FCFG_WRITE. -/
def execFcfgWrite (f : FnId) (v : Word) (s : State) : Out := memRequest f.val (when (s.isPf f.val) (fcfgSet f.val v.toNat)) s

/-- PF_FSEL of page f written (R295). -/
def fselSet (f v : Nat) (s : State) : State :=
  if s.portOf (v % 256) ≠ s.portOf f then s.wrej f else s.modFn f (fun x => { x with fsel := some (BitVec.ofNat 8 v) })

/-- FSEL_WRITE. -/
def execFselWrite (f : FnId) (v : Word) (s : State) : Out := memRequest f.val (when (s.isPf f.val) (fselSet f.val v.toNat)) s

/-- A window register of page f written as a whole: only a physical function's page sets one (R278). -/
def winSet (f off v : Nat) (s : State) : State :=
  if !s.isPf f then s
  else
    let w := (off - 0x100) / 16
    s.modFn (s.acting f) (fun x =>
      if off % 16 = 0 then { x with winBase := tset (konst 0) x.winBase w (BitVec.ofNat 64 (v / 4096 * 4096)) }
      else { x with winCtl := tset (konst 0) x.winCtl w (BitVec.ofNat 64 (bits v 61 3 * 2 ^ 61 + bits v 12 40 * 4096)) })

/-- The double-word at an offset of BAR0 of function f, as the host reads it. -/
def State.bar0 (s : State) (f off : Nat) : Nat :=
  if 0x1000 ≤ off ∧ ¬ s.isPf f then 0 else fnPage f (s.acting f) (s.fn f).qsel.toNat off (s.isPf f) s

/-- A write of n bytes of BAR0 (R295). -/
def bar0Write (f off n v : Nat) (s : State) : State :=
  let a := off / 8 * 8
  let old := s.bar0 f a
  let v' := if n = 8 then v else if off % 8 = 4 then setBits old 32 32 v else setBits old 0 32 v
  if a = 8 then (if v'.testBit 63 ∧ (n = 8 ∨ off % 8 = 4) then s.modFn f (fun x => { x with wrej := false }) else s)
  else if off = 0x10 then
    let s1 := s.modFn f (fun x => { x with qsel := BitVec.ofNat 16 v })
    if (s1.selQueue f).isSome then s1 else s1.wrej f
  else if a = 0x18 then qbaseWrite f v' s
  else if a = 0x20 then qctxWrite f v' s
  else if a = 0x28 then (match s.selQueue f with | some _ => s | none => s.wrej f)
  else if 0x100 ≤ a ∧ a < 0x200 then winSet f a v' s
  else if !s.isPf f then s
  else if off = 0x1000 then fselSet f v s
  else if off = 0x1008 then fcfgSet f v s
  else if off = 0x1010 then qasnWrite f v s
  else s

/-- What a BAR read returned. -/
def barReply (b : List Byte) (s : State) : State := s.modHost (fun h => { h with bar := b })

/-- BAR0_ACCESS: naturally aligned reads and writes of 4 or 8 bytes (R277). -/
def execBar0Access (f : FnId) (off : BitVec 16) (size : Size) (write : Option Dword) (s : State) : Out :=
  memRequest f.val (fun s =>
    if size.bytes < 4 ∨ off.toNat % size.bytes ≠ 0 then unsupported s
    else match write with
      | some v => bar0Write f.val off.toNat size.bytes (v.toNat % 2 ^ (8 * size.bytes)) s
      | none => barReply (toBytes size.bytes (s.bar0 f.val (off.toNat / 8 * 8) / 2 ^ (8 * (off.toNat % 8)))) s) s

/-- The bank and offset behind an offset of BAR4 of function f (Table HOST-2). -/
def State.bar4 (s : State) (f off : Nat) : Option (Nat × Nat) :=
  if off < 0x200 then some (f / 128, f % 128 * 512 + off)
  else if off < 0x300 then some (3, f * 256 + (off - 0x200))
  else if 0x10000 ≤ off ∧ off < 0x20000 ∧ s.isPf f then some (2, off - 0x10000)
  else none

/-- A BAR4 read split into port-B accesses: the bytes, and whether every access answered OK (R277). -/
def bar4Read : Nat → Nat → Nat → Nat → State → Bool × List Byte × State
  | 0, _, _, _, s => (true, [], s)
  | fuel + 1, f, off, n, s =>
    if n = 0 then (true, [], s)
    else
      let m := chunk off n
      let x := match s.bar4 f off with
        | some b => let y := bankRw .hostBlock true b.1 b.2 m none s; (y.status == RStat.ok, toBytes m y.word, y.st)
        | none => (true, List.replicate m 0, s)
      let y := bar4Read fuel f (off + m) (n - m) x.2.2
      (x.1 && y.1, x.2.1 ++ y.2.1, y.2.2)

/-- A BAR4 write split into port-B accesses; a collision is counted and the access lost (R277). -/
def bar4Write : Nat → Nat → Nat → List Byte → State → State
  | 0, _, _, _, s => s
  | fuel + 1, f, off, v, s =>
    if v = [] then s
    else
      let m := chunk off v.length
      let s1 := match s.bar4 f off with
        | some b =>
          let y := bankRw .hostBlock true b.1 b.2 m (some (ofBytes (v.take m))) s
          if y.status = .collision then y.st.modFn f (fun x => { x with coll := BitVec.ofNat 16 (satAdd 16 x.coll.toNat 1) }) else y.st
        | none => s
      bar4Write fuel f (off + m) (v.drop m) s1

/-- BAR4_ACCESS. -/
def execBar4Access (f : FnId) (off : BitVec 17) (bytes : Nat) (write : Option (List Byte)) (s : State) : Out :=
  memRequest f.val (fun s =>
    match write with
    | some v => bar4Write v.length f.val off.toNat v s
    | none =>
      let x := bar4Read bytes f.val off.toNat bytes s
      if x.1 then barReply x.2.1 x.2.2 else (barReply [] x.2.2).modHost (fun h => { h with ca := h.ca + 1 })) s

/-- UNSUPPORTED_REQUEST (R275). -/
def execUnsupportedRequest (_f : FnId) (_k : UnsupportedKind) (s : State) : Out :=
  hostRequest (fun s => (unsupported s).modHost (fun h => { h with aer := h.aer + 1 })) s

/-- The pending vectors of a function whose MSI-X has been enabled are sent, those that are not masked (R292). -/
def sendPending (f : Nat) (s : State) : State :=
  let x := s.fn f
  if x.masked then s
  else
    let vs := (x.vecPend.map (·.1)).filter (fun v => !tget (konst false) x.vecMask v)
    (s.modFn f (fun x => { x with vecPend := x.vecPend.filter (fun e => tget (konst false) x.vecMask e.1) })).modHost
      (fun h => { h with msgs := h.msgs ++ vs.map (fun v => (f, v)) })

/-- What a configuration write sets in function f; VF Enable stands in a physical function alone (R274, R292). -/
def configWrite (f : Nat) (w : ConfigWrite) (mask : Bool) (s : State) : State :=
  match w with
  | .msix enable => when enable (sendPending f) (s.modFn f (fun x => { x with msixEn := enable, masked := mask }))
  | .vf enable => if s.isPf f then s.modFn f (fun x => { x with vfEn := enable }) else s
  | .power d3hot => s.modFn f (fun x => { x with d3 := d3hot })
  | .payload code => s.modFn f (fun x => { x with mps := code })
  | .readRequest code => s.modFn f (fun x => { x with mrrs := code })

/-- CONFIGURATION_REQUEST: Request Retry Status before B9, and the write after it (R378). -/
def execConfigurationRequest (f : FnId) (w : ConfigWrite) (mask : Bool) (s : State) : Out :=
  hostRequest (fun s => if s.devState < stReady then s else configWrite f.val w mask s) s

/-- A rate and width that training may end with (Table HOST-1): a link that is down has none. -/
def linkLegal (two : Bool) (l : LinkState) (gts width : Nat) : Bool :=
  if l = .down then gts == 0 && width == 0
  else [8, 16, 32, 64].contains gts && [1, 2, 4, 8, 16].contains width && !(two && width == 16)

/-- PCIE_LINK_CHANGE: HOST_EVT.LINK when the state or rate changed; WAKE_N is released once a link trains (R274, R276, R385). A port that the mode does not
have, and a rate or width that training does not reach, change nothing. -/
def execPcieLinkChange (port : Fin 2) (l : LinkState) (r : LinkRate) (s : State) : Out :=
  if s.boot.tap.disturbs ∨ ¬ linkLegal s.bif l r.gts.toNat r.width.toNat ∨ (port = 1 ∧ s.bif = false) then .next s
  else
    let old := s.link port.val
    let s1 := s.modHost (fun h => { h with links := tset (konst PcieLink.reset) h.links port.val ⟨l, r.gts, r.width⟩ })
    let s2 := if old.state = l ∧ old.gts = r.gts then s1 else s1.setB (cr 0x38 0x1100) 3
    .next (if l = .l0 then s2.modBoot (fun b => { b with wakeN := true }) else s2)

-- RUN_PROGRAM (R289)

/-- A run of staging memory lies wholly inside it (R289 step 1). -/
def regionOk (a n : Nat) : Bool := n == 0 || decide (a + n ≤ stagingEnd)

/-- The registers with which a program starts (R289 step 3). -/
def programCore (old : Core) (j : Job) : Core :=
  { Core.reset with
    g := tset (konst 0) [] 1 (BitVec.ofNat 32 (j.f 0x34 4)), pc := 0x1000, sp := BitVec.ofNat 32 (j.f 0x14 4)
    cs := ⟨BitVec.ofNat 40 (j.f 8 8 - 4096), BitVec.ofNat 33 (j.f 0x10 4 + 4096), true, false, true⟩
    ds := ⟨BitVec.ofNat 40 (j.f 0x18 8), BitVec.ofNat 33 (j.f 0x20 4), true, true, false⟩
    ss := ⟨BitVec.ofNat 40 (j.f 0x28 8), BitVec.ofNat 33 (j.f 0x14 4), true, true, false⟩
    asBase := BitVec.ofNat 12 (j.f 0x24 2), asLim := BitVec.ofNat 13 (j.f 0x26 2), asR := true, asW := true
    run := .running, copTag := old.copTag, dfTimes := old.dfTimes, started := true }

/-- The vendor's handler block below CODE, of which the spec gives no contents. -/
def handlerBlock (s : State) : List Byte := (List.range 512).flatMap (fun i => toBytes 8 (s.drawn i).toNat)

/-- Every ICU samples source j's line at a level (R226). -/
def sampleAll (j : Nat) (level : Bool) (s : State) : State := each (List.range 6) (fun n s => s.sample n j level) s

/-- The firmware of sequencer s takes the dispatched job of queue q on partition p: line 32 + s falls, the job is checked and its program starts
(R289). -/
def takeProgram (q p i : Nat) (j : Job) (s : State) : State :=
  let c := s.driver p
  let code := j.f 8 8
  let s0 := sampleAll (32 + c) false (s.setProgram p none)
  if code % 4096 ≠ 0 ∨ code < 0x1000 ∨ 4096 < j.f 0x24 2 + j.f 0x26 2 then completeJob q i ⟨2, 0, 0, 0, 0⟩ s0
  else if !regionOk (code - 4096) (j.f 0x10 4 + 4096) || !regionOk (j.f 0x18 8) (j.f 0x20 4) || !regionOk (j.f 0x28 8) (j.f 0x14 4) then
    completeJob q i ⟨3, 0, 0, 0, 0⟩ (toRun s0)
  else
    let s2 := (memWrite (sourcePort (.core (Fin.ofNat 6 c))) (.core (Fin.ofNat 6 c)) (code - 4096) (handlerBlock s) (toRun s0)).2.draw
    let t := j.f 0x30 4
    ((s2.modCore c (fun k => programCore k j)).setR32 (sq c 0x20) 0x3f).setProgram p
      (some { queue := q, jobid := BitVec.ofNat 32 j.jobid, taken := true, deadline := if t = 0 then none else some (s.ran + 1000 * t), ended := none })

/-- RUN_PROGRAM is dispatched: WQ_PJOBp shows it and source 32 + s is active; a sequencer that can take it does so at once, another is woken (R289). -/
def dispatchProgram (q p i : Nat) (j : Job) (free : Bool) (s : State) : State :=
  let c := s.driver p
  let s1 := sampleAll (32 + c) true ((markStart q i s).setProgram p (some { queue := q, jobid := BitVec.ofNat 32 j.jobid, taken := false, deadline := none, ended := none }))
  if free then takeProgram q p i j s1 else wakeDomain (16 + c) s1

/-- The core that drives a partition can take a job: released from reset, not halted, its domain delivering service. -/
def State.coreFree (s : State) (c : Nat) : Bool := (s.core c).run != .held && (s.core c).run != .halted && s.domUp (16 + c)

/-- The firmware's clean-up once a program has ended: ARES, the halted queues flushed, the lane first; then how it ended (R289). -/
def endProgram (p status detail info : Nat) (s : State) : State :=
  match s.prog p with
  | none => s
  | some g =>
    if g.ended.isSome ∨ g.taken = false then s
    else if g.stop then haltProgram p (s.driver p) s
    else
      let c := s.driver p
      let x := s.seq c
      let e := if x.susp then (12, 0xFFFF0001, 0)
        else if status = 0 ∧ (x.lHalt ∨ x.qHalt) then (12, 0xFFFF0002, s.r32 (sq c 0x854) * 2 ^ 32 + s.r32 (sq c 0x850))
        else (status, detail, info)
      let r := fun (n : Nat) => (tget (konst 0) (s.core c).g n).toNat
      let res := if e.1 = 0 then (r 2 * 2 ^ 32 + r 1, r 4 * 2 ^ 32 + r 3) else (0, 0)
      let s1 := s.setProgram p (some { g with ended := some (e.1, e.2.1, e.2.2, res.1, res.2) })
      let s2 := if x.susp then s1.modSeq c (fun x => { x with resuming := true }) else s1
      let s3 := when x.lHalt (acmd c 2) s2
      when x.qHalt (acmd c 2) s3

/-- The program that the jobs of queue q run, and its partition. -/
def State.progOf (s : State) (q : Nat) : Option (Nat × Prog) :=
  s.host.progs.findSome? (fun e => match e.2 with | some g => if g.queue = q ∧ ¬ (g.stop ∧ g.ended.isSome) then some (e.1, g) else none | none => none)

/-- The array queue of an ended program is empty and every result has landed (R289). -/
def State.settled (s : State) (p : Nat) : Bool :=
  let x := s.seq (s.driver p)
  x.queue.isEmpty && x.lane.isEmpty && x.run.isNone && x.frame.isNone && s.trees p == Trees.none

/-- RUN_PROGRAM: its dispatch in turn, and its start once the sequencer can take it; or its completion once it has ended and its work has settled
(R286, R289). -/
def execRunProgram (q : QueueId) (part : JobPart) (s : State) : Out :=
  match part with
  | .start =>
    let p := s.jobPart q.val
    let c := s.driver p
    (match s.prog p with
    | none => .next (startJob q.val 1 s (fun i j s => inTurn p [1] (some p) q.val s (dispatchProgram q.val p i j (s.coreFree c))))
    | some g =>
      match s.runningJob q.val [1] with
      | some (i, j) => if g.queue = q.val ∧ g.taken = false ∧ s.coreFree c then .next (takeProgram q.val p i j s) else .next s
      | none => .next s)
  | .finish =>
    match s.progOf q.val, s.runningJob q.val [1] with
    | some (p, g), some (i, _) =>
      match g.ended with
      | some e => if s.settled p then .next (completeJob q.val i ⟨e.1, e.2.1, e.2.2.1, e.2.2.2.1, e.2.2.2.2⟩ (s.setProgram p none)) else .next s
      | none => .next s
    | _, _ => .next s

/-- A core stands between instructions, or waits in SYNC, a divider stall, a push stall or WFI. -/
def CoreRun.atPoint : CoreRun → Bool
  | .running => true
  | .waiting (.sync _) => true
  | .waiting .wfi => true
  | .waiting (.divider _ _ _) => true
  | .waiting (.push _) => true
  | _ => false

/-- The core is at a point where it would take an interrupt: never under REPN (R220, R289). -/
def Core.atPoint (k : Core) : Bool := k.run.atPoint && !(k.rep.any (·.noInt))

/-- RUN_PROGRAM_TIMEOUT: the program of partition p is stopped (R289). -/
def execRunProgramTimeout (p : Quad) (s : State) : Out :=
  match s.prog p.val with
  | some g =>
    match g.deadline with
    | some d =>
      let c := s.driver p.val
      if d ≤ s.ran ∧ g.taken ∧ g.ended.isNone ∧ (s.core c).atPoint then
        .next (endProgram p.val 13 0 0 (s.modCore c (fun k => { k with run := .running, rep := none })))
      else .next s
    | none => .next s
  | none => .next s

-- Plane jobs and key loads (R286, R404)

/-- The PTD at an address as read without effect, when it can be read. -/
def peekPtd (p a : Nat) (s : State) : Option Ptd :=
  let x := longRead (.engine (Fin.ofNat 4 p)) 16 a 64 s
  let n := bits (ofBytes x.2.1) (8 * 0x32) 8
  if !mapped a 64 || x.1 != RStat.ok || n == 0 || decide (64 < n) || !mapped (a + 64) (8 * n) then none
  else
    let y := longRead (.engine (Fin.ofNat 4 p)) 80 (a + 64) (8 * n) x.2.2
    if y.1 = RStat.ok then some (readPtd (s.quads p) (ofBytes x.2.1) ((List.range n).map (fun i => bits (ofBytes y.2.1) (64 * i) 64))) else none

/-- No plane job runs on partition p, and its engines are IDLE, DONE or FAILED (R286). -/
def State.planeFree (s : State) (p : Nat) : Bool := (s.planeQueue p).isNone && (s.xfer p).isNone && s.quads p != []

/-- A plane job starts: GO at the engine of the lowest quadrant (R286). -/
def goJob (q p i ptd : Nat) (key : Bool) (s : State) : State :=
  let s1 := beginJob q i s
  launch p ptd key (some q) (enginesRun (s1.quads p) s1)

/-- A transfer's outcome as a job status: the plane codes map one to one (R291). -/
def planeStatus : Nat → Nat
  | 0 => 0 | 1 => 2 | 2 => 3 | 3 => 7 | 4 => 6 | 5 => 8 | 6 => 9 | 7 => 10 | _ => 11

/-- A plane job whose PTD moves the other way ends with DESC_ERROR before GO (Table HOST-4). -/
def startPlanes (out : Bool) (q p i : Nat) (j : Job) (s : State) : State :=
  match peekPtd p (j.f 8 8) s with
  | some d => if !d.bad && d.t.out != out then completeJob q i ⟨2, 0, 0, 0, 0⟩ s else goJob q p i (j.f 8 8) false s
  | none => goJob q p i (j.f 8 8) false s

/-- The records of a transfer, by address and length. -/
def Transfer.records (t : Transfer) (qs : List Nat) : List (Nat × Nat) :=
  qs.flatMap (fun q => (List.range (t.cnt_ q)).map (fun r => (t.base_ q + r * t.stride, t.stride)))

/-- A run of bytes lies inside one valid key window (R404). -/
def State.inOneWindow (s : State) (a n : Nat) : Bool :=
  (List.range 4).any (fun k =>
    let w := s.r64 (cr 3 (0x100 + 8 * k))
    w.testBit 63 && decide (bits w 0 20 * 2 ^ 20 ≤ a) && decide (a + n ≤ (bits w 0 20 + bits w 32 20) * 2 ^ 20))

/-- KEY_LOAD starts, after the checks in which it differs from a plane job (R404). -/
def startKeyLoad (q p i : Nat) (j : Job) (s : State) : State :=
  let a := j.f 8 8
  match peekPtd p a s with
  | none => goJob q p i a true s
  | some d =>
    let rs := d.t.records (s.quads p)
    if d.bad ∨ addressBad (s.quads p) d.t then goJob q p i a true s
    else if d.t.out ∨ d.t.manual then completeJob q i ⟨2, 0, 0, 0, 0⟩ s
    else if d.t.map.any (fun e => decide (e.daddr.toNat < s.keyBase p) || decide (s.keyBase p + s.keyLen p < e.daddr.toNat + e.dlen)) then
      let s1 := beginJob q i s
      transferEnd p 3 (enginesRun (s1.quads p) s1)
    else if rs.any (fun r => !s.inOneWindow r.1 r.2) then completeJob q i ⟨14, 0, 0, 0, 0⟩ s
    else goJob q p i a true (s.modHost (fun h => { h with keyZero := tset (konst []) h.keyZero q (if j.f 16 1 = 1 then rs else []) }))

/-- The source records of a KEY_LOAD with ZERO = 1 are zeroed once its transfer has completed (R404). -/
def zeroRecords (q : Nat) (s : State) : State :=
  let rs := tget (konst []) s.host.keyZero q
  let s1 := s.modHost (fun h => { h with keyZero := tset (konst []) h.keyZero q [] })
  each rs (fun r s => (longWrite (.engine (Fin.ofNat 4 (s.jobPart q))) (r.2 + 2) r.1 (List.replicate r.2 0) s).2) s1

/-- A plane job or key load of queue q completes once its transfer has ended. -/
def finishPlanes (q op : Nat) (s : State) : State :=
  let p := s.jobPart q
  match s.runningJob q [op] with
  | none => s
  | some (i, _) =>
    if (s.xfer p).isSome then s
    else
      let st := s.r32 (ct p 0x10)
      let s1 := if op = 6 ∧ bits st 20 4 = 0 then zeroRecords q s else s
      completeJob q i ⟨planeStatus (bits st 20 4), bits st 8 16, 0, 0, 0⟩ s1

/-- A plane job of opcode op: its start, or its completion. -/
def planeJob (q op : Nat) (part : JobPart) (go : Nat → Nat → Job → State → State) (s : State) : State :=
  match part with
  | .start =>
    let p := s.jobPart q
    startJob q op s (fun i j s => if s.planeFree p then inTurn (4 + p) [2, 3, 6] (some p) q s (go p i j) else s)
  | .finish => finishPlanes q op s

/-- LOAD_PLANES. -/
def execLoadPlanes (q : QueueId) (part : JobPart) (s : State) : Out := .next (planeJob q.val 2 part (startPlanes false q.val) s)
/-- STORE_PLANES. -/
def execStorePlanes (q : QueueId) (part : JobPart) (s : State) : Out := .next (planeJob q.val 3 part (startPlanes true q.val) s)
/-- KEY_LOAD. -/
def execKeyLoad (q : QueueId) (part : JobPart) (s : State) : Out := .next (planeJob q.val 6 part (startKeyLoad q.val) s)

-- COPY (R290)

/-- Every page's part of a host range lies in a window of f that grants the right: a request never crosses 4 KiB (R279). -/
def State.hostRangeOk (s : State) (f a n : Nat) (write : Bool) : Bool :=
  n == 0 || (List.range ((a + n - 1) / 4096 - a / 4096 + 1)).all (fun k =>
    let lo := max a ((a / 4096 + k) * 4096)
    let hi := min (a + n) ((a / 4096 + k + 1) * 4096)
    s.window f lo (hi - lo) write)

/-- A range meets [lo, hi). -/
def meets (a n lo hi : Nat) : Bool := decide (a < hi) && decide (lo < a + n)

/-- A device range that COPY may not touch: control pages, the NVM window; as a destination, microstore slots outside the user region of the
partition's sequencer or covered in part (R290). -/
def copyBad (c a n : Nat) (dest : Bool) : Bool :=
  meets a n 0x4200000000 0x4300000000 || meets a n nvmBase (nvmBase + 0x800000) ||
  (dest && meets a n 0x4100000000 0x4105000000 &&
    (decide (a % 32 ≠ 0) || decide (n % 32 ≠ 0) || decide (a < 0x4100000000 + c * 0x1000000 + 0x3000 * 32)
      || decide (0x4100000000 + c * 0x1000000 + 0x4000 * 32 < a + n)))

/-- One request of the host block to a device target other than a control page: its isolated port, or what the target answers (R265, R290). -/
def blockRead (a n : Nat) (s : State) : RStat × List Byte × State :=
  unitRead (sourcePort .hostBlock) .hostBlock a n s
@[inherit_doc blockRead] def blockWrite (a : Nat) (v : List Byte) (s : State) : RStat × State :=
  unitWrite (sourcePort .hostBlock) .hostBlock a v s

/-- What a run of a COPY comes to: 0 or the status that ends the job, the bytes moved, the state. -/
structure CopyRun where
  code : Nat
  moved : Nat
  st : State

/-- The job status of a target's answer (R290, log entry 37). -/
def copyStatus : RStat → Nat
  | .ok => 0
  | .unmapped => 3
  | _ => 6

/-- A COPY of a function: the side of each address, host or device. -/
structure CopyWay where
  f : Nat
  queue : Nat
  hostSrc : Bool
  hostDst : Bool

/-- One request pair: the window check of a host side (R279, R280), the read, the write. A target whose domain is held OFF moves nothing. -/
def copyUnit (w : CopyWay) (src dst m : Nat) (s : State) : CopyRun :=
  let hostA := if w.hostSrc then src else dst
  if (w.hostSrc || w.hostDst) && !s.window w.f hostA m w.hostDst then ⟨4, 0, windowFail w.f hostA w.queue s⟩
  else if (!w.hostSrc && !s.passes (sourcePort .hostBlock) false src) || (!w.hostDst && !s.passes (sourcePort .hostBlock) (decide (dst < stagingEnd)) dst) then ⟨0, 0, s⟩
  else
    let x := if w.hostSrc then (RStat.ok, s.hostBytes w.f src m, s) else blockRead src m s
    if x.1 ≠ .ok then ⟨copyStatus x.1, 0, x.2.2⟩
    else
      let y := if w.hostDst then (RStat.ok, hostStore w.f dst x.2.1 x.2.2) else blockWrite dst x.2.1 x.2.2
      if y.1 ≠ .ok then ⟨copyStatus y.1, 0, y.2⟩ else ⟨0, m, y.2⟩

/-- The bytes that one request covers: neither a device unit of either side nor a 4 KiB page of host memory is left. -/
def copySpan (w : CopyWay) (src dst n : Nat) : Nat :=
  let side := fun (host : Bool) (a n : Nat) => if host then min n (min 64 (4096 - a % 4096)) else unit a n
  let m := side w.hostSrc src n
  if w.hostDst then side true dst m else if unit dst m = m then m else chunk dst m

/-- Moves n bytes from src to dst request by request; `lim` is what the host moves before it fails. -/
def copyRun (w : CopyWay) : Nat → Nat → Nat → Nat → Option Nat → Nat → State → CopyRun
  | 0, _, _, _, _, done, s => ⟨0, done, s⟩
  | fuel + 1, src, dst, n, lim, done, s =>
    if n = 0 then ⟨0, done, s⟩
    else if lim = some 0 then ⟨5, done, s⟩
    else
      let m0 := copySpan w src dst n
      let m := match lim with | some l => if m0 ≤ l then m0 else if w.hostDst then l else chunk dst l | none => m0
      let x := copyUnit w src dst m s
      if x.code ≠ 0 ∨ x.moved = 0 then ⟨x.code, done, x.st⟩
      else copyRun w fuel (src + m) (dst + m) (n - m) (lim.map (· - m)) (done + m) x.st

/-- The way of a COPY job of queue q. -/
def copyWay (q : Nat) (j : Job) (s : State) : CopyWay := ⟨(s.queue q).owner.getD 0, q, j.f 32 1 == 0, j.f 32 1 == 1⟩

/-- A running COPY moves up to n further bytes, and completes with the last or with an error (R290). -/
def copyOn (q i n : Nat) (j : Job) (r : HostReply) (s : State) : State :=
  let w := copyWay q j s
  let m := min n (j.f 24 8 - j.moved)
  let x := copyRun w m (j.f 8 8 + j.moved) (j.f 16 8 + j.moved) m (if w.hostSrc || w.hostDst then replyBytes r else none) 0 s
  let j1 := { j with moved := j.moved + x.moved }
  let s1 := setJob q i j1 x.st
  if x.code ≠ 0 ∨ j1.moved = j.f 24 8 then completeJob q i ⟨x.code, 0, 0, 0, 0⟩ s1 else s1

/-- COPY starts on a DMA channel: the checks before any byte moves, then its first bytes (R290). -/
def startCopy (q i n : Nat) (j : Job) (r : HostReply) (s : State) : State :=
  let f := (s.queue q).owner.getD 0
  let src := j.f 8 8
  let dst := j.f 16 8
  let len := j.f 24 8
  let dir := j.f 32 1
  let c := s.driver (s.jobPart q)
  let hostA := if dir = 0 then src else dst
  let s1 := beginJob q i s
  if dir ≤ 1 ∧ ¬ s.hostRangeOk f hostA len (dir == 1) then completeJob q i ⟨4, 0, 0, 0, 0⟩ (windowFail f hostA q s1)
  else if (dir ≠ 0 && copyBad c src len false) || (dir ≠ 1 && copyBad c dst len true) then completeJob q i ⟨3, 0, 0, 0, 0⟩ s1
  else match (s1.queue q).jobs[i]? with
    | some j1 => copyOn q i n j1 r s1
    | none => s1

/-- The places in queue q of its running COPY jobs. -/
def State.copies (s : State) (q : Nat) : List Nat :=
  (List.range (s.queue q).jobs.length).filter (fun i => match (s.queue q).jobs[i]? with | some j => j.running && j.op == 4 | none => false)

/-- COPY jobs that run in the device: one to a DMA channel (R286). -/
def State.channels (s : State) : Nat := s.host.queues.foldl (fun n e => n + (e.2.jobs.filter (fun j => j.running && j.op == 4)).length) 0

/-- COPY: the k-th running COPY of queue q goes on, or its next one starts in turn on one of 16 channels (R286, R290). -/
def execCopy (q : QueueId) (m : CopyMove) (s : State) : Out :=
  match (s.copies q.val)[m.k]? with
  | some i => (match (s.queue q.val).jobs[i]? with
    | some j => .next (copyOn q.val i m.n j m.reply s)
    | none => .next s)
  | none =>
    if m.k ≠ (s.copies q.val).length then .next s
    else .next (startJob q.val 4 s (fun i j s => if s.channels < 16 then inTurn 8 [4] none q.val s (startCopy q.val i m.n j m.reply) else s))

-- FABRIC_LOAD and FENCE (R336, R340, R27)

/-- FABRIC_LOAD. -/
def startFabricLoad (q i : Nat) (j : Job) (s : State) : State :=
  let g := j.f 20 2
  if 15 < g ∧ g ≠ 0xFFFF then completeJob q i ⟨2, 0, 0, 0, 0⟩ s
  else addLoad ⟨BitVec.ofNat 64 (j.f 8 8), BitVec.ofNat 16 g, some (q, j.f 16 4), false⟩ (beginJob q i s)

/-- FABRIC_LOAD. -/
def execFabricLoad (q : QueueId) (s : State) : Out := .next (startJob q.val 5 s (startFabricLoad q.val))

/-- FENCE: every earlier job of its queue has completed (R27). -/
def execFence (q : QueueId) (s : State) : Out := .next (startJob q.val 7 s (fun i _ s => completeJob q.val i ⟨0, 0, 0, 0, 0⟩ s))

-- Room in completion and event queues, coalescing (R291, R292)

/-- The first completion that waits for completion queue c leaves the wait. -/
def dropWaiting (c : Nat) (s : State) : State :=
  match s.host.waiting.findIdx? (fun w => (s.queue w.1).cq == c) with
  | some k => s.modHost (fun h => { h with waiting := h.waiting.eraseIdx k })
  | none => s

/-- COMPLETION_QUEUE_ROOM: the completion that has waited longest is written, or discarded where the queue is in ERROR (R291). -/
def execCompletionQueueRoom (c : QueueId) (s : State) : Out :=
  match s.host.waiting.find? (fun w => (s.queue w.1).cq == c.val) with
  | none => .next s
  | some w =>
    let settle := fun (s : State) => settleJobs (s.queue w.1).jobs.length w.1 s
    if (s.queue c.val).state = .error then .next (settle (evDrop ((s.queue c.val).owner.getD 0) (dropWaiting c.val s)))
    else if (s.queue c.val).full then .next s
    else .next (settle (writeEntry c.val (withHead (s.queue w.1).head.toNat w.2.2) (w.2.1 != 0) (dropWaiting c.val s)))

/-- EVENT_OVERFLOW: an event queue that was full has room again, or is in use no longer; its function's event queue carries the count (R291). -/
def execEventOverflow (q : QueueId) (s : State) : Out :=
  let k := s.queue q.val
  let f := k.owner.getD 0
  match s.eventQueue f with
  | some e =>
    if 0 < k.lost ∧ ¬ (k.state = .enabled ∧ k.full) ∧ ¬ (s.queue e).full then
      .next (event f 3 q.val k.lost (s.setQueue q.val { k with lost := 0 }))
    else .next s
  | none => .next s

/-- MSIX_COALESCE_TIMEOUT: the first unsignalled entry is COAL_T µs old (R292). -/
def execMsixCoalesceTimeout (q : QueueId) (s : State) : Out :=
  let k := s.queue q.val
  if 0 < k.unsig ∧ k.first + k.coalT * 1000 ≤ s.ran then .next (signal q.val s) else .next s

-- Function-level reset (R294)

/-- The mailbox slots of function f zeroed, in the bank or in the buffer of a row under test: the host slot and the dictionary slot (R252, R294). -/
def zeroMailbox (f : Nat) (s : State) : State :=
  let hit := fun (a : Nat) =>
    (decide (bankAddr (f / 128) (f % 128 * 512) ≤ a) && decide (a < bankAddr (f / 128) (f % 128 * 512 + 512)))
      || (decide (bankAddr 3 (f * 256) ≤ a) && decide (a < bankAddr 3 (f * 256 + 256)))
  let s1 : State := { s with mem := s.mem.filter (fun e => !hit e.1), flaw := s.flaw.filter (fun e => !hit e.1) }
  each [f / 128, 3] (fun b s => s.modBank b (fun k => { k with test := k.test.map (fun t => { t with
    buf := (List.range 8).map (fun i => if hit (bankAddr b (64 * t.row + 8 * i)) then (0, false) else t.buf.getD i (0, false)) }) })) s1

/-- A RUN_PROGRAM of queue q is stopped at its core's next instruction boundary, at once where the core stands at one (R294); one that no firmware has taken yet
is withdrawn. -/
def stopProgram (q : Nat) (s : State) : State :=
  match s.progOf q with
  | some (p, g) =>
    let c := s.driver p
    if !g.taken then sampleAll (32 + c) false (s.setProgram p none)
    else
      if (s.core c).run.atPoint then haltProgram p c s else s.setProgram p (some { g with stop := true })
  | none => s

/-- A FABRIC_LOAD of queue q is stopped: one that waits is dropped, and the regions of one in progress are UNCONFIGURED (R294, log entry 39). -/
def stopLoads (q : Nat) (s : State) : State :=
  let mine := fun (l : FabLoad) => match l.job with | some (x, _) => x == q | none => false
  let s1 := s.modFab (fun f => { f with waiting := f.waiting.filter (fun l => !mine l) })
  match s1.fab.cur with
  | some l =>
    if mine l then kickLoader (s1.fab.waiting.length + 1) (unconfigure l.region.toNat (s1.modFab (fun f => { f with cur := none }))) else s1
  | none => s1

/-- The jobs of queue q stopped or discarded, and the queue DISABLED. -/
def stopQueue (q : Nat) (s : State) : State :=
  let plane := (s.runningJob q [2, 3, 6]).isSome
  let s1 := stopLoads q (stopProgram q s)
  let s2 := if plane then cancelTransfer (s.jobPart q) true s1 else s1
  (s2.setQueue q { s2.queue q with state := .disabled, jobs := [], prev := none, kept := none, unsig := 0, lost := 0 }).modHost
    (fun h => { h with waiting := h.waiting.filter (fun w => w.1 != q) })

/-- The queues of a function. -/
def State.queuesOf (s : State) (f : Nat) : List Nat := (s.host.queues.filter (fun e => e.2.owner == some f)).map (·.1)

/-- An FLR of one function: windows, PF_FCFG and queue assignments are kept (R294). -/
def flrOne (f : Nat) (s : State) : State :=
  let s1 := zeroMailbox f (each (s.queuesOf f) stopQueue s)
  s1.modFn f (fun x => { Fn.reset with fcfg := x.fcfg, winBase := x.winBase, winCtl := x.winCtl })

/-- The device leaves RUN when the last job has gone (R381). -/
def idleCheck (s : State) : State := if s.devState = stRun ∧ ¬ s.jobRuns then stateChange stReady s else s

/-- An FLR of function f; of a physical function, every function of the port returns to reset (R294). -/
def flr (f : Nat) (s : State) : State :=
  if s.isPf f then
    let port := s.portOf f
    let fs := s.portFns port
    let s1 := each fs flrOne s
    idleCheck (s1.modHost (fun h => { h with
      fns := h.fns.filter (fun e => !fs.contains e.1), queues := h.queues.filter (fun e => !s.portQueue port e.1) }))
  else idleCheck (flrOne f s)

/-- FUNCTION_LEVEL_RESET. -/
def execFunctionLevelReset (f : FnId) (s : State) : Out := hostRequest (fun s => (flr f.val s).setB (cr 0x38 0x1100) 2) s

end Sys2Proof.Machine
end

