-- ==== Sys2Proof/Machine/Boot.lean ====
section
/-! DEFINITION. Resets, start-up, the watchdog, sequencer resets, the TAP and the sleep levels (R36, R364, R373–R390, R442, R448, R450, R454).
A start-up runs whole in the command that begins it, unless it is held at B1 or its firmware hangs. -/
namespace Sys2Proof.Machine

/-- PILOT_RCAUSE. -/
def rcause : Nat := cr 1 0
/-- SYS_STATE. -/
def sysState : Nat := cr 0 0x18

-- Repair maps (R187, R442)

/-- A record of the repair maps applied at start-up. -/
def applyRepair (r : RepairRec) (s : State) : State :=
  match r with
  | .column .. | .cluster .. => applyArray r s
  | .microRow q upc row =>
    (s.modSeq q (fun x => { x with redir := x.redir.filter (·.1 != upc) ++ [(upc, row)] })).setF (sq q 0x860) 16 9 (s.fld (sq q 0x860) 16 9 - 1)
  | .bankRow b row spare =>
    (s.modBank b (fun k => { k with redir := k.redir ++ [(row, spare)] })).setF (bk b 0x10) 4 4 (s.fld (bk b 0x10) 4 4 - 1)
  | .lane e k spare => let s1 := setLane e k 2 63 s; if spare < 34 then setLane e spare 0 k s1 else s1
  | .fabColumn r col _ =>
    showCols r (s.modFab (fun f => { f with faulty := tset (konst 0) f.faulty r (tget (konst 0) f.faulty r ||| BitVec.ofNat 8 (2 ^ col)) }))

-- Image checks (R380, R388–R391)

/-- The lifecycle field that the majority of its copies holds: 0, 1, 2 or 3 (R388). -/
def State.lifeField (s : State) : Nat := secRead 0 s % 4

/-- Image i passes: its header, its SVN against OTP, its signature (Table SEC-3, R390). -/
def State.imageGood (s : State) (i : Nat) : Bool :=
  let b := nvmBase + i * 0x200000
  let len := s.num (b + 8) 4
  s.num b 4 == 0x4D52465A && len % 16 == 0 && decide (0x1000 ≤ len) && decide (len ≤ 0x1FF4F0) && decide (s.num (b + 0xC) 1 ≤ 64)
    && decide (s.sec.svn ≤ s.num (b + 0xC) 1) && (s.bytes (b + 0xD) 0xF3).all (· == 0) && Config.vendorSigned (s.bytes b (len + 2820))

/-- The image that B2 takes, and whether A and B failed or A was skipped (R378, R380). -/
def State.pickImage (s : State) : Option Nat × Bool × Bool :=
  if s.bit rcause 7 then (none, true, true)
  else if s.fld rcause 8 2 ≠ 3 ∧ s.imageGood 0 then (some 0, false, false)
  else if s.imageGood 1 then (some 1, true, false)
  else (none, true, true)

-- Start-up (Table BOOT-3)

/-- The index with which signing begins: H of the valid record with the higher generation (R393). -/
def SecState.resume (x : SecState) : SecState := { x with next := if x.recA.1 < x.recB.1 then x.recB.2 else x.recA.2 }

/-- B1: straps latched, domains M, N and P ON, what the alarm log gained meanwhile in the security partition (R399), the link epoch advanced, WAKE_N low where the start-up ends a pilot-only sleep (R385). -/
def stepB1 (env : BootEnv) (s0 : State) : State :=
  let s := (s0.modSec SecState.resume).modBoot (fun b => { b with wakeN := !b.wakeDue, wakeDue := false })
  let s1 := (s.setR32 (cr 0 0x10) env.straps.toNat).setF (srt 0) 0 16 (bits env.straps.toNat 0 2 + 256 * bits env.straps.toNat 2 2)
  stateChange stBoot (copyLog { domainsOn [29, 31, 32] s1 with epoch := s.epoch + 1 })

/-- A report of class 15: SYS_STATE and PILOT_RCAUSE. -/
def bootReport (s : State) : State := s.reportN 15 3 0 (s.r32 sysState) (s.r32 rcause)

/-- A stack that fails training at B4 (R383). -/
def failStack (k : Nat) (s : State) : State :=
  let s1 := degrade 19 (s.modStack k (fun x => { x with failed := true }))
  s1.reportN 2 2 (0x24 + k) (s1.r64 (mc k 8)) (s1.r32 (mc k 4))

/-- B5: the vendor region of every microstore is loaded from the active image; its words are those of this load (Table BOOT-3; log entry 2). -/
def loadVendor (s : State) : State := ({ s with micro := [], microGen := s.free } : State).draw

/-- The firmware enters a thermal trip of the last run in the persistent fault log: a permanent report of the power class (R364, R441, Table LIFE-5). -/
def logTrip (s : State) : State := if s.bit rcause 4 then s.reportN 12 2 8 (s.r32 (pw 8)) (s.r32 (pw 0x10)) else s

/-- B3 to B6: firmware, repair maps, stacks, sequencers, AVSBus, and the array. -/
def stepsB3toB6 (env : BootEnv) (s : State) : State :=
  let s1 := logTrip ((startCore 5 s).modBoot (fun b => { b with fw := true }))
  let s2 := (each s1.maps applyRepair (loadVendor s1)).modPower (fun p => { p with avs := true })
  oneNc (each ((List.range 4).filter (fun k => env.stackFail.getLsbD k)) failStack) (domainsOn (List.range 25) s2)

/-- B7: what the store holds is applied, the transports are enabled and the sequencers released. -/
def stepB7 (s : State) : State :=
  let c := s.storeCopy
  let s1 := each storedKeys (applyStored c) (addOrigin c s)
  each (List.range 5) startCore ((s1.setB (cr 0x4d 0) 31).setB (cr 0x4c 0) 31)

/-- B9: LOCKED, DEGRADED or READY; the expiry count is cleared and kept doorbells take effect (R378, R380, R383). -/
def stepB9 (s : State) : State :=
  let s1 := s.setF rcause 7 3 0
  if s1.sec.erased ∨ s1.life = 3 then holdDomains (enterHeld stLocked s1)
  else ringKept (stateChange (if s1.fld sysState 16 5 ≠ 0 then stDegraded else stReady) s1)

/-- B2 on: OTP parity, lifecycle, images (R380, R388). -/
def stepB2 (env : BootEnv) (s : State) : State :=
  if env.otpFault then
    let s1 := alarm 9 0 s
    if s1.devState = stAlarm then s1 else holdDomains (enterHeld stAlarm s1)
  else
    let s1 := s.modSec (fun x => { x with lifeNow := BitVec.ofNat 2 s.lifeField })
    if s1.life = 3 then stepB9 s1
    else
      match s1.pickImage with
      | (none, _, _) => bootReport (((s1.setB sysState 9).setB sysState 10).modBoot (fun b => { b with rom := true }))
      | (some i, a, _) =>
        let s2 := if a then bootReport ((s1.setB sysState 9).setF sysState 8 1 i) else s1
        let s3 := stepsB3toB6 env s2
        if env.hang then s3 else stepB9 (stepB7 s3)

/-- A start-up that waits at B1 goes on once the rails and the pilot's temperature allow it; never under TESTMODE (R364, R374, R448). -/
def tryStart (s : State) : State :=
  match s.boot.held with
  | none => s
  | some env =>
    if s.power.pilotTemp < 100000 ∧ ¬ s.boot.railsBad ∧ ¬ env.testMode then stepB2 env (stepB1 env (s.modBoot (fun b => { b with held := none })))
    else s

-- Resets (Table BOOT-2)

/-- Every half-edge goes to DOWN. -/
def downAll (s : State) : State :=
  oneNc (each (List.range 8) (fun k s => if (s.half (k / 2) (k % 2)).link = .up then linkDown (k / 2) (k % 2) s else setLink (k / 2) (k % 2) .down s)) s

/-- What every reset of the device leaves, in PILOT, with the cause of the start-up to come recorded. The TAP keeps its instruction (R454). -/
def toPilot (cause : Nat) (s : State) : State :=
  let therm := b2n s.boot.trip * 16
  let s1 := when s.boot.tap.disturbs downAll (allOff (keepPilot s))
  (((s1.setF sysState 0 3 stPilot).setF rcause 0 6 (cause + therm)).setR32 (cr 0 0x10) 0).modBoot (fun b => { b with
    warn := false, fw := false, rom := false, trip := false, nap := false, sleep := false, held := none, alarmN := true, wakeN := true, wakeDue := false
    railsEn := true })

/-- DEVICE_RESET: the device restarts at B1 (R375). -/
def deviceReset (cause : Nat) (env : BootEnv) (s : State) : State :=
  tryStart ((toPilot cause s).modBoot (fun b => { b with held := some env, env := env }))

/-- The SYSRST_N pin held low clears the expiry count (R380). -/
def clearCount (s : State) : State := s.setF rcause 7 3 0

/-- Pilot-only sleep ends with a start-up; under SRC 00 the holdover ends (R370, R385, R450). -/
def pilotWake (code : Nat) (env : BootEnv) (s : State) : State :=
  let s1 := when (s.timeSrc == 0) (setHold false) ((toPilot (if code = 4 then 0x22 else 0x20) s).setF (cr 1 0x10) 8 3 code)
  tryStart (s1.modBoot (fun b => { b with held := some env, env := env, railsEn := true, wakeDue := decide (code ≠ 2) }))

/-- PILOT_WAKE_EVENT: an event that its PILOT_WAKE bit enables; SYSRST_N always ends the sleep (R385). The pins work as long as VIO18 is within its window (R455). -/
def execPilotWakeEvent (w : PilotWake) (env : BootEnv) (s : State) : Out :=
  if !s.boot.sleep || (w != .timeAlarm && !s.boot.vio18) then .next s
  else match w with
    | .timeAlarm => if s.bit (cr 1 0x10) 0 then .next (pilotWake 1 env s) else .next s
    | .perstN =>
      let s1 := s.modHost (fun h => { h with perst := false })
      if s.bit (cr 1 0x10) 1 then .next (pilotWake 2 env s1) else .next s1
    | .canRxd => if s.bit (cr 1 0x10) 2 then .next (pilotWake 3 env s) else .next s
    | .sysrstN => .next (pilotWake 4 env (clearCount s))

/-- SYSRST_N: low for 10 µs, and high again (R375); a pin of VIO18 (R455). -/
def execSysrstN (env : BootEnv) (s : State) : Out :=
  if s.devState = stOff ∨ ¬ s.boot.vio18 then .next s
  else if s.boot.sleep then .next (pilotWake 4 env (clearCount s))
  else .next (deviceReset 2 env (clearCount s))

/-- RAIL_FAULT: a rail leaves its window, or rises out of order: a reset, or the start-up to come, holds until every rail is in its window (R374); without VIO18
its pins are high-impedance (R455). -/
def execRailFault (f : RailFault) (s : State) : Out :=
  let s1 := s.modBoot (fun b => { b with railsBad := true, vio18 := b.vio18 && !f.vio18 })
  if s.devState = stOff ∨ s.devState = stPilot then .next s1
  else .next (deviceReset 2 f.env s1)

/-- RAILS_IN_WINDOW: a start-up that waits for the rails proceeds from B1 (R374); TESTMODE is as it was at the rising edge of SYSRST_N (R448). -/
def execRailsInWindow (env : BootEnv) (s : State) : Out :=
  let now := s.boot.held.map (fun old => { env with testMode := old.testMode })
  .next (tryStart (s.modBoot (fun b => { b with railsBad := false, vio18 := true, held := now, env := now.getD b.env })))

/-- RAIL_TIMEOUT: 100 ms after RAILS_EN rises, the rail failure is recorded (R450). -/
def execRailTimeout (s : State) : Out := if s.boot.held.isSome ∧ s.boot.railsBad then .next (s.setB rcause 1) else .next s

/-- What a loss of VPILOT leaves: MRAM, OTP and the world outside. -/
def coldState (s0 : State) : State :=
  let s := losePower s0
  { State.reset with
    pending := s.pending, mem := s.mem.filter (fun e => decide (nvmBase ≤ e.1)), maps := s.maps, free := s.free
    dict := { DictState.reset with copyA := s.dict.copyA, copyB := s.dict.copyB, result := s.dict.result, out := s.dict.out }
    fab := { FabState.reset with flash := s.fab.flash, wear := s.fab.wear, pulls := s.fab.pulls }
    host := { HostState.reset with mem := s.host.mem, msgs := s.host.msgs, perst := s.host.perst }
    power := { PowerState.reset with pilotTemp := s.power.pilotTemp, smb := s.power.smb, pec := s.power.pec, nacks := s.power.nacks }
    boot := { BootState.reset with railsBad := s.boot.railsBad, vio18 := s.boot.vio18, env := s.boot.env }
    sec := { SecState.reset with life := s.sec.life, lifeNow := s.sec.lifeNow, svn := s.sec.svn, log := s.sec.log, total := s.sec.total
                                 part := s.sec.part, oldLogs := s.sec.oldLogs, slots := s.sec.slots, enrol := s.sec.enrol, seeds := s.sec.seeds, recA := s.sec.recA
                                 recB := s.sec.recB, marker := s.sec.marker, erased := s.sec.erased } }

/-- PILOT_POWER_LOSS: the device is OFF (R381). -/
def execPilotPowerLoss (s : State) : Out := .next ((allOff (coldState s)).setF sysState 0 3 stOff)

/-- P1: everything reset, a pending erasure completed, the link epoch and the mesh sequence seeded (R375, R398, R402). -/
def powerUp (env : BootEnv) (s : State) : State :=
  let s1 := (allOff (coldState s)).setF sysState 0 3 stPilot
  let s2 := if s1.sec.marker then logErasure 2 ((eraseNvmKeys s1).setB secSnuf 31) else s1
  let seed := ofBytes (Config.random s2.free)
  let s3 := ({ s2 with epoch := BitVec.ofNat 8 seed } : State).draw.modSec (fun x => { x with lfsr := BitVec.ofNat 15 (seed / 256 % 32767 + 1) })
  tryStart (s3.modBoot (fun b => { b with held := some env, env := env }))

/-- PILOT_POWER_UP. -/
def execPilotPowerUp (env : BootEnv) (s : State) : Out := .next (powerUp env s)

/-- THERMAL_READING: a reading, and a start-up that waits for the pilot to cool (R362, R364). -/
def execThermalReading (tj : List (DomId × Int)) (pilot : Int) (s : State) : Out := .next (tryStart (takeReading tj pilot s))

-- The watchdog (R379, R380)

/-- The watchdog runs: firmware has started and domain M is ON. -/
def State.wdRuns (s : State) : Bool := s.boot.fw && s.domUp 32

/-- An expiry before B9 is counted; the fourth sets BHANG. -/
def countExpiry (s : State) : State :=
  if s.devState ≠ stBoot then s
  else if s.fld rcause 8 2 = 3 then s.setB rcause 7
  else s.setF rcause 8 2 (s.fld rcause 8 2 + 1)

/-- WATCHDOG_EXPIRY. -/
def execWatchdogExpiry (env : BootEnv) (s : State) : Out := if s.wdRuns then .next (deviceReset 4 env (countExpiry s)) else .next s

/-- WATCHDOG_WARNING: source 63 is active until the next kick. -/
def execWatchdogWarning (s : State) : Out := if s.wdRuns then .next (s.modBoot (fun b => { b with warn := true })) else .next s

-- SYS_RST (R376, R386)

/-- A dirty line that a halted core loses: memory keeps what was last written back (R376). -/
def loseLine (l : Nat) (s : State) : State :=
  match (s.dline l).old with
  | some v => s.setBytes (l * 64) (toBytes 64 v.toNat)
  | none => s

/-- Dirty lines that core c holds. -/
def State.dirtyOf (s : State) (c : Nat) : List Nat := (s.dir.filter (fun e => e.2.dirty && e.2.holders.getLsbD c)).map (·.1)

/-- SEQUENCER_RESET of core c: registers, CSTAT and SLOCK at reset, both caches invalid (R376). -/
def resetCore (c : Nat) (s : State) : State :=
  let s1 := if (s.core c).run = .halted then each (s.dirtyOf c) loseLine s else s
  ((dropAgent c s1).modCore c (fun k => { Core.reset with dfTimes := k.dfTimes })).setR32 (sq c 0x38) 0 |>.setR32 (sq c 0x20) 0

/-- A keyed write of SYS_RST: DEV alone, else resets, and releases of cores not reset by the same write (R386). -/
def sysRst (env : BootEnv) (v : Nat) (s : State) : State :=
  if v / 65536 % 65536 ≠ 0x5253 then s
  else if v.testBit 15 then deviceReset 8 env s
  else
    let s1 := each ((List.range 5).filter (fun c => v.testBit c)) resetCore s
    each ((List.range 5).filter (fun c => v.testBit (10 + c) && !v.testBit c)) runCore s1

/-- A 32-bit write of page SYS: SYS_RST takes the writes of the management core. -/
def sysWrite (env : BootEnv) (i : Initiator) (off v : Nat) (s : State) : State :=
  if i ≠ .mgmt then s.reportUnmapped (0x4200000000 + cr 0 off) else if off = 0x20 then sysRst env v s else s

/-- SOFTWARE_RESET: a write of SYS_RST, with what the start-up then finds. -/
def execSoftwareReset (i : Initiator) (v : Word) (env : BootEnv) (s : State) : Out := .next (sysWrite env i 0x20 v.toNat s)

/-- SEQUENCER_RESET: a write of SYS_RST. -/
def execSequencerReset (i : Initiator) (v : Word) (s : State) : Out := .next (sysWrite s.boot.env i 0x20 v.toNat s)

/-- SEQUENCER_RUN: a write of SYS_RST. -/
def execSequencerRun (i : Initiator) (v : Word) (s : State) : Out := .next (sysWrite s.boot.env i 0x20 v.toNat s)

/-- SEQUENCER_START_TIMEOUT: a released core that has issued nothing is declared failed (R433). -/
def execSequencerStartTimeout (q : SeqId) (s : State) : Out :=
  if (s.core q.val).run ≠ .held ∧ (s.core q.val).started = false then .next (declareFailed q.val s) else .next s

-- Pins (R375, R454)

/-- PERST_N: low resets domain P as an FLR of every port's physical function does; the link retrains when it rises. -/
def execPerstN (low : Bool) (s : State) : Out :=
  if low then
    let s1 := if s.domUp 29 then (each (if s.bif then [0, 128] else [0]) flr s).setB (cr 0x38 0x1100) 2 else s
    .next (s1.modHost (fun h => { h with perst := true, links := [] }))
  else .next (s.modHost (fun h => { h with perst := false }))

/-- The data register that the TAP shifts out: IDCODE, on both ordering codes; one bit 0 under BYPASS (IEEE 1149.1); otherwise the boundary register, of which the
spec gives no cells (R454; log entry 25). -/
def State.tapData (s : State) : List Bool :=
  match s.boot.tap with
  | .idcode => (List.range 32).map (0x0B301A6D : Word).getLsbD
  | .bypass => [false]
  | _ => []

/-- The TAP takes another instruction: one that disturbs the part takes every half-edge to DOWN; behind it a half-edge that is not enabled is DISABLED again (R304,
R454). -/
def setTap (m : TapMode) (s : State) : State :=
  let s1 := s.modBoot (fun b => { b with tap := m })
  if m.disturbs then downAll s1
  else if s.boot.tap.disturbs then
    each (List.range 8) (fun k s => if s.bit (sm (k / 2) 0) (k % 2) then s else putNl (k / 2) (k % 2) 0 (setLink (k / 2) (k % 2) .disabled s)) s1
  else s1

/-- TRST_N: the TAP is reset; a pin of VIO18 (R454, R455). -/
def execTrstN (s : State) : Out := .next (if s.boot.vio18 then setTap .idcode s else s)

/-- EXTEST: the TAP enters or leaves a mode that takes every half-edge to DOWN and leaves the PCIe link alone (R454). Its pins need VIO18, and boundary scan needs
the rails within their windows too. -/
def execExtest (m : TapMode) (s : State) : Out := .next (if s.boot.vio18 ∧ ¬ (m.disturbs ∧ s.boot.railsBad) then setTap m s else s)

-- Sleep (R384, R385)

/-- A PCIe link in L0 enters L1 (Table BOOT-6), which HOST_EVT.LINK shows (R274). -/
def linkSleep (p : Nat) (s : State) : State :=
  if (s.link p).state = .l0 then
    (s.modHost (fun h => { h with links := tset (konst PcieLink.reset) h.links p { s.link p with state := .l1 } })).setB (cr 0x38 0x1100) 3
  else s

/-- Every half-edge that an edge's domain serves is DISABLED, as where its EN bits are 0 (R304). -/
def disableEdges (s : State) : State := each (List.range 8) (fun k s => enable (k / 2) 0 (k % 2) s) s

/-- Entry to nap: banks 0–62 in RETENTION, the fabric unconfigured, the half-edges disabled, every domain but M, N and P OFF as soon as Table PWR-1 lets it drain,
the PCIe links in L1, the management core in WFI (Table BOOT-6, R352; log entry 46). -/
def enterNap (s : State) : State :=
  let s1 := disableEdges (each [0, 1] linkSleep (each (List.range 63) (fun b s => bankCmdAct b .retention s) (unconfigure 0xFFFF s)))
  let s2 := (s1.modCore 5 (fun k => { k with run := if k.run = .running then .waiting .wfi else k.run })).modBoot (fun b => { b with nap := true })
  each ((List.range 33).filter (fun d => d != 29 && d != 31 && d != 32)) (fun d s => if s.dom d ≠ 3 ∧ s.mayDrain d then domainOff d s else s) s2

/-- NAP_WAKE: an ICU5 source ends a nap when it is deliverable (R385). -/
def execNapWake (w : NapWake) (s : State) : Out :=
  .next (if w = .icu5 ∧ (s.best 5 (bits (s.core 5).sr.toNat 20 8)).isNone then s else leaveNap s)

/-- Entry to pilot-only sleep: the pilot alone keeps power, RAILS_EN falls, device time is in holdover (Table BOOT-6, R450). -/
def enterPilotSleep (s : State) : State :=
  let s1 := (allOff (keepPilot s)).setF sysState 0 3 stPilot
  (setHold true s1).modBoot (fun b => { b with warn := false, fw := false, rom := false, nap := false, sleep := true, held := none, railsEn := false, wakeN := true })

end Sys2Proof.Machine
end

