-- ==== Sys2Proof/Machine/Bus.lean ====
section
/-! DEFINITION. Control-register pages, and what the target of an access answers (R17, R28–R33). -/
namespace Sys2Proof.Machine

-- Control-register pages (Table SYS-6)

/-- A 32-bit write of a page whose registers take 32 bits at a time. -/
def pageWrite32 (i : Initiator) (p off v : Nat) (s : State) : State :=
  if pageIn p 0x10 5 then seqWrite i (p - 0x10) off v s
  else if pageIn p 0x18 6 then icuWrite i (p - 0x18) off v s
  else if pageIn p 0x20 4 then ctWrite i (p - 0x20) off v s
  else if pageIn p 0x24 4 then mcWrite i (p - 0x24) off v s
  else if pageIn p 0x30 4 then seamWrite i (p - 0x30) off v s
  else if pageIn p 0x100 64 then bankWrite i (p - 0x100) off v s
  else match p with
    | 0 => sysWrite s.boot.env i off v s
    | 1 => pilotWrite i off v s
    | 4 => nvmWrite i off s
    | 5 => errWrite i off v s
    | 8 => powerWrite i off v s
    | 9 => arrWrite i off v s
    | 0x38 => hostWrite i off v s
    | 0x39 => s
    | 0x40 => ringWrite i off v s
    | 0x41 => probeWrite i off v s
    | 0x4c => mgeWrite i off v s
    | 0x4d => canWrite i off v s
    | 0x4e => smbWrite i off v s
    | _ => mgmtWrite i p off v s

/-- A write to registers of a page by an initiator whose write it takes: 64 bits of a 64-bit register, or 32 bits. -/
def pageWriteReg (i : Initiator) (p off n v : Nat) (s : State) : State :=
  match p with
  | 2 => timeWrite i off n v s
  | 3 => secWrite i off n v s
  | 0x34 => srtWrite i off n v s
  | 0x48 => fabWrite i off n v s
  | _ => if n = 8 then pageWrite32 i p (off + 4) (v / 2 ^ 32) (pageWrite32 i p off (v % 2 ^ 32) s) else pageWrite32 i p off v s

/-- A write of n bytes, 4 or 8: an unmapped write where a register it meets does not take it; what falls on no register is discarded (R17, R29). -/
def pageWrite (i : Initiator) (p off n v : Nat) (s : State) : State :=
  if !pageTakes i p off n s then s.reportUnmapped (0x4200000000 + cr p off)
  else if pageIn p 0x1000 8 then (if off % 8 = 0 then wqdb i ((p - 0x1000) * 8192 + off / 8) (if n = 8 then .b8 else .b4) v s else s)
  else if n = 8 ∧ wideAt p off then pageWriteReg i p off 8 v s
  else each (wordsAt p off n) (fun o s => pageWriteReg i p o 4 (if o = off then v % 2 ^ 32 else v / 2 ^ 32) s) s

-- Targets

/-- What the target of a write does. -/
def targetWrite (i : Initiator) (a : Nat) (v : List Byte) (s : State) : RStat × State :=
  if inControl a then
    if ctlOk a v.length then
      let p := (a - 0x4200000000) / 65536
      (if pageTakes i p (a % 65536) v.length s then .ok else .unmapped, pageWrite i p (a % 65536) v.length (ofBytes v) s)
    else (.unmapped, s.reportUnmapped a)
  else devWrite i a v s

end Sys2Proof.Machine
end

