-- ==== Sys2Proof/Machine/Flags.lean ====
section
/-! DEFINITION. Results and flags of the scalar arithmetic: sums, differences, shifts, products, quotients, conditions (R204, R206, R208). -/
namespace Sys2Proof.Machine

/-- A result with its carry and its signed overflow. -/
structure Sum where
  r : Word
  c : Bool
  v : Bool
  deriving DecidableEq, Repr

/-- a + b + ci: the carry out of bit 31, and signed overflow (R206). -/
def addc (a b : Word) (ci : Bool) : Sum :=
  { r := BitVec.ofNat 32 (a.toNat + b.toNat + b2n ci)
    c := decide (2 ^ 32 ≤ a.toNat + b.toNat + b2n ci)
    v := let t := a.toInt + b.toInt + (b2n ci : Int); decide (t < -2147483648 ∨ 2147483647 < t) }

/-- a − b − (1 − ci): C is 1 when no borrow is needed (R206). -/
def subc (a b : Word) (ci : Bool) : Sum :=
  { r := BitVec.ofInt 32 ((a.toNat : Int) - b.toNat - (1 - (b2n ci : Int)))
    c := decide (b.toNat + (1 - b2n ci) ≤ a.toNat)
    v := let t := a.toInt - b.toInt - (1 - (b2n ci : Int)); decide (t < -2147483648 ∨ 2147483647 < t) }

/-- The word with the masked bits taken from v. -/
def mix (old mask v : Word) : Word := (old &&& ~~~mask) ||| (v &&& mask)

/-- N and Z of a result, at SR[1:0]. -/
def nzBits (r : Word) : Word := (if r.msb then 1 else 0) ||| (if r = 0 then 2 else 0)

/-- SR with N and Z of a result. -/
def srNZ (sr r : Word) : Word := mix sr 3 (nzBits r)

/-- SR with N, Z and V. -/
def srNZV (sr r : Word) (v : Bool) : Word := mix sr 0xb (nzBits r ||| (if v then 8 else 0))

/-- SR with N, Z, C and V of a sum or a difference. -/
def srNZCV (sr : Word) (x : Sum) : Word := mix sr 0xf (nzBits x.r ||| (if x.c then 4 else 0) ||| (if x.v then 8 else 0))

/-- SR flags by name. -/
def srN (sr : Word) : Bool := sr.getLsbD 0
@[inherit_doc srN] def srZ (sr : Word) : Bool := sr.getLsbD 1
@[inherit_doc srN] def srC (sr : Word) : Bool := sr.getLsbD 2
@[inherit_doc srN] def srV (sr : Word) : Bool := sr.getLsbD 3

/-- Shifts and rotates, in the order of SHIFTI's selector (Table DCY-8). -/
inductive ShiftOp where
  | shl | shr | sar | sal | rol | ror
  deriving DecidableEq, Repr

/-- The shift that a selector names. -/
def ShiftOp.ofSel (n : Nat) : ShiftOp := [ShiftOp.shl, .shr, .sar, .sal, .rol, .ror].getD n .ror

/-- A shift's result; the count is never masked, and every count of 32 or more shifts as 32 does; a rotate takes it modulo 32 (R208, Table
DCY-9). -/
def shiftRes (op : ShiftOp) (x : Word) (n : Nat) : Word :=
  match op with
  | .shl => x <<< min n 32
  | .sal => x <<< min n 32
  | .shr => x >>> min n 32
  | .sar => x.sshiftRight (min n 32)
  | .rol => x.rotateLeft (n % 32)
  | .ror => x.rotateRight (n % 32)

/-- V of SAL: one of the min(count, 32) bits shifted out differs from bit 31 of the result (Table DCY-9). -/
def salV (x : Word) (n : Nat) : Bool := (List.range (min n 32)).any (fun i => x.getLsbD (31 - i) != (x <<< min n 32).msb)

/-- SR after a shift: N and Z, and V for SAL. -/
def shiftSr (op : ShiftOp) (sr x : Word) (n : Nat) : Word :=
  if op = .sal then srNZV sr (shiftRes op x n) (salV x n) else srNZ sr (shiftRes op x n)

/-- The product of a multiply (R205). -/
def product (sgn : Bool) (a b : Word) : Dword :=
  if sgn then BitVec.ofInt 64 (a.toInt * b.toInt) else BitVec.ofNat 64 (a.toNat * b.toNat)

/-- The results of a divide issued at offset off (Table DCY-9). -/
def divide (sgn : Bool) (a b off : Word) : DivFlight :=
  if b = 0 then ⟨0xffffffff, a, true, false, off⟩
  else if sgn then
    if a = 0x80000000 ∧ b = 0xffffffff then ⟨0x80000000, 0, false, true, off⟩
    else ⟨BitVec.ofInt 32 (a.toInt.tdiv b.toInt), BitVec.ofInt 32 (a.toInt.tmod b.toInt), false, false, off⟩
  else ⟨a / b, a % b, false, false, off⟩

/-- The predicate of a condition code 0–7 (Table DCY-6). -/
def predicate (k : Nat) (sr : Word) : Bool :=
  match k with
  | 0 => srZ sr
  | 1 => srC sr
  | 2 => srN sr
  | 3 => srV sr
  | 4 => srC sr && !srZ sr
  | 5 => srN sr != srV sr
  | 6 => srZ sr || srN sr != srV sr
  | _ => sr.getLsbD 10

/-- A condition: codes 0x8–0xE invert the predicate of bits [2:0], and 0xF always holds (R204). -/
def cond (k : Nat) (sr : Word) : Bool := if k = 15 then true else if 8 ≤ k then !predicate (k - 8) sr else predicate k sr

/-- Fields of SR that MTS and POPS write (SEQs_SR). -/
def srWritable : Word := 0x0ff0079f

/-- Fields that RETI restores: those, and REPA (R217). -/
def srRestored : Word := 0x0ff00f9f

end Sys2Proof.Machine
end

