-- ==== Sys2Proof/Machine/RingPkt.lean ====
section
/-! DEFINITION. Delivery of ring packets, wake buffers, isolation, retries, and the accesses of cores carried to their end (R260–R265, R270, R271). -/
namespace Sys2Proof.Machine

/-- The targets of the ring, control pages among them. -/
def targets : Target := ⟨targetRead, targetWrite⟩

/-- A packet reaches its port (R260, R265). -/
def deliver (p : Packet) (s : State) : State := deliverTo targets p s

/-- An earlier packet of the same ports, network and VC class is not yet in the destination's hands (R262). -/
def State.behind (s : State) (p : Packet) : Bool :=
  (s.before p).any (fun x => p.sameWay x && (x.stage == .waiting || x.stage == .flying || x.stage == .cut || x.stage == .parked))

/-- A packet that waits before a full wake buffer holds its VC on the ring input against the packets behind it, not against those that
its stop injects (R264). -/
def State.blocked (s : State) (p : Packet) : Bool :=
  (s.before p).any (fun x => x.stage == .parked && x.net == p.net && x.ring == p.ring && !p.local_ && p.sstop != x.dstop
    && (x.dstop == p.dstop || (pathSegs (netIdx p.net) p.ring p.sstop.val p.dstop.val).contains x.dstop.val) && p.vcAt x.dstop.val == x.vc
    && (match x.domain with | some d => !s.domUp d | none => false))

/-- The tail of the packet can reach its destination now. -/
def State.arrives (s : State) (p : Packet) : Bool :=
  p.left == 0 && (p.stage == .held || ((p.stage == .flying || p.stage == .parked) && !s.behind p && !s.blocked p))

/-- The packets held in the wake buffer of p's port, on its network and VC. -/
def State.heldWith (s : State) (p : Packet) : List Packet :=
  s.packets.filter (fun x => x.stage == .held && x.dstop == p.dstop && x.dport == p.dport && x.net == p.net && x.vc == p.vc)

/-- A packet that meets an isolated bridge is ejected into the wake buffer, or waits at the stop when the buffer's VC is full (R264, R272). -/
def hold (p : Packet) (s : State) : State :=
  if p.stage = .held then s
  else if 8 ≤ (s.heldWith p).length then setPacket { p with stage := .parked } s
  else probe false p (acknowledge p { s with packets := s.packets.filter (·.tag != p.tag) ++ [{ p with stage := .held }] })

/-- A packet at a port whose domain is up: what the port's wake buffer still holds on its VC goes first (R264). -/
def reach (p : Packet) (s : State) : State :=
  let s1 := each (s.heldWith p) deliver s
  if p.stage = .held then s1 else deliver p s1

/-- The drain of a domain is complete but for a packet that arrives: its condition holds and no request of it is open (R264, Table PWR-1). -/
def State.drained (s : State) (d : Nat) (p : Packet) : Bool := (dropPacket p.tag s).mayDrain d && !(dropPacket p.tag s).outstanding d

/-- A tail reaches its destination: delivered, a gated clock resuming; held while the domain sleeps, which it wakes; or, while the domain drains, it aborts the
power-down before the point of no return, which comes with the end of the drain: a race that the spec leaves open (R260, R264, R265, R351). -/
def eject (p : Packet) (s : State) : State :=
  if !s.arrives p then s
  else if s.isolated p.dstop.val p.dport ∧ p.op.isSome then deliver p s
  else match p.bridge with
    | none => deliver p s
    | some d =>
      if s.dom d ≤ 1 then reach p (when (s.dom d == 1) (setDom d 0) s)
      else if s.dom d = 2 then
        if s.pnr d ≠ 0 then hold p (setPnr d 2 s)
        else if !s.drained d p then reach p (setDom d 0 s)
        else if Config.raceFirst s.free then reach p (setDom d 0 s.draw)
        else hold p (setPnr d 2 s.draw)
      else hold p (wakeDomain d s)

/-- PACKET_EJECTION. -/
def execPacketEjection (tag : Nat) (s : State) : Out :=
  let s1 := pump s
  match s1.packet tag with
  | none => .next s1
  | some p => .next (eject p s1)

/-- The packet of the list that a condition picks is ejected. -/
def ejectThe (c : Packet → Bool) (s : State) : State :=
  let s1 := pump s
  match s1.packets.find? c with
  | none => s1
  | some p => eject p s1

/-- SNOOP: a snoop of a line reaches its agent (R271). -/
def execSnoop (c : CoreId) (a : BitVec 40) (s : State) : Out :=
  .next (ejectThe (fun p => p.addr.toNat / 64 == a.toNat / 64 && p.init == .core c && (p.cargo == .snoop true || p.cargo == .snoop false)) s)

/-- SNOOP_RESPONSE: an agent's snoop response reaches the home of the line (R271). -/
def execSnoopResponse (c : CoreId) (a : BitVec 40) (s : State) : Out :=
  .next (ejectThe (fun p => p.addr.toNat / 64 == a.toNat / 64 && p.init == .core c && p.cargo == .snoopRsp) s)

/-- RETRY_NOTICE: the RETRY for a cut packet reaches its source, which sends the packet again once its stop has switched; after 4 resends the transaction
ends (R270). -/
def execRetryNotice (tag : Nat) (s : State) : Out := .next (ejectThe (fun p => p.cargo == .retry && p.ref == tag) s)

/-- DOMAIN_WAKE_COMPLETE: a waking domain is ON; held packets are delivered, and a load that waited for F starts (R36, R264, R340, R351). -/
def execDomainWakeComplete (d : DomId) (s : State) : Out :=
  if s.dom d.val ≠ 4 then .next s
  else
    let s1 := deliverBuffer deliver d.val (wakeDone d.val s)
    .next (if d.val = 30 then kickLoader (s1.fab.waiting.length + 1) s1 else s1)

/-- ISOLATION_TIMEOUT: a delivered request was not answered in ISOTO µs: its port is isolated, and its stop answers (R265). -/
def execIsolationTimeout (tag : Nat) (s : State) : Out :=
  match s.packet tag with
  | none => .next s
  | some p =>
    if p.posted || p.stage != .served || p.answered || (match p.bridge with | some d => !s.domUp d | none => false) then .next s
    else
      .next (answer p .targetIsolated p.zeros (isolatePort p.dstop.val p.dport p.tag s))

-- Accesses of cores and of firmware within one command

/-- The size of an access of n bytes. -/
def narrowOp (n : Nat) (v : Option (List Byte)) : RingOp :=
  match v with
  | none => .rd (chunkSize n)
  | some d => .wr (chunkSize n) (BitVec.ofNat 64 (ofBytes d))

/-- A read carried from its initiator to its end. -/
def busRead (i : Initiator) (a n : Nat) (s : State) : RStat × List Byte × State := carry deliver (sourcePort i) i a n (narrowOp n none) (targetRead i a n) s

/-- A write carried to its end. -/
def busWrite (i : Initiator) (a : Nat) (v : List Byte) (s : State) : RStat × State :=
  let x := carry deliver (sourcePort i) i a v.length (narrowOp v.length (some v)) (fun s => let x := targetWrite i a v s; (x.1, [], x.2)) s
  (x.1, x.2.2)

/-- The copies that a miss of agent c snoops are taken back (R271). -/
def takeBack (c : CoreId) (l : Nat) (write : Bool) (s : State) : State := each (agentsOf (s.snoops l c write)) (snoopNow l write) s

/-- The request that agent c makes for a line that it does not hold as it needs it: RDS for a load, RDX for a store, UPG where it holds a copy (R271). -/
def State.missOp (s : State) (c : CoreId) (l : Nat) (write : Bool) : RingOp :=
  if !write then .rds else if (s.dline l).holders.getLsbD c.val then .upg else .rdx

/-- The home of line l takes back the other copies, a dirty one of which replaces the line in the stack, and grants it to agent c, or answers that it cannot be read
(R142, R271). -/
def missServe (c : CoreId) (l : Nat) (write : Bool) (s : State) : RStat × List Byte × State :=
  let t := takeBack c l write s
  let x := if s.missOp c l write = .upg then (RStat.ok, [], t) else stagingRead (l * 64) 64 t
  (x.1, [], if x.1 = .ok then holdLine l c write x.2.2 else x.2.2)

/-- A miss of core c is carried to the home of the line and back (R145, R271). -/
def acquire (c : CoreId) (l : Nat) (write : Bool) (s : State) : RStat × State :=
  let x := carry deliver (sourcePort (.core c)) (.core c) (l * 64) 64 (s.missOp c l write) (missServe c l write) s
  (x.1, x.2.2)

/-- The request of an alias access: SIZE is the smallest that holds its bytes (log entry 43). -/
def aliasOp (n : Nat) (write : Option Dword) : RingOp :=
  let z : Size := if n ≤ 1 then .b1 else if n ≤ 2 then .b2 else if n ≤ 4 then .b4 else .b8
  match write with | none => .rd z | some v => .wr z v

/-- ROTATE_ALIAS_ACCESS (R251): an access over the ring; another size is unmapped. -/
def execRotateAliasAccess (i : Initiator) (a : BitVec 22) (n : Fin 9) (write : Option Dword) (s : State) : Out :=
  let at_ := 0x4080000000 + a.toNat
  if !s.issues i ∨ !s.passes (sourcePort i) false at_ then .next s
  else if n.val = 0 then .next (respond i 0 .unmapped [] (s.reportUnmapped at_))
  else
    let f := fun (s : State) => let x := aliasRw i a.toNat n.val (write.map (·.toNat)) s; (x.status, if write.isSome then [] else toBytes n.val x.word, x.st)
    let y := carry deliver (sourcePort i) i at_ n.val (aliasOp n.val write) f s
    .next (respond i 0 y.1 y.2.1 y.2.2)

/-- OWNER_WRITE: the write reaches its bank's page over the ring (R244–R246, R265, R267). -/
def execOwnerWrite (i : Initiator) (b : BankId) (v : Word) (s : State) : Out :=
  let at_ := 0x4200000000 + bk b.val 0
  if !s.issues i ∨ !s.passes (sourcePort i) false at_ then .next s
  else
    let x := busWrite i at_ (toBytes 4 v.toNat) s
    .next (respond i 0 x.1 [] x.2)

/-- REGISTER_WRITE: a write of a control register, with its response (R15–R17, R32). -/
def execRegisterWrite (i : Initiator) (a : BitVec 40) (size : Size) (v : Dword) (s : State) : Out :=
  if inControl a.toNat ∧ s.passes (sourcePort i) false a.toNat ∧ s.issues i then
    let x := busWrite i a.toNat (toBytes size.bytes v.toNat) s
    .next (respond i 0 x.1 [] x.2)
  else .next s

end Sys2Proof.Machine
end

