-- ==== Sys2Proof/Machine/Operands.lean ====
section
/-! DEFINITION. Operand forms of the scalar core: registers, immediates, special-register selectors, and accesses through segments
(R193, R194, R197, R210–R215). -/
namespace Sys2Proof.Machine

/-- A general register; g0 reads 0 (R193). -/
def Core.reg (k : Core) (r : Reg) : Word := if r = 0 then 0 else tget (konst 0) k.g r.val

/-- A general register written; a write to g0 is discarded (R193). -/
def Core.setReg (k : Core) (r : Reg) (v : Word) : Core := if r = 0 then k else { k with g := tset (konst 0) k.g r.val v }

/-- The value of an immediate, sign-extended. -/
def immVal : Imm → Word
  | .i6 v => v.signExtend 32
  | .i16 v => v.signExtend 32

/-- Length of the instruction that holds an immediate. -/
def immLen : Imm → Nat
  | .i6 _ => 2
  | .i16 _ => 4

/-- A branch offset in bytes: twice its sign-extended parcels (Table DCY-5). -/
def parcels {w : Nat} (off : BitVec w) : Word := 2 * off.signExtend 32

/-- A segment of a core. -/
def Core.seg (k : Core) : Seg → Segment
  | .cs => k.cs | .ds => k.ds | .ss => k.ss | .xs => k.xs

/-- The subcode of a segment (R210). -/
def segCode : Seg → Nat
  | .cs => 0 | .ds => 1 | .ss => 2 | .xs => 3

/-- The rights an access needs (R210). -/
inductive Right where
  | read | write | fetch
  deriving DecidableEq, Repr

/-- The check of an access of n bytes at offset o (R210). -/
def segPasses (g : Segment) (r : Right) (o n : Nat) : Bool :=
  decide (o + n ≤ g.lim.toNat) && decide (g.base.toNat + o + n ≤ 2 ^ 40)
    && (match r with | .read => g.r | .write => g.w | .fetch => g.x)

/-- What an access gives: a value, an exception (vector, subcode, INFO), or a wait for a domain that cannot be woken or for a
token that never comes. -/
inductive Access where
  | ok (v : Nat) (s : State)
  | exc (vec sub info : Nat) (s : State)
  | stuck

/-- Core c has the line of an address in its cache, in any state for a load, in E or M for a store; the directory lists lines of staging memory alone (R271). -/
def State.cached (s : State) (c : CoreId) (a : Nat) (write : Bool) : Bool :=
  let d := s.dline (a / 64)
  d.holders.getLsbD c.val && (!write || d.excl)

/-- A read by core c: from its cache, which a miss in staging memory fills first, or over the ring (R145, R271). -/
def coreRead (c : CoreId) (a n : Nat) (s : State) : RStat × List Byte × State :=
  if s.cached c a false then (.ok, s.bytes a n, s)
  else if a < stagingEnd then
    let x := acquire c (a / 64) false s
    (x.1, if x.1 = .ok then x.2.bytes a n else List.replicate n 0, x.2)
  else busRead (.core c) a n s

/-- A store by core c: into its cache, which owns the line, or over the ring. -/
def coreWrite (c : CoreId) (a : Nat) (v : List Byte) (s : State) : RStat × State :=
  if s.cached c a true then (.ok, (soil (a / 64) s).setBytes a v)
  else if a < stagingEnd then
    let x := acquire c (a / 64) true s
    (x.1, if x.1 = .ok then x.2.setBytes a v else x.2)
  else busWrite (.core c) a v s

/-- The end of an access: its value, or the bus error with the ring status (R212). -/
def accessEnd (o : Nat) (st : RStat) (v : Nat) (s : State) : Access := if st = .ok then .ok v s else .exc 6 st.code o s

/-- A load of n bytes at offset o of a segment: segment, alignment, then the access (R210–R212). -/
def loadAt (c : CoreId) (g : Seg) (o : Word) (n : Nat) (s : State) : Access :=
  let x := (s.core c).seg g
  let a := x.base.toNat + o.toNat
  if !segPasses x .read o.toNat n then .exc 3 (segCode g) o.toNat s
  else if a % n ≠ 0 then .exc 5 0 o.toNat s
  else if !s.cached c a false && !s.passes (sourcePort (.core c)) false a then .stuck
  else let r := coreRead c a n s; accessEnd o.toNat r.1 (ofBytes r.2.1) r.2.2

/-- A parcel of CS at an offset, from the cache or over the ring, or its bus error (R202, R212). -/
def fetchParcel (c : CoreId) (o : Word) (s : State) : Access :=
  let a := (s.core c).cs.base.toNat + o.toNat
  if !s.cached c a false && !s.passes (sourcePort (.core c)) false a then .stuck
  else let r := coreRead c a 2 s; accessEnd o.toNat r.1 (ofBytes r.2.1) r.2.2

/-- n parcels fetched in order, for an instruction that a command names (log entry 5). -/
def fetchAll (c : CoreId) : Nat → Word → State → Access
  | 0, _, s => .ok 0 s
  | n + 1, o, s => match fetchParcel c o s with
    | .ok _ t => fetchAll c n (o + 2) t
    | r => r

/-- Core c holds in its cache the code of an instruction of len bytes at an offset of CS. -/
def State.holdsCode (s : State) (c : CoreId) (o : Word) (len : Nat) : Bool :=
  (List.range (len / 2)).all (fun i => s.cached c ((s.core c).cs.base.toNat + (o + BitVec.ofNat 32 (2 * i)).toNat) false)

/-- A store of the low n bytes of v. -/
def storeAt (c : CoreId) (g : Seg) (o : Word) (n v : Nat) (s : State) : Access :=
  let x := (s.core c).seg g
  let a := x.base.toNat + o.toNat
  if !segPasses x .write o.toNat n then .exc 3 (segCode g) o.toNat s
  else if a % n ≠ 0 then .exc 5 0 o.toNat s
  else if !s.cached c a true && !s.passes (sourcePort (.core c)) false a then .stuck
  else let r := coreWrite c a (toBytes n v) s; accessEnd o.toNat r.1 0 r.2

/-- The core still runs the instruction that made an access: a store that reset the device or the core ends it. -/
def State.alive (s : State) (c : CoreId) : Bool := (s.core c).run == .running && (s.core c).started

/-- A word pushed: SP falls by 4 once the store has passed (R215). -/
def pushWord (c : CoreId) (v : Nat) (s : State) : Access :=
  let o := (s.core c).sp - 4
  match storeAt c .ss o 4 v s with
  | .ok _ t => .ok 0 (if t.alive c then t.modCore c (fun k => { k with sp := o }) else t)
  | r => r

/-- A word popped; the caller moves SP (R215). -/
def peekWord (c : CoreId) (s : State) : Access := loadAt c .ss (s.core c).sp 4 s

/-- Offset, size, segment and destination registers of an LD or ST operand (R210). -/
def memOffset (a : MemOperand) (k : Core) : Word :=
  match a with
  | .cr r => k.reg r
  | .m _ _ b d => k.reg b + d.signExtend 32
@[inherit_doc memOffset] def memSize : MemOperand → Nat
  | .cr _ => 4
  | .m z _ _ _ => z.bytes
@[inherit_doc memOffset] def memSeg : MemOperand → Seg
  | .cr _ => .ds
  | .m _ g _ _ => g
/-- Length of the instruction. -/
def memLen : MemOperand → Nat
  | .cr _ => 2
  | .m _ _ _ _ => 4

-- Special registers (Table DCY-2)

/-- What a selector names. -/
inductive SReg where
  | sr | rc | sp | vb | pc | ri | plo | phi | quo | rem | wlo | whi | tlo | thi | f
  | segBase (g : Seg) | segLim (g : Seg) | segExt (g : Seg)
  | asBase | asLim | asExt
  /-- word w of BKEYk (0, 1) or BCAREk (2, 3) -/
  | key (k w : Nat)
  deriving DecidableEq, Repr

/-- The register of a selector; none where Table DCY-2 lists none. -/
def sregOf (n : Nat) : Option SReg :=
  match n with
  | 0x000 => some .sr
  | 0x001 => some .rc
  | 0x002 => some .sp
  | 0x003 => some .vb
  | 0x004 => some .pc
  | 0x005 => some .ri
  | 0x010 => some .plo
  | 0x011 => some .phi
  | 0x012 => some .quo
  | 0x013 => some .rem
  | 0x014 => some .wlo
  | 0x015 => some .whi
  | 0x016 => some .tlo
  | 0x017 => some .thi
  | 0x018 => some .f
  | 0x020 => some (.segBase .cs)
  | 0x021 => some (.segLim .cs)
  | 0x022 => some (.segExt .cs)
  | 0x024 => some (.segBase .ds)
  | 0x025 => some (.segLim .ds)
  | 0x026 => some (.segExt .ds)
  | 0x028 => some (.segBase .ss)
  | 0x029 => some (.segLim .ss)
  | 0x02a => some (.segExt .ss)
  | 0x02c => some (.segBase .xs)
  | 0x02d => some (.segLim .xs)
  | 0x02e => some (.segExt .xs)
  | 0x030 => some .asBase
  | 0x031 => some .asLim
  | 0x032 => some .asExt
  | n => if 0x040 ≤ n ∧ n < 0x060 then some (.key ((n - 0x40) / 4) ((n - 0x40) % 4)) else none

/-- Read-only through MTS and POPS. -/
def SReg.readOnly : SReg → Bool
  | .pc | .wlo | .whi | .tlo | .thi | .f => true
  | _ => false

/-- Registers that the management core does not have (R192). -/
def SReg.arrayOnly : SReg → Bool
  | .wlo | .whi | .tlo | .thi | .f | .asBase | .asLim | .asExt | .key _ _ => true
  | _ => false

/-- The SEQs_SLOCK bit of a register (R214). -/
def SReg.lockBit : SReg → Option Nat
  | .segBase g | .segLim g | .segExt g => some (segCode g)
  | .asBase | .asLim | .asExt => some 4
  | .vb => some 5
  | _ => none

/-- The register of a selector on core c. -/
def selOf (c : CoreId) (sel : BitVec 12) : Option SReg := (sregOf sel.toNat).filter (fun r => !(c == 5 && r.arrayOnly))

/-- The same for MTS and POPS. -/
def selWritable (c : CoreId) (sel : BitVec 12) : Option SReg := (selOf c sel).filter (fun r => !r.readOnly)

/-- A register locked against MTS and POPS; the management core has no SLOCK. -/
def State.locked (s : State) (c : CoreId) (r : SReg) : Bool :=
  match r.lockBit with
  | some b => c != 5 && s.bit (sq c.val 0x20) b
  | none => false

/-- The rights of a segment, at EXT[2:0]. -/
def Segment.ext (g : Segment) : Nat := b2n g.r + 2 * b2n g.w + 4 * b2n g.x + 256 * bits g.lim.toNat 32 1 + 65536 * (g.base.toNat / 2 ^ 32)

/-- A segment register replaced. -/
def Core.setSeg (k : Core) (g : Seg) (v : Segment) : Core :=
  match g with
  | .cs => { k with cs := v } | .ds => { k with ds := v } | .ss => { k with ss := v } | .xs => { k with xs := v }

/-- The value of a special register; the low member of a pair captures the high one, which is then read from the hold (R197).
`sr` is SEQs_SR with its computed bits, `off` the offset of the instruction. -/
def Core.readS (k : Core) (r : SReg) (sr off : Word) : Word × Core :=
  match r with
  | .sr => (sr, k)
  | .rc => (k.rc, k)
  | .sp => (k.sp, k)
  | .vb => (k.vb, k)
  | .pc => (off, k)
  | .ri => (k.ri, k)
  | .plo => (k.plo, { k with holdP := k.phi })
  | .phi => (k.holdP, k)
  | .quo => (k.quo, { k with holdQR := k.rem })
  | .rem => (k.holdQR, k)
  | .wlo => (k.w.setWidth 32, { k with holdW := (k.w >>> 32).setWidth 32 })
  | .whi => (k.holdW, k)
  | .tlo => (k.t.setWidth 32, { k with holdT := (k.t >>> 32).setWidth 32 })
  | .thi => (k.holdT, k)
  | .f => (k.f, k)
  | .segBase g => ((k.seg g).base.setWidth 32, k)
  | .segLim g => ((k.seg g).lim.setWidth 32, k)
  | .segExt g => (BitVec.ofNat 32 (k.seg g).ext, k)
  | .asBase => (k.asBase.setWidth 32, k)
  | .asLim => (k.asLim.setWidth 32, k)
  | .asExt => (BitVec.ofNat 32 (b2n k.asR + 2 * b2n k.asW), k)
  | .key i w =>
    let d : Dword := if w < 2 then tget (konst 0) k.bkey i else tget (konst 0) k.bcare i
    ((if w % 2 = 0 then d else d >>> 32).setWidth 32, k)

/-- A double-word with its low or high half replaced. -/
def setHalfWord (d : Dword) (hi : Bool) (v : Word) : Dword :=
  if hi then (v.setWidth 64 <<< 32) ||| (d.setWidth 32).setWidth 64 else ((d >>> 32) <<< 32) ||| v.setWidth 64

/-- A special register written (Tables DCY-1, DCY-2): bits without a meaning are ignored. -/
def Core.writeS (k : Core) (r : SReg) (v : Word) : Core :=
  match r with
  | .sr => { k with sr := mix k.sr srWritable v }
  | .rc => { k with rc := v }
  | .sp => { k with sp := v }
  | .vb => { k with vb := v &&& ~~~0xf }
  | .ri => { k with ri := v }
  | .plo => { k with plo := v }
  | .phi => { k with phi := v }
  | .quo => { k with quo := v }
  | .rem => { k with rem := v }
  | .segBase g => k.setSeg g { k.seg g with base := ((k.seg g).base >>> 32 <<< 32) ||| v.setWidth 40 }
  | .segLim g => k.setSeg g { k.seg g with lim := ((k.seg g).lim >>> 32 <<< 32) ||| v.setWidth 33 }
  | .segExt g =>
    let s := k.seg g
    k.setSeg g { base := ((v >>> 16 &&& 0xff).setWidth 40 <<< 32) ||| (s.base.setWidth 32).setWidth 40
                 lim := ((v >>> 8 &&& 1).setWidth 33 <<< 32) ||| (s.lim.setWidth 32).setWidth 33
                 r := v.getLsbD 0, w := v.getLsbD 1, x := v.getLsbD 2 }
  | .asBase => { k with asBase := v.setWidth 12 }
  | .asLim => { k with asLim := v.setWidth 13 }
  | .asExt => { k with asR := v.getLsbD 0, asW := v.getLsbD 1 }
  | .key i w =>
    if w < 2 then { k with bkey := tset (konst 0) k.bkey i (setHalfWord (tget (konst 0) k.bkey i) (w % 2 == 1) v) }
    else { k with bcare := tset (konst 0) k.bcare i (setHalfWord (tget (konst 0) k.bcare i) (w % 2 == 1) v) }
  | .pc | .wlo | .whi | .tlo | .thi | .f => k

end Sys2Proof.Machine
end

