-- ==== Sys2Proof/Machine/Entry.lean ====
section
/-! DEFINITION. Entry for exceptions, interrupts and machine checks, double faults, and RETI (R209, R216–R218, R231–R236). -/
namespace Sys2Proof.Machine

/-- The domain of a core (Table PWR-1). -/
def coreDomain (c : CoreId) : Nat := if c = 5 then 32 else 16 + c.val

/-- Core c executes: released, not waiting, its domain delivering service. -/
def State.executes (s : State) (c : CoreId) : Bool := (s.core c).run == .running && s.domUp (coreDomain c)

/-- The core's PC replaced. -/
def setPc (c : CoreId) (pc : Word) (s : State) : State := s.modCore c (fun k => { k with pc := pc })

/-- The outcome of a run of pushes: done, the index of the word whose push failed, or a wait. -/
inductive Pushed where
  | ok (s : State)
  | failed (i : Nat) (s : State)
  | stuck

/-- Words pushed in order; `i` counts them. -/
def pushAll (c : CoreId) : Nat → List Nat → State → Pushed
  | _, [], s => .ok s
  | i, v :: vs, s => match pushWord c v s with
    | .ok _ t => pushAll c (i + 1) vs t
    | .exc _ _ _ t => .failed i t
    | .stuck => .stuck

/-- A double fault on frame word i: the core halts, CSTAT and DFSP are set, a machine check is raised, and firmware may declare the sequencer
failed (R218, R236, R433). -/
def doubleFault (c : CoreId) (i : Nat) (s : State) : State :=
  let sp := (s.core c).sp
  let s1 := (s.modCore c (fun k => { k with run := .halted, rep := none })).machineCheck (BitVec.ofNat 64 (2 * 2 ^ 60 + c.val * 2 ^ 56))
  if c = 5 then s1
  else
    let q := c.val
    let s2 := (((s1.setB (sq q 0x38) 30).setF (sq q 0x38) 0 2 i).setR32 (sq q 0x3c) sp.toNat).modCore c (fun k =>
      { k with dfTimes := s.ran :: k.dfTimes.filter (fun t => decide (s.ran < t + 3600000000000)) })
    if s.fld (cr 7 0x18) 0 4 ≤ (s2.core c).dfTimes.length ∧ s.boot.fw then declareFailed q s2 else s2

/-- Step 6 of entry for an exception (R216). -/
def enterAt (c : CoreId) (vec : Nat) (sr : Word → Word) (s : State) : State :=
  s.modCore c (fun k => { k with pc := k.vb + BitVec.ofNat 32 (16 * vec), sr := sr k.sr, run := .running, rep := none })

/-- SR with IE and REPA at 0. -/
def srExc (sr : Word) : Word := sr &&& ~~~0x880

/-- The program whose end an exception of core c is, if any: its partition (R289). -/
def State.programOf (s : State) (c : CoreId) : Option Nat :=
  if c = 5 then none
  else match s.drives c.val with
    | some p => match s.prog p with
      | some g => if g.taken && g.ended.isNone then some p else none
      | none => none
    | none => none

/-- How an exception ends a program: TRAP 0x000 successfully, any other with PROGRAM_FAULT (R289). -/
def endsProgram (c : CoreId) (vec sub info : Nat) (s : State) : State :=
  match s.programOf c with
  | some p => if vec = 9 ∧ info = 0 then endProgram p 0 0 0 s else endProgram p 12 (vec * 2 ^ 24 + sub * 2 ^ 16) info s
  | none => s

/-- Taking an exception (R216): the frame is pushed, SR changed, and the handler follows at VB + 16 × vector. `pc` is the saved PC. -/
def takeException (c : CoreId) (vec sub info : Nat) (pc : Word) (s : State) : State :=
  let s0 := s.modCore c (fun k => { k with run := .running })
  match pushAll c 0 [pc.toNat, s.srOf c.val, vec * 2 ^ 24 + sub * 2 ^ 16, info] s0 with
  | .ok t => endsProgram c vec sub info (enterAt c vec srExc t)
  | .failed i t => doubleFault c i t
  | .stuck => s

/-- Divides' traps are taken at an instruction boundary outside REPN iterations, oldest first: the next one before the handler's first instruction (R209). -/
def takeTrap (c : CoreId) (s : State) : State :=
  each (s.core c).traps (fun x s =>
    let k := s.core c
    if k.run = .running ∧ k.rep.isNone then takeException c x.1 0 x.2.toNat k.pc (s.modCore c (fun k => { k with traps := k.traps.tail })) else s) s

/-- At an entry's boundary a divide's trap comes first: a core that waits leaves the instruction not yet begun (R198, R201, R209). -/
def trapFirst (c : CoreId) (entry : State → State) (s : State) : State :=
  if (s.core c).traps = [] then entry s else takeTrap c (s.modCore c (fun k => { k with run := .running, rep := none }))

/-- A claim at ICUc against level pl: CAUSE[9:0], INFO, and the state (R231). -/
def claim (c : CoreId) (pl : Nat) (s : State) : Nat × Nat × State :=
  let n := c.val
  match s.best n pl with
  | some j =>
    let cnt := if s.isEdge n j then s.icuCount n j else 0
    let info := b2n (decide (s.coalN n j ≤ s.icuCount n j)) * 2 ^ 24 + s.fld (icuCfg n j) 0 8 * 2 ^ 8 + cnt
    (j, info, s.icuStep n j { clm := true })
  | none => (1023, 0, s.incF (icu n 0x18) 0 16 1)

/-- SR at step 6 of an interrupt with source j (R232). -/
def srIrq (s : State) (c : CoreId) (j : Nat) (sr : Word) : Word :=
  if j = 1023 then srExc sr else BitVec.ofNat 32 (setBits (setBits sr.toNat 20 8 (s.level c.val j)) 11 1 0)

/-- Entry for an interrupt: PC and SR are pushed, the claim is made, CAUSE and INFO are pushed (R216, R231–R234). -/
def takeInterrupt (c : CoreId) (s : State) : State :=
  let k := s.core c
  let s0 := s.modCore c (fun k => { k with run := .running, rep := none })
  match pushAll c 0 [k.pc.toNat, s.srOf c.val] s0 with
  | .ok t =>
    let x := claim c (bits (t.core c).sr.toNat 20 8) t
    (match pushAll c 2 [16 * 2 ^ 24 + x.1, x.2.1] x.2.2 with
      | .ok u => enterAt c 16 (srIrq u c x.1) u
      | .failed i u => doubleFault c i u
      | .stuck => s)
  | .failed i t => doubleFault c i t
  | .stuck => s

/-- A core would take an interrupt here: at an instruction boundary, or waiting in SYNC, a divider stall or a push stall, never under REPN
(R198, R201, R220, R221). WFI completes first (R205). -/
def Core.interruptible (k : Core) : Bool := k.atPoint && k.run != .waiting .wfi

/-- The machine-check queue holds a record and no machine check is in progress (R236). -/
def State.mcPending (s : State) : Bool := s.mcq != [] && !s.bit (icu 5 0x28) 30

/-- IE = 1 and a source is deliverable to core c (R228, R231). -/
def State.interruptDue (s : State) (c : CoreId) : Bool :=
  (s.core c).sr.getLsbD 7 && (s.best c.val (bits (s.core c).sr.toNat 20 8)).isSome

/-- INTERRUPT_ENTRY: IE = 1 and a source is deliverable; a divide's trap, and on the management core a machine check, come first. -/
def execInterruptEntry (c : CoreId) (s : State) : Out :=
  let k := s.core c
  if k.interruptible ∧ s.domUp (coreDomain c) ∧ s.interruptDue c ∧ ¬ (c = 5 ∧ s.mcPending) then
    .next (trapFirst c (takeInterrupt c) s)
  else .next s

/-- SR at step 6 of a machine check: IE and REPA at 0, PL unchanged (R236). -/
def takeMachineCheck (s : State) : State :=
  let c : CoreId := 5
  let r := (s.mcq.headD 0).toNat
  let info := bits r 60 4 * 2 ^ 28 + bits r 56 3 * 2 ^ 24 + s.mcq.length * 2 ^ 16
  let s0 := s.modCore c (fun k => { k with run := .running, rep := none })
  match pushAll c 0 [(s.core c).pc.toNat, s.srOf c.val, 16 * 2 ^ 24 + 1022, info] s0 with
  | .ok t => (enterAt c 16 srExc t).setB (icu 5 0x28) 30
  | .failed i t => doubleFault c i t
  | .stuck => s

/-- MACHINE_CHECK_ENTRY: whatever IE and PL hold, also while the core waits in WFI (R236). -/
def execMachineCheckEntry (s : State) : Out :=
  let k := s.core 5
  if k.atPoint ∧ s.domUp 32 ∧ s.mcPending then
    .next (trapFirst 5 takeMachineCheck s)
  else .next s

-- RETI (R217, R235)

/-- A read of frame word i: 0 INFO, 1 CAUSE, 2 SR, 3 PC. -/
def frameWord (c : CoreId) (i : Nat) (s : State) : Access := loadAt c .ss ((s.core c).sp + BitVec.ofNat 32 (4 * i)) 4 s

/-- SR as RETI restores it: AX is the frame's or the current one (R217). -/
def srBack (frame cur : Word) : Word := (frame &&& srRestored) ||| (cur &&& 0x400)

/-- Step x1: the source of an interrupt frame completes where it is ACTIVE; 1,022 ends the machine check (R235, R236). -/
def completeFrame (c : CoreId) (cause : Nat) (s : State) : State :=
  let j := cause % 1024
  if cause / 2 ^ 24 ≠ 16 then s
  else if j = 1022 then (if c = 5 then s.setF (icu 5 0x28) 30 1 0 else s)
  else if j < 1022 ∧ s.icuBit c.val 0x300 j then (s.settle c.val j).icuStep c.val j { complete := true }
  else s

/-- A fault of a frame read is raised at the RETI; otherwise the value goes on. -/
def readFrame (c : CoreId) (i : Nat) (s : State) (f : Nat → State → State) : State :=
  match frameWord c i s with
  | .ok v t => f v t
  | .exc vec sub info t => takeException c vec sub info (t.core c).pc t
  | .stuck => s

/-- Tail-chaining: the claim, the new CAUSE and INFO in the frame, and the handler of the new source (R235 step 3). -/
def tailChain (c : CoreId) (sr : Word) (s : State) : State :=
  let x := claim c (bits sr.toNat 20 8) s
  let sp := (s.core c).sp
  match storeAt c .ss (sp + 4) 4 (16 * 2 ^ 24 + x.1) x.2.2 with
  | .ok _ t =>
    (match storeAt c .ss sp 4 x.2.1 t with
      | .ok _ u => enterAt c 16 (fun cur => srIrq u c x.1 (srBack sr cur)) u
      | .exc _ _ _ u => doubleFault c 3 u
      | .stuck => s)
  | .exc _ _ _ t => doubleFault c 2 t
  | .stuck => s

/-- Steps x2 on of a return that does not chain: PC and INFO are read, then PC, SR and SP change; an odd PC is an alignment exception. -/
def returnTo (c : CoreId) (sr : Word) (s : State) : State :=
  readFrame c 3 s (fun pc s => readFrame c 0 s (fun _ s =>
    if pc % 2 = 1 then takeException c 5 0 pc (s.core c).pc s
    else s.modCore c (fun k => { k with pc := BitVec.ofNat 32 pc, sr := srBack sr k.sr, sp := k.sp + 16 })))

/-- RETI on a core that executes it. -/
def reti (c : CoreId) (s : State) : State :=
  readFrame c 1 s (fun cause s => readFrame c 2 s (fun w s =>
    let sr := BitVec.ofNat 32 w
    let t := completeFrame c cause s
    if cause / 2 ^ 24 = 16 ∧ cause % 1024 ≠ 1022 ∧ sr.getLsbD 7 ∧ (t.best c.val (bits w 20 8)).isSome then tailChain c sr t
    else returnTo c sr t))

end Sys2Proof.Machine
end

