-- ==== Sys2Proof/Machine/Scalar.lean ====
section
/-! DEFINITION. Issue of scalar instructions, and the effect of each (R192–R223). A command names the instruction that stands at the core's PC;
on a core that does not execute it changes nothing (log entry 5). -/
namespace Sys2Proof.Machine

/-- Where an instruction stands: core, offset, length in bytes, and the iteration of a repeat prefix (R65, R464). -/
structure At where
  c : CoreId
  off : Word
  len : Nat
  iter : Nat

/-- Offset of the next instruction. -/
def At.next (a : At) : Word := a.off + BitVec.ofNat 32 a.len

/-- What an instruction does. -/
inductive Res where
  /-- it completes and the next follows; whether it sets V to 1 as a flag it computes (R209) -/
  | done (setsV : Bool) (s : State)
  /-- it transfers control to an offset -/
  | jump (target : Word) (s : State)
  /-- it raises an exception; saved is the next instruction (a trap) or itself -/
  | exc (vec sub info : Nat) (next : Bool) (s : State)
  /-- it waits -/
  | wait (w : CoreWait) (s : State)
  /-- it waits for a domain that cannot be woken: nothing changes yet -/
  | stuck

/-- The meaning of an instruction where it stands. -/
abbrev Body := At → State → Res

/-- Illegal instruction, with the instruction's first 32 bits or its parcel (Table DCY-10). -/
def illegal (enc : Nat) (s : State) : Res := .exc 1 0 enc false s

/-- Illegal state, with the instruction's offset. -/
def illegalState (a : At) (s : State) : Res := .exc 2 0 a.off.toNat false s

/-- The instruction goes on with what an access gave. -/
def Access.bind (x : Access) (f : Nat → State → Res) : Res :=
  match x with
  | .ok v s => f v s
  | .exc vec sub info s => .exc vec sub info false s
  | .stuck => .stuck

/-- SR.TV: trap when V is set (R209). -/
def Core.tv (k : Core) : Bool := k.sr.getLsbD 8

/-- The end of an instruction that completed at `pc`, `off` its own offset: the overflow trap where it set V, and then, before its handler's first instruction, a
divide's pending trap: R209 orders a trap and an interrupt, and no two traps (log entry 31). -/
def completed (c : CoreId) (off pc : Word) (setsV : Bool) (s : State) : State :=
  if !s.alive c then s
  else
    let s1 := setPc c pc s
    stopHere c.val <| takeTrap c (if setsV && (s1.core c).tv then takeException c 7 0 off.toNat pc s1 else s1)

/-- What follows the result of an instruction that stands alone. -/
def settleOne (a : At) (s0 : State) : Res → State
  | .done v s => completed a.c a.off a.next v s
  | .jump t s => completed a.c a.off t false s
  | .exc vec sub info next s => takeTrap a.c (takeException a.c vec sub info (if next then a.next else a.off) s)
  | .wait w s => s.modCore a.c (fun k => { k with run := .waiting w })
  | .stuck => s0

/-- Whether every parcel of an instruction lies in CS (R202). -/
def State.fetchOk (s : State) (c : CoreId) (off : Word) (len : Nat) : Bool := segPasses (s.core c).cs .fetch off.toNat len

/-- Core c has begun an instruction (R433). -/
def begins (c : CoreId) (s : State) : State := s.modCore c (fun k => { k with started := true, rep := none })

/-- An instruction of a length is begun at the PC, and `f` is what it does: a divide's trap comes first, then the fetch check, then its parcels are fetched
(R202, R209, R212, R271). -/
def fetchThen (c : CoreId) (len : Nat) (f : At → State → State) (s : State) : State :=
  if !s.executes c then s
  else if (s.core c).traps != [] && (s.core c).rep.isNone then takeTrap c s
  else
    let s0 := begins c s
    let off := (s.core c).pc
    if !s.fetchOk c off len then takeException c 3 0 off.toNat off s0
    else match fetchAll c (len / 2) off s0 with
      | .ok _ s1 => f ⟨c, off, len, 0⟩ s1
      | .exc vec sub info t => takeException c vec sub info off t
      | .stuck => s0

/-- An instruction of a length issues at the PC. -/
def issue (c : CoreId) (len : Nat) (b : Body) (s : State) : State := fetchThen c len (fun a s1 => settleOne a s1 (b a s1)) s

/-- The core of an instruction. -/
def At.core (a : At) (s : State) : Core := s.core a.c

/-- A result written to rd, SR replaced. -/
def putAlu (a : At) (d : Reg) (r sr : Word) (v : Bool) (s : State) : Res :=
  .done v (s.modCore a.c (fun k => { k.setReg d r with sr := sr }))

/-- SR replaced, no result kept. -/
def putSr (a : At) (sr : Word) (v : Bool) (s : State) : Res := .done v (s.modCore a.c (fun k => { k with sr := sr }))

-- Arithmetic and logic (Tables DCY-7, DCY-8)

/-- A sum or difference with NZCV. -/
def bodySum (d : Reg) (f : Core → Sum) : Body := fun a s =>
  let k := a.core s
  putAlu a d (f k).r (srNZCV k.sr (f k)) (f k).v s

/-- The flags of a difference alone. -/
def bodyCmp (f : Core → Sum) : Body := fun a s => putSr a (srNZCV (a.core s).sr (f (a.core s))) (f (a.core s)).v s

/-- A logic result with NZ. -/
def bodyLogic (d : Reg) (f : Core → Word) : Body := fun a s => putAlu a d (f (a.core s)) (srNZ (a.core s).sr (f (a.core s))) false s

/-- The flags of a logic result alone. -/
def bodyTest (f : Core → Word) : Body := fun a s => putSr a (srNZ (a.core s).sr (f (a.core s))) false s

/-- A shift by a count, with its flags. -/
def bodyShift (op : ShiftOp) (d : Reg) (x : Core → Word) (n : Core → Nat) : Body := fun a s =>
  let k := a.core s
  putAlu a d (shiftRes op (x k) (n k)) (shiftSr op k.sr (x k) (n k)) (op == .sal && salV (x k) (n k)) s

/-- A value moved, no flags. -/
def bodyMove (d : Reg) (f : Core → Word) : Body := fun a s => .done false (s.modCore a.c (fun k => k.setReg d (f k)))

/-- The absolute value, with NZV. -/
def bodyAbs (d s' : Reg) : Body := fun a s =>
  let k := a.core s
  let x := k.reg s'
  let r := if x.msb then 0 - x else x
  putAlu a d r (srNZV k.sr r (x == 0x80000000)) (x == 0x80000000) s

/-- NOP. -/
def bodyNop : Body := fun _ s => .done false s
/-- MOV. -/
def bodyMov (d s : Reg) : Body := bodyMove d (fun k => k.reg s)
/-- ADD. -/
def bodyAdd (d s t : Reg) : Body := bodySum d (fun k => addc (k.reg s) (k.reg t) false)
/-- ADC. -/
def bodyAdc (d s t : Reg) : Body := bodySum d (fun k => addc (k.reg s) (k.reg t) (srC k.sr))
/-- SUB. -/
def bodySub (d s t : Reg) : Body := bodySum d (fun k => subc (k.reg s) (k.reg t) true)
/-- SBC. -/
def bodySbc (d s t : Reg) : Body := bodySum d (fun k => subc (k.reg s) (k.reg t) (srC k.sr))
/-- AND. -/
def bodyAnd (d s t : Reg) : Body := bodyLogic d (fun k => k.reg s &&& k.reg t)
/-- OR. -/
def bodyOr (d s t : Reg) : Body := bodyLogic d (fun k => k.reg s ||| k.reg t)
/-- XOR. -/
def bodyXor (d s t : Reg) : Body := bodyLogic d (fun k => k.reg s ^^^ k.reg t)
/-- ANDN. -/
def bodyAndn (d s t : Reg) : Body := bodyLogic d (fun k => k.reg s &&& ~~~k.reg t)
/-- CMP. -/
def bodyCompare (s t : Reg) : Body := bodyCmp (fun k => subc (k.reg s) (k.reg t) true)
/-- TST. -/
def bodyTst (s t : Reg) : Body := bodyTest (fun k => k.reg s &&& k.reg t)
/-- NOT. -/
def bodyNot (d s : Reg) : Body := bodyLogic d (fun k => ~~~k.reg s)
/-- NEG. -/
def bodyNeg (d s : Reg) : Body := bodySum d (fun k => subc 0 (k.reg s) true)
/-- A shift by the full count in a register (R208). -/
def bodyShiftReg (op : ShiftOp) (d s t : Reg) : Body := bodyShift op d (fun k => k.reg s) (fun k => (k.reg t).toNat)
/-- A shift by an immediate count. -/
def bodyShiftImm (op : ShiftOp) (d s : Reg) (n : Nat) : Body := bodyShift op d (fun k => k.reg s) (fun _ => n)
/-- MOVI. -/
def bodyMovi (d : Reg) (imm : BitVec 6) : Body := bodyMove d (fun _ => imm.signExtend 32)
/-- ADDI. -/
def bodyAddi (d s : Reg) (imm : Imm) : Body := bodySum d (fun k => addc (k.reg s) (immVal imm) false)
/-- CMPI. -/
def bodyCmpi (s : Reg) (imm : Imm) : Body := bodyCmp (fun k => subc (k.reg s) (immVal imm) true)
/-- ANDI. -/
def bodyAndi (d s : Reg) (imm : BitVec 16) : Body := bodyLogic d (fun k => k.reg s &&& imm.setWidth 32)
/-- ORI. -/
def bodyOri (d s : Reg) (imm : BitVec 16) : Body := bodyLogic d (fun k => k.reg s ||| imm.setWidth 32)
/-- XORI. -/
def bodyXori (d s : Reg) (imm : BitVec 16) : Body := bodyLogic d (fun k => k.reg s ^^^ imm.setWidth 32)
/-- TSTI. -/
def bodyTsti (s : Reg) (imm : BitVec 16) : Body := bodyTest (fun k => k.reg s &&& imm.setWidth 32)
/-- LUI. -/
def bodyLui (d : Reg) (imm : BitVec 16) : Body := bodyMove d (fun _ => imm.setWidth 32 <<< 16)

-- Memory and stack (R210–R212, R215)

/-- The encoding of a 32-bit instruction from its major code, its two register fields and the 18 bits below (Table DCY-5). -/
def enc32 (major d s low : Nat) : Nat := 2 ^ 31 + major * 2 ^ 26 + d * 2 ^ 22 + s * 2 ^ 18 + low
/-- The code of a size and of a segment (Table DCY-5). -/
def segField : Seg → Nat
  | .ds => 0 | .ss => 1 | .xs => 2 | .cs => 3
/-- The encoding of an LD or ST with data register d. -/
def encMem (store : Bool) (d : Reg) : MemOperand → Nat
  | .cr s => (0x12 + b2n store) * 256 + d.val * 16 + s.val
  | .m z g b disp => enc32 (3 + b2n store) d.val b.val (sizeCode z * 65536 + segField g * 8192 + disp.toNat)
/-- A double-word with an odd data register (R203). -/
def oddPair (m : MemOperand) (d : Reg) : Bool := memSize m == 8 && d.val % 2 == 1

/-- A loaded value written to d, and its high word to d + 1. -/
def Core.putLoad (k : Core) (d : Reg) (n v : Nat) : Core :=
  let k1 := k.setReg d (BitVec.ofNat 32 v)
  if n = 8 then k1.setReg (d + 1) (BitVec.ofNat 32 (v / 2 ^ 32)) else k1

/-- LD. -/
def bodyLd (d : Reg) (m : MemOperand) : Body := fun a s =>
  if oddPair m d then illegal (encMem false d m) s
  else (loadAt a.c (memSeg m) (memOffset m (a.core s)) (memSize m) s).bind (fun v t => .done false (t.modCore a.c (fun k => k.putLoad d (memSize m) v)))

/-- The value that an ST stores. -/
def Core.storeVal (k : Core) (d : Reg) (n : Nat) : Nat := (k.reg d).toNat + (if n = 8 then 2 ^ 32 * (k.reg (d + 1)).toNat else 0)

/-- ST. -/
def bodySt (d : Reg) (m : MemOperand) : Body := fun a s =>
  if oddPair m d then illegal (encMem true d m) s
  else (storeAt a.c (memSeg m) (memOffset m (a.core s)) (memSize m) ((a.core s).storeVal d (memSize m)) s).bind (fun _ t => .done false t)

/-- The offset SP + 4 × IMM. -/
def Core.slot (k : Core) (imm : BitVec 6) : Word := k.sp + 4 * imm.setWidth 32

/-- LDS. -/
def bodyLds (d : Reg) (imm : BitVec 6) : Body := fun a s =>
  (loadAt a.c .ss ((a.core s).slot imm) 4 s).bind (fun v t => .done false (t.modCore a.c (fun k => k.setReg d (BitVec.ofNat 32 v))))
/-- STS. -/
def bodySts (d : Reg) (imm : BitVec 6) : Body := fun a s =>
  (storeAt a.c .ss ((a.core s).slot imm) 4 ((a.core s).reg d).toNat s).bind (fun _ t => .done false t)
/-- PUSH. -/
def bodyPush (s' : Reg) : Body := fun a s => (pushWord a.c ((a.core s).reg s').toNat s).bind (fun _ t => .done false t)
/-- POP. -/
def bodyPop (d : Reg) : Body := fun a s =>
  (peekWord a.c s).bind (fun v t => .done false (t.modCore a.c (fun k => { k with sp := k.sp + 4 }.setReg d (BitVec.ofNat 32 v))))

-- Control transfers (R204, R211, R215)

/-- An odd target is an alignment exception at the transfer (R211). -/
def toTarget (t : Word) (f : Res) (s : State) : Res := if t.getLsbD 0 then .exc 5 0 t.toNat false s else f

/-- JR. -/
def bodyJr (s' : Reg) : Body := fun a s => toTarget ((a.core s).reg s') (.jump ((a.core s).reg s') s) s
/-- CALLR: a push that the stack segment refuses comes before an odd target in the order of Table DCY-10's faults; an odd target comes before a misaligned SP (log
entry 31). -/
def bodyCallr (s' : Reg) : Body := fun a s =>
  let k := a.core s
  let t := k.reg s'
  if t.getLsbD 0 ∧ segPasses k.ss .write (k.sp - 4).toNat 4 then .exc 5 0 t.toNat false s
  else ((pushWord a.c a.next.toNat s).bind (fun _ u => .jump t u))
/-- CALL. -/
def bodyCall (off : BitVec 26) : Body := fun a s => (pushWord a.c a.next.toNat s).bind (fun _ t => .jump (a.off + parcels off) t)
/-- RET. -/
def bodyRet : Body := fun a s =>
  (peekWord a.c s).bind (fun v t => toTarget (BitVec.ofNat 32 v) (.jump (BitVec.ofNat 32 v) (t.modCore a.c (fun k => { k with sp := k.sp + 4 }))) t)
/-- Bcc. -/
def bodyBcc (cc : Nat) (off : Word) : Body := fun a s => if cond cc (a.core s).sr then .jump (a.off + off) s else .done false s
/-- LOOP: RC falls by 1, and the branch is taken unless it is then 0. -/
def bodyLoop (off : BitVec 22) : Body := fun a s =>
  let n := (a.core s).rc - 1
  let t := s.modCore a.c (fun k => { k with rc := n })
  if n = 0 then .done false t else .jump (a.off + parcels off) t

-- Special registers (R194, R197, R214, R215)

/-- The encoding of a SYS instruction. -/
def encSys (func : Nat) (d s : Reg) (imm : Nat) : Nat := enc32 8 d.val s.val (func * 4096 + imm)

/-- A special register as an instruction reads it. -/
def At.readS (a : At) (r : SReg) (s : State) : Word × Core := (a.core s).readS r (BitVec.ofNat 32 (s.srOf a.c.val)) a.off

/-- MFX: the register at selector 0x010 + rs. -/
def bodyMfx (d : Reg) (sel : Fin 16) : Body := fun a s =>
  match if 8 < sel.val then none else selOf a.c (BitVec.ofNat 12 (16 + sel.val)) with
  | none => illegal (0x1a00 + d.val * 16 + sel.val) s
  | some r => .done false (s.modCore a.c (fun _ => (a.readS r s).2.setReg d (a.readS r s).1))
/-- MFS. -/
def bodyMfs (d : Reg) (sel : BitVec 12) : Body := fun a s =>
  match selOf a.c sel with
  | none => illegal (encSys 0 d 0 sel.toNat) s
  | some r => .done false (s.modCore a.c (fun _ => (a.readS r s).2.setReg d (a.readS r s).1))
/-- MTS. -/
def bodyMts (s' : Reg) (sel : BitVec 12) : Body := fun a s =>
  match selWritable a.c sel with
  | none => illegal (encSys 1 0 s' sel.toNat) s
  | some r => if s.locked a.c r then illegalState a s else .done false (s.modCore a.c (fun k => k.writeS r (k.reg s')))
/-- PUSHS: the value that the register held before SP fell. -/
def bodyPushs (sel : BitVec 12) : Body := fun a s =>
  match selOf a.c sel with
  | none => illegal (encSys 2 0 0 sel.toNat) s
  | some r => (pushWord a.c (a.readS r s).1.toNat s).bind (fun _ t => .done false (t.modCore a.c (fun k =>
      let h := (a.readS r s).2
      { k with holdP := h.holdP, holdQR := h.holdQR, holdW := h.holdW, holdT := h.holdT })))
/-- POPS: into SP the loaded value stands in place of the increment. -/
def bodyPops (sel : BitVec 12) : Body := fun a s =>
  match selWritable a.c sel with
  | none => illegal (encSys 3 0 0 sel.toNat) s
  | some r =>
    if s.locked a.c r then illegalState a s
    else (peekWord a.c s).bind (fun v t => .done false (t.modCore a.c (fun k => { k with sp := k.sp + 4 }.writeS r (BitVec.ofNat 32 v))))

-- Multiplier and divider (R198)

/-- MULU and MULS: a product is in flight. -/
def bodyMul (sgn : Bool) (s' t' : Reg) : Body := fun a s =>
  .done false (s.modCore a.c (fun k => { k with muls := k.muls ++ [product sgn (k.reg s') (k.reg t')] }))
/-- DIVU and DIVS: a divide is in flight; one issued while DB = 1 stalls. -/
def bodyDiv (sgn : Bool) (s' t' : Reg) : Body := fun a s =>
  if (a.core s).div.isSome then .wait (.divider sgn s' t') s
  else .done false (s.modCore a.c (fun k => { k with div := some (divide sgn (k.reg s') (k.reg t') a.off) }))

-- Waits (R201, R205)

/-- Every condition of a SYNC mask holds (R201). -/
def State.syncHolds (s : State) (c : CoreId) (m : BitVec 4) : Bool :=
  let k := s.core c
  (!m.getLsbD 0 || k.muls.isEmpty) && (!m.getLsbD 1 || k.div.isNone) && (!m.getLsbD 2 || !s.ab c.val) && (!m.getLsbD 3 || !s.rb c.val)

/-- SYNC. Nothing is fetched ahead in the model. -/
def bodySync (m : BitVec 4) : Body := fun a s =>
  if a.c = 5 ∧ (m.getLsbD 2 ∨ m.getLsbD 3) then illegal (0x1b00 + m.toNat) s
  else if s.syncHolds a.c m then .done false s else .wait (.sync m) s

/-- A source of the core's ICU is deliverable, whatever IE holds (R205). -/
def State.wfiHolds (s : State) (c : CoreId) : Bool := (s.best c.val (bits (s.core c).sr.toNat 20 8)).isSome

/-- WFI. -/
def bodyWfi : Body := fun a s => if s.wfiHolds a.c then .done false s else .wait .wfi s

/-- TRAP. -/
def bodyTrap (imm : BitVec 12) : Body := fun _ s => .exc 9 0 imm.toNat true s

-- Array and coprocessor (R62, R103, R108, R221–R223)

/-- The array domains of a partition wake for a push (R355). -/
def wakeArray (p : Nat) (s : State) : State := each ((s.quads p).flatMap quadDomains) wakeDrain s

/-- A push into the queue that receives pushes (R62 step 5, R106). -/
def pushEntry (c : CoreId) (q : QEntry) (s : State) : State :=
  let s1 := s.modSeq c.val (fun x => x.push q)
  match s.drives c.val with
  | some p => wakeArray p s1
  | none => s1

/-- An array instruction (R62). -/
def bodyArray (w : Dword) : Body := fun a s =>
  if a.c = 5 then illegal (w.toNat / 2 ^ 32) s
  else match arrayCheck s a.c.val w a.iter with
    | .illegal => illegal (w.toNat / 2 ^ 32) s
    | .illegalState => illegalState a s
    | .segFault sub info => .exc 4 sub info false s
    | .ok q => if (s.seq a.c.val).full then .wait (.push q) s else .done false (pushEntry a.c q s)

/-- APRE: a stop request, and a wait for its outcome (R103, R104). -/
def bodyApre (d : Reg) : Body := fun a s =>
  if a.c = 5 then illegal (encSys 4 d 0 0) s
  else if (s.drives a.c.val).isNone ∨ (s.seq a.c.val).susp then illegalState a s
  else .wait (.apre d) s

/-- ARES: SUSP clears at once (R108). -/
def bodyAres : Body := fun a s =>
  if a.c = 5 then illegal (encSys 5 0 0 0) s
  else if (s.drives a.c.val).isNone ∨ !(s.seq a.c.val).susp then illegalState a s
  else .done false (s.modSeq a.c.val (fun x => { x with resuming := true }))

/-- FUNC is enabled: SEQs_CPEN0 or SEQs_CPEN1; the management core has no such register (R223). -/
def State.copEnabled (s : State) (c : CoreId) (func : BitVec 6) : Bool :=
  c == 5 || s.bit (sq c.val (0x30 + 4 * (func.toNat / 32))) (func.toNat % 32)

/-- COPn: a request to the coprocessor port, which takes it while CQ_RDY is 1 (R222, R223, R346). -/
def bodyCop (func : BitVec 6) (d s' t' : Reg) (imm : Byte) : Body := fun a s =>
  let k := a.core s
  if !s.copEnabled a.c func then illegal (2 ^ 31 + 15 * 2 ^ 26 + func.toNat * 2 ^ 20 + d.val * 2 ^ 16 + s'.val * 2 ^ 12 + t'.val * 2 ^ 8 + imm.toNat) s
  else if !s.portOpen a.c.val then .exc 10 1 func.toNat false s
  else .wait (.cop k.copTag d func (k.reg s') (k.reg t') imm (if (s.micro_ a.c.val).cq then .sent else .waiting)) (s.modCore a.c (fun k => { k with copTag := k.copTag + 1 }))

end Sys2Proof.Machine
end

