-- ==== Sys2Proof/Machine/Repeat.lean ====
section
/-! DEFINITION. The encodings of scalar instructions as the repeat prefixes read them, the prefixes themselves, and the completion of
instructions that wait (R198–R203, R209, R219–R223, R464). -/
namespace Sys2Proof.Machine

-- Encodings (Tables DCY-4, DCY-5, DCY-7, DCY-8)

/-- A register field. -/
def rf (w lo : Nat) : Reg := Fin.ofNat 16 (bits w lo 4)

/-- CR codes 0x02–0x11 and their operands: rd, rs. -/
def decodeCrAlu (c : CoreId) (op : Nat) (d s : Reg) : Option Instr :=
  match op with
  | 0x01 => some (.mov c d s)
  | 0x02 => some (.add c .p16 d d s)
  | 0x03 => some (.sub c .p16 d d s)
  | 0x04 => some (.and c .p16 d d s)
  | 0x05 => some (.or c .p16 d d s)
  | 0x06 => some (.xor c .p16 d d s)
  | 0x07 => some (.cmp c .p16 d s)
  | 0x08 => some (.tst c d s)
  | 0x09 => some (.not c d s)
  | 0x0A => some (.neg c d s)
  | 0x0B => some (.abs c d s)
  | 0x0C => some (.shl c .p16 d d s)
  | 0x0D => some (.shr c .p16 d d s)
  | 0x0E => some (.sar c .p16 d d s)
  | 0x0F => some (.sal c .p16 d d s)
  | 0x10 => some (.rol c .p16 d d s)
  | 0x11 => some (.ror c .p16 d d s)
  | 0x12 => some (.ld c d (.cr s))
  | 0x13 => some (.st c d (.cr s))
  | _ => none

/-- The CR format; a field that must be 0 and is not gives none. -/
def decodeCr (c : CoreId) (w : Nat) : Option Instr :=
  let op := bits w 8 6
  let d := rf w 4
  let s := rf w 0
  let need := fun (ok : Bool) (i : Instr) => if ok then some i else none
  match op with
  | 0x00 => need (d == 0 && s == 0) (.nop c)
  | 0x14 => need (d == 0) (.push c s)
  | 0x15 => need (s == 0) (.pop c d)
  | 0x16 => need (d == 0) (.jr c s)
  | 0x17 => need (d == 0) (.callr c s)
  | 0x18 => need (d == 0 && s == 0) (.ret c)
  | 0x19 => need (d == 0 && s == 0) (.reti c)
  | 0x1A => some (.mfx c d s)
  | 0x1B => need (d == 0) (.sync c (BitVec.ofNat 4 w))
  | 0x1C => need (d == 0 && s == 0) (.rep c none)
  | 0x1D => need (d == 0 && s == 0) (.repn c)
  | _ => decodeCrAlu c op d s

/-- The CI format. -/
def decodeCi (c : CoreId) (w : Nat) : Instr :=
  let d := rf w 6
  let imm := BitVec.ofNat 6 w
  match bits w 10 3 with
  | 0 => .movi c d imm
  | 1 => .addi c d d (.i6 imm)
  | 2 => .cmpi c d (.i6 imm)
  | 3 => .shli c d imm
  | 4 => .shri c d imm
  | 5 => .sari c d imm
  | 6 => .lds c d imm
  | _ => .sts c d imm

/-- A 16-bit instruction. -/
def decode16 (c : CoreId) (w : Nat) : Option Instr :=
  if bits w 14 2 = 0 then decodeCr c w
  else if bits w 13 3 = 2 then some (decodeCi c w)
  else some (.bcc c (Fin.ofNat 16 (bits w 9 4)) (.o9 (BitVec.ofNat 9 w)))

/-- The R3 format. -/
def decodeR3 (c : CoreId) (w : Nat) : Option Instr :=
  let d := rf w 22
  let s := rf w 18
  let t := rf w 14
  let need := fun (ok : Bool) (i : Instr) => if ok then some i else none
  if bits w 0 8 ≠ 0 then none
  else match bits w 8 6 with
    | 0x00 => some (.add c .p32 d s t)
    | 0x01 => some (.adc c d s t)
    | 0x02 => some (.sub c .p32 d s t)
    | 0x03 => some (.sbc c d s t)
    | 0x04 => some (.and c .p32 d s t)
    | 0x05 => some (.or c .p32 d s t)
    | 0x06 => some (.xor c .p32 d s t)
    | 0x07 => some (.andn c d s t)
    | 0x08 => some (.shl c .p32 d s t)
    | 0x09 => some (.shr c .p32 d s t)
    | 0x0A => some (.sar c .p32 d s t)
    | 0x0B => some (.sal c .p32 d s t)
    | 0x0C => some (.rol c .p32 d s t)
    | 0x0D => some (.ror c .p32 d s t)
    | 0x0E => need (d == 0) (.cmp c .p32 s t)
    | 0x10 => need (d == 0) (.mulu c s t)
    | 0x11 => need (d == 0) (.muls c s t)
    | 0x12 => need (d == 0) (.divu c s t)
    | 0x13 => need (d == 0) (.divs c s t)
    | _ => none

/-- The RI format. -/
def decodeRi (c : CoreId) (w : Nat) : Option Instr :=
  let d := rf w 22
  let s := rf w 18
  let imm := BitVec.ofNat 16 w
  let need := fun (ok : Bool) (i : Instr) => if ok then some i else none
  match bits w 26 4 * 4 + bits w 16 2 with
  | 4 => some (.addi c d s (.i16 imm))
  | 5 => some (.andi c d s imm)
  | 6 => some (.ori c d s imm)
  | 7 => some (.xori c d s imm)
  | 8 => need (s == 0) (.lui c d imm)
  | 9 => need (d == 0) (.cmpi c s (.i16 imm))
  | 10 => need (d == 0) (.tsti c s imm)
  | _ => if bits w 11 5 = 0 ∧ bits w 8 3 < 6 then some (.shifti c d s (Fin.ofNat 6 (bits w 8 3)) (BitVec.ofNat 8 w)) else none

/-- The M format. -/
def decodeM (c : CoreId) (w : Nat) : Option Instr :=
  let z := [Size.b1, .b2, .b4, .b8].getD (bits w 16 2) .b1
  let d := rf w 22
  match bits w 13 3 with
  | 0 => go z d .ds
  | 1 => go z d .ss
  | 2 => go z d .xs
  | 3 => go z d .cs
  | _ => none
where
  /-- the operand of a segment -/
  go (z : Size) (d : Reg) (g : Seg) : Option Instr :=
    let m := MemOperand.m z g (rf w 18) (BitVec.ofNat 13 w)
    if oddPair m d then none else if bits w 26 4 = 3 then some (.ld c d m) else some (.st c d m)

/-- The SYS format. -/
def decodeSys (c : CoreId) (w : Nat) : Option Instr :=
  let d := rf w 22
  let s := rf w 18
  let imm := BitVec.ofNat 12 w
  let need := fun (ok : Bool) (i : Instr) => if ok then some i else none
  match bits w 12 6 with
  | 0 => need (s == 0) (.mfs c d imm)
  | 1 => need (d == 0) (.mts c s imm)
  | 2 => need (d == 0 && s == 0) (.pushs c imm)
  | 3 => need (d == 0 && s == 0) (.pops c imm)
  | 4 => need (s == 0 && imm == 0) (.apre c d)
  | 5 => need (d == 0 && s == 0 && imm == 0) (.ares c)
  | 6 => some (.trap c imm)
  | 7 => some (.wfi c)
  | _ => none

/-- A 32-bit instruction. -/
def decode32 (c : CoreId) (w : Nat) : Option Instr :=
  match bits w 26 4 with
  | 0 => decodeR3 c w
  | 1 => decodeRi c w
  | 2 => decodeRi c w
  | 3 => decodeM c w
  | 4 => decodeM c w
  | 5 => some (.bcc c (Fin.ofNat 16 (bits w 22 4)) (.o22 (BitVec.ofNat 22 w)))
  | 6 => some (.call c (BitVec.ofNat 26 w))
  | 7 => if bits w 22 4 = 0 then some (.loop c (BitVec.ofNat 22 w)) else none
  | 8 => decodeSys c w
  | 15 => some (.copn c (BitVec.ofNat 6 (bits w 20 6)) (rf w 16) (rf w 12) (rf w 8) (BitVec.ofNat 8 w))
  | _ => none

/-- The instruction of len bytes in w, its first parcel highest; none for a reserved encoding (R203). -/
def decodeScalar (c : CoreId) (w : Dword) (len : Nat) : Option Instr :=
  if len = 2 then decode16 c w.toNat else if len = 4 then decode32 c w.toNat else some (.arrayInstruction c w)

/-- The first 32 bits of an instruction, or its only parcel (Table DCY-10). -/
def firstBits (w : Dword) (len : Nat) : Nat := if len = 8 then w.toNat / 2 ^ 32 else w.toNat

/-- The effect of an instruction that may follow a repeat prefix; none for those whose column P says no (Tables DCY-7, DCY-8) and for the
commands that are no instructions. -/
def bodyOf : Instr → Option Body
  | .nop _ => some bodyNop
  | .mov _ d s => some (bodyMov d s)
  | .add _ _ d s t => some (bodyAdd d s t)
  | .adc _ d s t => some (bodyAdc d s t)
  | .sub _ _ d s t => some (bodySub d s t)
  | .sbc _ d s t => some (bodySbc d s t)
  | .and _ _ d s t => some (bodyAnd d s t)
  | .or _ _ d s t => some (bodyOr d s t)
  | .xor _ _ d s t => some (bodyXor d s t)
  | .andn _ d s t => some (bodyAndn d s t)
  | .cmp _ _ s t => some (bodyCompare s t)
  | .tst _ s t => some (bodyTst s t)
  | .not _ d s => some (bodyNot d s)
  | .neg _ d s => some (bodyNeg d s)
  | .abs _ d s => some (bodyAbs d s)
  | .shl _ _ d s t => some (bodyShiftReg .shl d s t)
  | .shr _ _ d s t => some (bodyShiftReg .shr d s t)
  | .sar _ _ d s t => some (bodyShiftReg .sar d s t)
  | .sal _ _ d s t => some (bodyShiftReg .sal d s t)
  | .rol _ _ d s t => some (bodyShiftReg .rol d s t)
  | .ror _ _ d s t => some (bodyShiftReg .ror d s t)
  | .movi _ d imm => some (bodyMovi d imm)
  | .addi _ d s imm => some (bodyAddi d s imm)
  | .cmpi _ s imm => some (bodyCmpi s imm)
  | .andi _ d s imm => some (bodyAndi d s imm)
  | .ori _ d s imm => some (bodyOri d s imm)
  | .xori _ d s imm => some (bodyXori d s imm)
  | .tsti _ s imm => some (bodyTsti s imm)
  | .lui _ d imm => some (bodyLui d imm)
  | .shli _ d n => some (bodyShiftImm .shl d d n.toNat)
  | .shri _ d n => some (bodyShiftImm .shr d d n.toNat)
  | .sari _ d n => some (bodyShiftImm .sar d d n.toNat)
  | .shifti _ d s sel n => some (bodyShiftImm (.ofSel sel.val) d s n.toNat)
  | .ld _ d m => some (bodyLd d m)
  | .st _ d m => some (bodySt d m)
  | .lds _ d imm => some (bodyLds d imm)
  | .sts _ d imm => some (bodySts d imm)
  | .push _ s => some (bodyPush s)
  | .pop _ d => some (bodyPop d)
  | .mfx _ d sel => some (bodyMfx d sel)
  | .mfs _ d sel => some (bodyMfs d sel)
  | .mts _ s sel => if sel = 1 ∨ sel = 5 then none else some (bodyMts s sel)
  | .pushs _ sel => some (bodyPushs sel)
  | .pops _ sel => if sel = 1 ∨ sel = 5 then none else some (bodyPops sel)
  | .mulu _ s t => some (bodyMul false s t)
  | .muls _ s t => some (bodyMul true s t)
  | .divu _ s t => some (bodyDiv false s t)
  | .divs _ s t => some (bodyDiv true s t)
  | .sync _ m => some (bodySync m)
  | .copn _ f d s t imm => some (bodyCop f d s t imm)
  | .arrayInstruction _ w => some (bodyArray w)
  | _ => none

-- Fetching the repeated instruction (R202)

/-- The length that the first parcel fixes (R202). -/
def parcelLen (p : Nat) : Nat := if 3 ≤ p / 2 ^ 14 then 8 else if 2 ≤ p / 2 ^ 14 then 4 else 2

/-- n further parcels, below the first ones. -/
def fetchMore (c : CoreId) : Nat → Word → Nat → State → Access
  | 0, _, w, s => .ok w s
  | n + 1, o, w, s => match fetchParcel c o s with
    | .ok p t => fetchMore c n (o + 2) (w * 65536 + p) t
    | r => r

/-- The instruction at an offset of CS: its parcels, the first highest, and its length above them at bit 64. -/
def fetchInsn (c : CoreId) (o : Word) (s : State) : Access :=
  if !s.fetchOk c o 2 then .exc 3 0 o.toNat s
  else match fetchParcel c o s with
    | .ok p t =>
      let n := parcelLen p
      if !t.fetchOk c o n then .exc 3 0 o.toNat t
      else (match fetchMore c (n / 2 - 1) (o + 2) p t with
        | .ok w u => .ok (w + n * 2 ^ 64) u
        | r => r)
    | r => r

/-- A prefix at an offset of CS and the instruction behind it: the parcel of the prefix first. -/
def fetchPrefixed (c : CoreId) (o : Word) (s : State) : Access :=
  match fetchAll c 1 o s with
  | .ok _ t => fetchInsn c (o + 2) t
  | r => r

-- The prefixes (R219, R220, R464)

/-- SR.REPA replaced. -/
def setRepa (v : Bool) (sr : Word) : Word := if v then sr ||| 0x800 else sr &&& ~~~0x800

/-- An iteration has completed: RC falls, RI rises, and REPA ends with the last (R220). -/
def countIteration (c : CoreId) (s : State) : State :=
  s.modCore c (fun k => { k with rc := k.rc - 1, ri := k.ri + 1, sr := if k.rc = 1 then setRepa false k.sr else k.sr })

/-- The offset after the repeated instruction. -/
def Repeat.after (r : Repeat) (pc : Word) : Word := pc + 2 + BitVec.ofNat 32 r.len

/-- Where the repeated instruction stands. -/
def repAt (c : CoreId) (r : Repeat) (s : State) : At := ⟨c, (s.core c).pc + 2, r.len, (s.core c).ri.toNat⟩

/-- The effect of the repeated instruction: a reserved encoding is illegal (R203). -/
def repBody (c : CoreId) (r : Repeat) : Body :=
  match (decodeScalar c r.word r.len).bind bodyOf with
  | some b => b
  | none => fun _ s => illegal (firstBits r.word r.len) s

/-- The end of a completed iteration: the traps of R209 and the end of the prefix; none when the next iteration follows. -/
def iterationEnds (c : CoreId) (r : Repeat) (v : Bool) (s : State) : State × Bool :=
  if !s.alive c then (s, true)
  else
    let off := (s.core c).pc + 2
    let s1 := countIteration c s
    let last := (s1.core c).rc == 0
    let s2 := if last then s1.modCore c (fun k => { k with pc := r.after k.pc, rep := none }) else s1
    if v && (s2.core c).tv then (takeTrap c (takeException c 7 0 off.toNat (s2.core c).pc s2), true)
    else if last then (takeTrap c s2, true)
    else if (s2.core c).traps != [] && !r.noInt then (takeTrap c (s2.modCore c (fun k => { k with rep := none })), true)
    else (s2, false)

/-- Between iterations of a REP its prefix stops for an interrupt: the PC stands at the prefix, with REPA = 1 (R220). -/
def stopPrefix (c : CoreId) (s : State) : State := s.modCore c (fun k => { k with rep := none })

/-- Iterations from the next on: `fuel` at most; `r.limit` counts those before an interrupt (R220). -/
def iterate (c : CoreId) : Nat → Repeat → State → State
  | 0, _, s => s
  | fuel + 1, r, s =>
    if r.limit = some 0 then stopPrefix c s
    else
      let r1 := { r with limit := r.limit.map (· - 1) }
      match repBody c r (repAt c r s) s with
      | .done v t => let x := iterationEnds c r v t; if x.2 then x.1 else iterate c fuel r1 x.1
      | .jump _ t => t
      | .exc vec sub info _ t => takeTrap c (takeException c vec sub info (t.core c).pc t)
      | .wait w t => t.modCore c (fun k => { k with run := .waiting w, rep := some r1 })
      | .stuck => s

/-- The iterations that remain. -/
def iterations (c : CoreId) (r : Repeat) (s : State) : State := iterate c (s.core c).rc.toNat r s

/-- The prefix is illegal before a reserved or forbidden instruction: "no" in column P, or a write of RC or RI (R219). -/
def prefixIllegal (c : CoreId) (w : Dword) (len : Nat) : Bool :=
  match decodeScalar c w len with
  | some i => (bodyOf i).isNone
  | none => false

/-- REP and REPN at the PC (R219, R220, R464). -/
def prefix_ (c : CoreId) (noInt : Bool) (limit : Option Nat) (s : State) : State :=
  if !s.executes c then s
  else
    let k := s.core c
    if k.traps != [] && k.rep.isNone then takeTrap c s
    else
      let s0 := begins c s
      if !s.fetchOk c k.pc 2 then takeException c 3 0 k.pc.toNat k.pc s0
      else match fetchPrefixed c k.pc s0 with
        | .exc vec sub info t => takeException c vec sub info k.pc t
        | .stuck => s
        | .ok v t =>
          let r : Repeat := ⟨noInt, BitVec.ofNat 64 v, v / 2 ^ 64, limit⟩
          if prefixIllegal c r.word r.len ∨ (noInt ∧ 256 < k.rc.toNat) then
            takeException c 1 0 (if noInt then 0x1d00 else 0x1c00) k.pc t
          else if k.rc = 0 then takeTrap c (t.modCore c (fun k => { k with pc := r.after k.pc, sr := setRepa false k.sr }))
          else iterations c r (t.modCore c (fun k =>
            { k with rep := some r, ri := if k.sr.getLsbD 11 then k.ri else 0, sr := setRepa true k.sr }))

-- Completion of instructions that waited

/-- An interrupt or a machine check that has become due while an iteration waited stops a REP before its next one (R220, R236). -/
def State.stopsPrefix (s : State) (c : CoreId) (r : Repeat) : Bool := !r.noInt && (s.interruptDue c || (c == 5 && s.mcPending))

/-- The instruction that core c waited on has ended with a result: it stands alone, or is an iteration of the prefix at the PC. -/
def endWait (c : CoreId) (len : Nat) (x : Res) (s : State) : State :=
  match (s.core c).rep with
  | none => settleOne ⟨c, (s.core c).pc, len, 0⟩ s x
  | some r =>
    match x with
    | .done v t => let e := iterationEnds c r v t; if e.2 then e.1 else if (e.1.stopping c.val).isSome then stopHere c.val e.1 else if e.1.stopsPrefix c r then stopPrefix c e.1 else iterations c r e.1
    | .jump _ t => t
    | .exc vec sub info _ t => takeTrap c (takeException c vec sub info (t.core c).pc t)
    | .wait w t => t.modCore c (fun k => { k with run := .waiting w })
    | .stuck => s

/-- Where the waiting instruction stands. -/
def waitAt (c : CoreId) (len : Nat) (s : State) : At :=
  match (s.core c).rep with
  | none => ⟨c, (s.core c).pc, len, 0⟩
  | some r => repAt c r s

/-- The core runs again. -/
def wakeCore (c : CoreId) (s : State) : State := s.modCore c (fun k => { k with run := .running })

/-- MULTIPLY_LANDING: the oldest product lands in P (R195, R198). -/
def execMultiplyLanding (c : CoreId) (s : State) : Out :=
  match (s.core c).muls with
  | [] => .next s
  | p :: ps => .next (s.modCore c (fun k => { k with muls := ps, plo := p.setWidth 32, phi := (p >>> 32).setWidth 32 }))

/-- A divide's results, D and V (Table DCY-9), and the trap they make (R209). -/
def Core.landDivide (k : Core) (x : DivFlight) : Core :=
  let sr := mix k.sr 0x18 ((if x.d then 0x10 else 0) ||| (if x.v then 8 else 0))
  { k with quo := x.quo, rem := x.rem, sr := sr, div := none
           traps := k.traps ++ (if x.d && sr.getLsbD 9 then [(8, x.off)] else if x.v && sr.getLsbD 8 then [(7, x.off)] else []) }

/-- DIVIDE_LANDING: a divide that stalled issues, and a trap is taken at the boundary (R195, R198, R209). -/
def execDivideLanding (c : CoreId) (s : State) : Out :=
  let k := s.core c
  match k.div with
  | none => .next s
  | some x =>
    let s1 := s.modCore c (fun k => k.landDivide x)
    match k.run with
    | .waiting (.divider sgn a b) =>
      let s2 := wakeCore c s1
      .next (endWait c 4 (bodyDiv sgn a b (waitAt c 4 s2) s2) s2)
    | .running => .next (takeTrap c s1)
    | _ => .next s1

/-- SYNC_COMPLETE: every condition of the mask holds (R201). -/
def execSyncComplete (c : CoreId) (s : State) : Out :=
  match (s.core c).run with
  | .waiting (.sync m) => if s.syncHolds c m then .next (endWait c 2 (.done false (wakeCore c s)) (wakeCore c s)) else .next s
  | _ => .next s

/-- WFI_COMPLETE: a source is deliverable (R205). On the management core it ends a nap, which held the core in WFI: it runs on where it stood (R385). -/
def execWfiComplete (c : CoreId) (s : State) : Out :=
  if (s.core c).run = .waiting .wfi ∧ s.domUp (coreDomain c) ∧ s.wfiHolds c then
    if c = 5 ∧ s.boot.nap then .next (leaveNap s) else .next (endWait c 4 (.done false (wakeCore c s)) (wakeCore c s))
  else .next s

/-- What an entry takes at its push and not at its checks: the ENTRY of its plane function and the key segment, as they stand then (R64, R85, R92). The check of
its fields against the key segment stands as it was made (R81; log entry 31). -/
def QEntry.atPush (q : QEntry) (c : CoreId) (s : State) : QEntry :=
  match s.drives c.val with
  | some p => { q with entry := if isUser q.op then fopEntry s q.op.toNat else q.entry, klen := BitVec.ofNat 13 (s.keyLen p), kbase := BitVec.ofNat 12 (s.keyBase p) }
  | none => q

/-- ARRAY_PUSH_RESUME: an entry has freed (R62 step 5). -/
def execArrayPushResume (c : CoreId) (s : State) : Out :=
  match (s.core c).run with
  | .waiting (.push q) =>
    if (s.seq c.val).full then .next s
    else .next (endWait c 8 (.done false (pushEntry c (q.atPush c s) (wakeCore c s))) (wakeCore c s))
  | _ => .next s

/-- The flags N Z C V of a coprocessor reply, at SR[3:0] (R222). -/
def copFlags (f : BitVec 4) : Word :=
  BitVec.ofNat 32 (b2n (f.getLsbD 3) + 2 * b2n (f.getLsbD 2) + 4 * b2n (f.getLsbD 1) + 8 * b2n (f.getLsbD 0))

/-- COP_REPLY: the outstanding request's reply, with its flags where valid; any other is discarded (R222, R346). -/
def execCopReply (c : CoreId) (tag : BitVec 4) (v : Word) (flags : Option (BitVec 4)) (s : State) : Out :=
  match (s.core c).run with
  | .waiting (.cop t d _ _ _ _ .sent) =>
    if t = tag ∧ s.portOpen c.val then
      let s1 := (wakeCore c s).modCore c (fun k =>
        let k1 := k.setReg d v
        match flags with | some f => { k1 with sr := mix k1.sr 0xf (copFlags f) } | none => k1)
      .next (endWait c 4 (.done (flags.any (·.getLsbD 0)) s1) (wakeCore c s))
    else .next s
  | _ => .next s

/-- COP_TIMEOUT: the request is withdrawn and the coprocessor exception is raised with subcode 2 (R223). -/
def execCopTimeout (c : CoreId) (s : State) : Out :=
  match (s.core c).run with
  | .waiting (.cop _ _ f _ _ _ _) => .next (endWait c 4 (.exc 10 2 f.toNat false (wakeCore c s)) (wakeCore c s))
  | _ => .next s

end Sys2Proof.Machine
end

