-- ==== Sys2Proof/Machine/Decley.lean ====
section
/-! DEFINITION. The scalar instructions of the Decley cores as commands (chapter 08). -/
namespace Sys2Proof.Machine

/-- NOP: nothing (Table DCY-7). -/
def execNop (c : CoreId) (s : State) : Out := .next (issue c 2 bodyNop s)

/-- MOV: d := a. -/
def execMov (c : CoreId) (d a : Reg) (s : State) : Out := .next (issue c 2 (bodyMov d a) s)

/-- ADD: d := a + b, NZCV (R206). -/
def execAdd (c : CoreId) (f : Form) (d a b : Reg) (s : State) : Out := .next (issue c (Form.bytes f) (bodyAdd d a b) s)

/-- SUB: d := a − b, NZCV (R206). -/
def execSub (c : CoreId) (f : Form) (d a b : Reg) (s : State) : Out := .next (issue c (Form.bytes f) (bodySub d a b) s)

/-- AND: d := a and b, NZ. -/
def execAnd (c : CoreId) (f : Form) (d a b : Reg) (s : State) : Out := .next (issue c (Form.bytes f) (bodyAnd d a b) s)

/-- OR: d := a or b, NZ. -/
def execOr (c : CoreId) (f : Form) (d a b : Reg) (s : State) : Out := .next (issue c (Form.bytes f) (bodyOr d a b) s)

/-- XOR: d := a xor b, NZ. -/
def execXor (c : CoreId) (f : Form) (d a b : Reg) (s : State) : Out := .next (issue c (Form.bytes f) (bodyXor d a b) s)

/-- ADC: d := a + b + C, NZCV. -/
def execAdc (c : CoreId) (d a b : Reg) (s : State) : Out := .next (issue c 4 (bodyAdc d a b) s)

/-- SBC: d := a − b − (1 − C), NZCV. -/
def execSbc (c : CoreId) (d a b : Reg) (s : State) : Out := .next (issue c 4 (bodySbc d a b) s)

/-- ANDN: d := a and not b, NZ. -/
def execAndn (c : CoreId) (d a b : Reg) (s : State) : Out := .next (issue c 4 (bodyAndn d a b) s)

/-- CMP: the flags of a − b. -/
def execCmp (c : CoreId) (f : Form) (a b : Reg) (s : State) : Out := .next (issue c (Form.bytes f) (bodyCompare a b) s)

/-- TST: the flags of a and b. -/
def execTst (c : CoreId) (a b : Reg) (s : State) : Out := .next (issue c 2 (bodyTst a b) s)

/-- NOT: d := not a, NZ. -/
def execNot (c : CoreId) (d a : Reg) (s : State) : Out := .next (issue c 2 (bodyNot d a) s)

/-- NEG: d := 0 − a, NZCV. -/
def execNeg (c : CoreId) (d a : Reg) (s : State) : Out := .next (issue c 2 (bodyNeg d a) s)

/-- ABS: d := |a|, NZV. -/
def execAbs (c : CoreId) (d a : Reg) (s : State) : Out := .next (issue c 2 (bodyAbs d a) s)

/-- SHL: d := a shifted by the full count in b, NZ (R208). -/
def execShl (c : CoreId) (f : Form) (d a b : Reg) (s : State) : Out := .next (issue c (Form.bytes f) (bodyShiftReg .shl d a b) s)

/-- SHR: d := a shifted by the full count in b, NZ (R208). -/
def execShr (c : CoreId) (f : Form) (d a b : Reg) (s : State) : Out := .next (issue c (Form.bytes f) (bodyShiftReg .shr d a b) s)

/-- SAR: d := a shifted by the full count in b, NZ (R208). -/
def execSar (c : CoreId) (f : Form) (d a b : Reg) (s : State) : Out := .next (issue c (Form.bytes f) (bodyShiftReg .sar d a b) s)

/-- SAL: d := a shifted by the full count in b, NZ and V (R208). -/
def execSal (c : CoreId) (f : Form) (d a b : Reg) (s : State) : Out := .next (issue c (Form.bytes f) (bodyShiftReg .sal d a b) s)

/-- ROL: d := a shifted by the full count in b, NZ (R208). -/
def execRol (c : CoreId) (f : Form) (d a b : Reg) (s : State) : Out := .next (issue c (Form.bytes f) (bodyShiftReg .rol d a b) s)

/-- ROR: d := a shifted by the full count in b, NZ (R208). -/
def execRor (c : CoreId) (f : Form) (d a b : Reg) (s : State) : Out := .next (issue c (Form.bytes f) (bodyShiftReg .ror d a b) s)

/-- MOVI: d := sext(imm). -/
def execMovi (c : CoreId) (d : Reg) (imm : BitVec 6) (s : State) : Out := .next (issue c 2 (bodyMovi d imm) s)

/-- ADDI: d := a + sext(imm), NZCV. -/
def execAddi (c : CoreId) (d a : Reg) (imm : Imm) (s : State) : Out := .next (issue c (immLen imm) (bodyAddi d a imm) s)

/-- CMPI: the flags of a − sext(imm). -/
def execCmpi (c : CoreId) (a : Reg) (imm : Imm) (s : State) : Out := .next (issue c (immLen imm) (bodyCmpi a imm) s)

/-- ANDI: d := a and zext(imm), NZ. -/
def execAndi (c : CoreId) (d a : Reg) (imm : BitVec 16) (s : State) : Out := .next (issue c 4 (bodyAndi d a imm) s)

/-- ORI: d := a or zext(imm), NZ. -/
def execOri (c : CoreId) (d a : Reg) (imm : BitVec 16) (s : State) : Out := .next (issue c 4 (bodyOri d a imm) s)

/-- XORI: d := a xor zext(imm), NZ. -/
def execXori (c : CoreId) (d a : Reg) (imm : BitVec 16) (s : State) : Out := .next (issue c 4 (bodyXori d a imm) s)

/-- TSTI: the flags of a and zext(imm). -/
def execTsti (c : CoreId) (a : Reg) (imm : BitVec 16) (s : State) : Out := .next (issue c 4 (bodyTsti a imm) s)

/-- LUI: d := imm × 65,536. -/
def execLui (c : CoreId) (d : Reg) (imm : BitVec 16) (s : State) : Out := .next (issue c 4 (bodyLui d imm) s)

/-- SHLI: d shifted by 0–63, NZ. -/
def execShli (c : CoreId) (d : Reg) (n : BitVec 6) (s : State) : Out := .next (issue c 2 (bodyShiftImm .shl d d n.toNat) s)

/-- SHRI: d shifted by 0–63, NZ. -/
def execShri (c : CoreId) (d : Reg) (n : BitVec 6) (s : State) : Out := .next (issue c 2 (bodyShiftImm .shr d d n.toNat) s)

/-- SARI: d shifted by 0–63, NZ. -/
def execSari (c : CoreId) (d : Reg) (n : BitVec 6) (s : State) : Out := .next (issue c 2 (bodyShiftImm .sar d d n.toNat) s)

/-- SHIFTI: the shift that sel names, by the full count n. -/
def execShifti (c : CoreId) (d a : Reg) (sel : Fin 6) (n : Byte) (s : State) : Out := .next (issue c 4 (bodyShiftImm (.ofSel sel.val) d a n.toNat) s)

/-- LD: d := zext(memory), a double-word into d and d + 1 (R210–R212). -/
def execLd (c : CoreId) (d : Reg) (m : MemOperand) (s : State) : Out := .next (issue c (memLen m) (bodyLd d m) s)

/-- ST: memory := the low SIZE of d, a double-word from d and d + 1. -/
def execSt (c : CoreId) (d : Reg) (m : MemOperand) (s : State) : Out := .next (issue c (memLen m) (bodySt d m) s)

/-- LDS: d := word SS:[SP + 4 × imm]. -/
def execLds (c : CoreId) (d : Reg) (imm : BitVec 6) (s : State) : Out := .next (issue c 2 (bodyLds d imm) s)

/-- STS: word SS:[SP + 4 × imm] := d. -/
def execSts (c : CoreId) (d : Reg) (imm : BitVec 6) (s : State) : Out := .next (issue c 2 (bodySts d imm) s)

/-- PUSH (R215). -/
def execPush (c : CoreId) (a : Reg) (s : State) : Out := .next (issue c 2 (bodyPush a) s)

/-- POP (R215). -/
def execPop (c : CoreId) (d : Reg) (s : State) : Out := .next (issue c 2 (bodyPop d) s)

/-- JR: PC := a (R211). -/
def execJr (c : CoreId) (a : Reg) (s : State) : Out := .next (issue c 2 (bodyJr a) s)

/-- CALLR: the return offset is pushed, PC := a. -/
def execCallr (c : CoreId) (a : Reg) (s : State) : Out := .next (issue c 2 (bodyCallr a) s)

/-- CALL: the return offset is pushed, PC := PC + 2 × off. -/
def execCall (c : CoreId) (off : BitVec 26) (s : State) : Out := .next (issue c 4 (bodyCall off) s)

/-- RET: PC is popped. -/
def execRet (c : CoreId) (s : State) : Out := .next (issue c 2 bodyRet s)

/-- RETI (R217, R235). -/
def execReti (c : CoreId) (s : State) : Out := .next (fetchThen c 2 (fun _ s1 => takeTrap c (reti c s1)) s)

/-- Length and displacement of a branch offset. -/
def branchOff : BranchOff → Nat × Word
  | .o9 v => (2, parcels v)
  | .o22 v => (4, parcels v)

/-- Bcc: PC := PC + 2 × off where the condition holds (R204). -/
def execBcc (c : CoreId) (cc : Fin 16) (off : BranchOff) (s : State) : Out := .next (issue c (branchOff off).1 (bodyBcc cc.val (branchOff off).2) s)

/-- LOOP: RC := RC − 1, and the branch unless RC is 0. -/
def execLoop (c : CoreId) (off : BitVec 22) (s : State) : Out := .next (issue c 4 (bodyLoop off) s)

/-- MFX: d := the register at selector 0x010 + sel (R197). -/
def execMfx (c : CoreId) (d : Reg) (sel : Fin 16) (s : State) : Out := .next (issue c 2 (bodyMfx d sel) s)

/-- MFS: d := the special register (R194, R197). -/
def execMfs (c : CoreId) (d : Reg) (sel : BitVec 12) (s : State) : Out := .next (issue c 4 (bodyMfs d sel) s)

/-- MTS: the special register := a (R194, R214). -/
def execMts (c : CoreId) (a : Reg) (sel : BitVec 12) (s : State) : Out := .next (issue c 4 (bodyMts a sel) s)

/-- PUSHS (R215). -/
def execPushs (c : CoreId) (sel : BitVec 12) (s : State) : Out := .next (issue c 4 (bodyPushs sel) s)

/-- POPS (R215). -/
def execPops (c : CoreId) (sel : BitVec 12) (s : State) : Out := .next (issue c 4 (bodyPops sel) s)

/-- MULU (R198, R208). -/
def execMulu (c : CoreId) (a b : Reg) (s : State) : Out := .next (issue c 4 (bodyMul false a b) s)

/-- MULS (R198, R208). -/
def execMuls (c : CoreId) (a b : Reg) (s : State) : Out := .next (issue c 4 (bodyMul true a b) s)

/-- DIVU (R198, R208). -/
def execDivu (c : CoreId) (a b : Reg) (s : State) : Out := .next (issue c 4 (bodyDiv false a b) s)

/-- DIVS (R198, R208). -/
def execDivs (c : CoreId) (a b : Reg) (s : State) : Out := .next (issue c 4 (bodyDiv true a b) s)

/-- SYNC (R201). -/
def execSync (c : CoreId) (mask : BitVec 4) (s : State) : Out := .next (issue c 2 (bodySync mask) s)

/-- REP (R219, R220). -/
def execRep (c : CoreId) (iters : Option Nat) (s : State) : Out := .next (prefix_ c false iters s)

/-- REPN (R219, R220). -/
def execRepn (c : CoreId) (s : State) : Out := .next (prefix_ c true none s)

/-- TRAP: vector 0x09 with INFO := imm. -/
def execTrap (c : CoreId) (imm : BitVec 12) (s : State) : Out := .next (issue c 4 (bodyTrap imm) s)

/-- WFI. -/
def execWfi (c : CoreId) (s : State) : Out := .next (issue c 4 bodyWfi s)

/-- COPn (R222, R223). -/
def execCopn (c : CoreId) (func : BitVec 6) (d a b : Reg) (imm : Byte) (s : State) : Out := .next (issue c 4 (bodyCop func d a b imm) s)

/-- ARRAY_INSTRUCTION: the checks of R62 and the push. -/
def execArrayInstruction (c : CoreId) (w : Dword) (s : State) : Out := .next (issue c 8 (bodyArray w) s)

/-- APRE (R103, R104). -/
def execApre (c : CoreId) (d : Reg) (s : State) : Out := .next (issue c 4 (bodyApre d) s)

/-- ARES (R108). -/
def execAres (c : CoreId) (s : State) : Out := .next (issue c 4 bodyAres s)

end Sys2Proof.Machine
end

