-- ==== Sys2Proof/Machine/DictServe.lean ====
section
/-! DEFINITION. Serving the Nazen dictionary: sessions, levels, refusals, reads, writes, transfers, commands, grants and transports
(R391–R396, R405, R407–R429). A request is taken up, served and answered in one command, but for the three that R423 lets run on. -/
namespace Sys2Proof.Machine

-- Transports (R397, R413, R418–R422)

/-- The name of a session, whatever the frame or the tag of a request (R410). -/
def sessKey : Session → Session
  | .can n _ => .can n CanFrame.any
  | .udp a p _ => .udp a p 0
  | x => x

/-- Message length L of a session (R413). -/
def msgLen : Session → Nat
  | .can _ f => if f.kind = .classic then 8 else 64
  | _ => 64

/-- Device address of the mailbox slot of function f (R422). -/
def slotAddr (f : Nat) : Nat := bankAddr 3 (f * 256)

/-- A word of a mailbox slot read by firmware. -/
def slotWord (a : Nat) (s : State) : Nat × State := let x := busRead .mgmt a 8 s; (ofBytes x.2.1, x.2.2)

/-- Bytes of a slot written by firmware, eight at a time. -/
def slotPut (a : Nat) (v : List Byte) (s : State) : State :=
  each (List.range (v.length / 8)) (fun i s => (busWrite .mgmt (a + 8 * i) ((v.drop (8 * i)).take 8) s).2) s

/-- Padding to a length with zeros. -/
def pad (n : Nat) (v : List Byte) : List Byte := v ++ List.replicate (n - v.length) 0

/-- Frames begun within a time. -/
def recent (now span : Nat) (l : List Nat) : List Nat := l.filter (fun t => decide (now < t + span))

/-- At most 2 CAN frames begin in any 1 ms (Table SEC-4). -/
def State.canRoom (s : State) : Bool := decide ((recent s.ran 1000000 s.dict.canBegun).length < 2)

/-- Data lengths of a CAN FD frame. -/
def canLengths : List Nat := [0, 1, 2, 3, 4, 5, 6, 7, 8, 12, 16, 20, 24, 32, 48, 64]

/-- A message in the smallest data length that holds it, its other bytes 0 (R413, R419). -/
def canData (m : List Byte) : List Byte := pad ((canLengths.find? (fun n => decide (m.length ≤ n))).getD 64) m

/-- A CAN frame begins. -/
def canBegin (m : Session × List Byte) (s : State) : State :=
  s.modDict (fun d => { d with out := d.out ++ [m], canBegun := s.ran :: recent s.ran 1000000 d.canBegun })

/-- A message that carries SEGNO where others carry the index: UPLOAD_REQ, UPLOAD_SEG, DOWNLOAD_ACK, DOWNLOAD_SEG (Tables DICT-3, DICT-4). -/
def isSegment (m : List Byte) : Bool := [0x13, 0x14, 0x23, 0x24].contains (ofBytes (m.take 1))

/-- The segment field of a CAN identifier: SEGNO mod 64 in segment messages, else 0 (Table DICT-6). -/
def idSegment (m : List Byte) : BitVec 6 := if isSegment m then BitVec.ofNat 6 (ofBytes ((m.drop 2).take 2)) else 0

/-- Where a response goes: on CAN in a frame of the request's format and priority, of service 0x02, to the node that asked (R419, Table DICT-6). -/
def respTo (x : Session) (m : List Byte) : Session :=
  match x with
  | .can n f => .can n { f with service := 2, dest := n, segment := idSegment m }
  | x => x

/-- A CAN frame is sent, or waits under the ceiling and is counted (Table SEC-4, CAN_CEIL). -/
def canSend (m : Session × List Byte) (s : State) : State :=
  if s.dict.canWait = [] ∧ s.canRoom then canBegin m s
  else (s.modDict (fun d => { d with canWait := d.canWait ++ [m] })).incF (cr 0x4d 0x10) 0 32 1

/-- An address of IPv4 (IPv4-mapped), of 128 bits. -/
def isIp4 (a : BitVec 128) : Bool := decide (a.toNat < 2 ^ 48)

/-- Bytes of an Ethernet frame that carries a message to a session: the headers of Ethernet, of IPv4 or IPv6 and of UDP, and the magic and tag of a Nazen
datagram (R369, R421). -/
def frameBytes (m : Session × List Byte) : Nat :=
  match m.1 with
  | .net .arp _ => 14 + m.2.length
  | .net .icmp _ => 34 + m.2.length
  | .net .icmp6 _ => 54 + m.2.length
  | .net .ptpEther _ => 14 + m.2.length
  | .net _ a => (if isIp4 a then 42 else 62) + m.2.length
  | .udp a _ _ => (if isIp4 a then 46 else 66) + m.2.length
  | _ => m.2.length

/-- MGE frames begun within a time. -/
def recentMge (now span : Nat) (l : List (Nat × Nat)) : List (Nat × Nat) := l.filter (fun t => decide (now < t.1 + span))

/-- The MGE ceilings allow a frame of n bytes: ETX × 1,000 frames a second, 100 Mbit/s over each 1 ms (Table SEC-4). -/
def State.mgeRoom (s : State) (n : Nat) : Bool :=
  decide ((recentMge s.ran 1000000000 s.dict.mgeBegun).length < Config.etx.toNat * 1000)
    && decide ((recentMge s.ran 1000000 s.dict.mgeBegun).foldl (fun k t => k + t.2) n ≤ 12500)

/-- What leaves the MGE for a frame, and the stamp of a PTP event message (R369). -/
def mgeLeave (m : Session × List Byte) (s : State) : (Session × List Byte) × State :=
  match m.1 with
  | .net kind _ =>
    let k := ptpKindOf m.2
    if (kind == .ptpEvent || kind == .ptpEther) && decide (ptpType m.2 < 4) && s.ptpStamps k then ((m.1, s.oneStep m.2), ptpStamp k true s) else (m, s)
  | _ => (m, s)

/-- An MGE frame begins. -/
def mgeBegin (m : Session × List Byte) (s : State) : State :=
  let x := mgeLeave m s
  x.2.modDict (fun d => { d with out := d.out ++ [x.1], mgeBegun := (s.ran, frameBytes m) :: recentMge s.ran 1000000000 d.mgeBegun })

/-- An MGE frame is sent, or waits under the ceilings and is counted (MGE_TXDLY). -/
def mgeSend (m : Session × List Byte) (s : State) : State :=
  if s.dict.mgeWait = [] ∧ s.mgeRoom (frameBytes m) then mgeBegin m s
  else (s.modDict (fun d => { d with mgeWait := d.mgeWait ++ [m] })).incF (cr 0x4c 0x10) 0 32 1

/-- A message goes to a session: into its mailbox slot, whose other bytes return to 0, with RSPSEQ last (Table DICT-7); or out of its port, in the request's frame
format and priority, or with its tag; a request to node 0 has no response (R419–R422). -/
def sendMsg (x : Session) (m : List Byte) (s : State) : State :=
  match x with
  | .mailbox f =>
    let a := slotAddr f.val
    slotPut (a + 0x80) (toBytes 8 (tget (konst 0) s.dict.served f.val).toNat) (slotPut (a + 0x88) (List.replicate 56 0) (slotPut (a + 0xC0) (pad 64 m) s))
  | .can _ f => if f.dest = 0 then s else canSend (respTo x m, canData m) s
  | _ => mgeSend (x, m) s

/-- What follows a response, once it has been sent (R420, R428). -/
def runAfter (a : After) (s : State) : State :=
  match a with
  | .canCtl lo len v => canWrite .mgmt 0 (setBits (s.r32 (cr 0x4d 0)) lo len v) s
  | .reset env => deviceReset 8 env s
  | .nap => enterNap s
  | .sleep => enterPilotSleep s

/-- It follows at once where the response of a session has left, else when the frames that wait at its port have. -/
def follow (x : Session) (a : After) (s : State) : State :=
  let waits := fun (p : Port) (n : Nat) => if n = 0 then runAfter a s else s.modDict (fun d => { d with due := d.due ++ [(p, n, a)] })
  match x with
  | .mailbox _ => runAfter a s
  | .can _ f => if f.dest = 0 then runAfter a s else waits .can s.dict.canWait.length
  | _ => waits .mge s.dict.mgeWait.length

/-- A frame of a port that waited has begun: what followed it happens. -/
def frameLeft (p : Port) (s : State) : State :=
  let l := s.dict.due.map (fun d => if d.1 = p then (d.1, d.2.1 - 1, d.2.2) else d)
  each ((l.filter (fun d => d.2.1 == 0)).map (·.2.2)) runAfter (s.modDict (fun d => { d with due := l.filter (fun d => d.2.1 != 0) }))

/-- TRANSMIT_CEILING_RELEASE: the oldest frame that waits starts. -/
def execTransmitCeilingRelease (p : Port) (s : State) : Out :=
  match p with
  | .mailbox => .next s
  | .can =>
    (match s.dict.canWait with
     | m :: ms => if s.canRoom then .next (frameLeft .can ((canBegin m s).modDict (fun d => { d with canWait := ms }))) else .next s
     | [] => .next s)
  | .mge =>
    (match s.dict.mgeWait with
     | m :: ms => if s.mgeRoom (frameBytes m) then .next (frameLeft .mge ((mgeBegin m s).modDict (fun d => { d with mgeWait := ms }))) else .next s
     | [] => .next s)

/-- A malformed message is counted at its port (R413). -/
def malformed (p : Port) (s : State) : State :=
  let k := match p with | .mailbox => 0 | .can => 1 | .mge => 2
  s.modDict (fun d => { d with malformed := tset (konst 0) d.malformed k (tget (konst 0) d.malformed k + 1) })

/-- A request whose CS is not listed, or whose reserved byte is not 0 (R413, Tables DICT-3, DICT-4). -/
def badMessage (m : List Byte) : Bool :=
  let cs := ofBytes (m.take 1)
  !([0x10, 0x13, 0x20, 0x22, 0x24, 0x7F].contains cs) || (isSegment m && ofBytes ((m.drop 1).take 1) != 0)

/-- A datagram that is dropped: fragmented, of a length outside 8–68, or without the magic (R421). -/
def dropped (d : List Byte) (fragment : Bool) : Bool :=
  fragment || decide (d.length < 8) || decide (68 < d.length) || ofBytes (d.take 2) != 0x4E5A

/-- MALFORMED_MESSAGE: a message that is malformed is counted at its port (R413); on the MGE a datagram that is dropped is counted in RXBAD instead (R421). -/
def execMalformedMessage (m : PortMessage) (s : State) : Out :=
  match m.port with
  | .mge =>
    if ¬ s.bit (cr 0x4c 0) 31 then .next s
    else if dropped m.bytes m.fragment then .next (s.incF (cr 0x4c 8) 0 16 1)
    else .next (when (badMessage (m.bytes.drop 4)) (malformed .mge) s)
  | .can => .next (when (badMessage m.bytes && s.bit (cr 0x4d 0) 31) (malformed .can) s)
  | .mailbox => .next (when (badMessage m.bytes) (malformed .mailbox) s)

/-- The MGE port and the protocol of an address are enabled (MGE_CTL). -/
def State.mgeOn (s : State) (a : BitVec 128) : Bool := s.bit (cr 0x4c 0) 31 && s.bit (cr 0x4c 0) (if isIp4 a then 25 else 26)

/-- A frame that the controller takes as a request: of 29 identifier bits, ISO where it is CAN FD, of service 0x01, to this node or to node 0 (R418, R419). -/
def canRequest (f : CanFrame) (own : Nat) : Bool :=
  f.ext && (f.kind == .classic || f.iso) && f.service == 1 && (f.dest.toNat == own || f.dest == 0)

/-- The firmware's port of a transport is enabled, and takes the message: sources 0 and 127 are ignored (R419). -/
def State.portUp (s : State) : Session → Bool
  | .mailbox _ => true
  | .can n f => s.bit (cr 0x4d 0) 31 && n != 0 && n != 127 && canRequest f (s.fld (cr 0x4d 0) 0 7)
  | .udp a _ _ => s.mgeOn a
  | .net _ _ => false

/-- Where a PTP message goes: to the multicast address, as an event or a general message, or over IEEE 802.3 (PRESUMED: IEEE 1588; log entry 44). -/
def ptpSession (f : PtpFrame) : Session :=
  let kind := if ptpType f.bytes < 4 then NetKind.ptpEvent else .ptpGeneral
  match f.carrier with
  | .ip4 => .net kind 0xffffe0000181
  | .ip6 => .net kind 0xff0e0000000000000000000000000181
  | .ether => .net .ptpEther 0

/-- PTP_EVENT_MESSAGE: with GM_ALLOW low a master message sent is discarded and counted, and with ROLE 0 none is sent; another goes out under the ceilings of the
port, and is stamped as it leaves; an event message received is stamped (R369, Table SEC-4). -/
def execPtpEventMessage (k : PtpKind) (f : PtpFrame) (s : State) : Out :=
  if f.outgoing ∧ ptpMaster k ∧ ¬ s.bit (cr 0 0x10) 7 then
    .next ((when (s.fld (tm 0x14) 0 16 == 0) (fun s => s.setB (tm 0x14) 28) s).incF (tm 0x14) 0 16 1)
  else if ¬ s.bit (cr 0x4c 0) 31 ∨ (f.carrier = .ip4 ∧ ¬ s.bit (cr 0x4c 0) 25) ∨ (f.carrier = .ip6 ∧ ¬ s.bit (cr 0x4c 0) 26) then .next s
  else if f.outgoing then
    (if ptpMaster k ∧ ¬ s.bit (cr 0x4c 0) 24 then .next s else .next (mgeSend (ptpSession f, f.bytes) s))
  else .next (when (s.ptpStamps k) (ptpStamp k false) s)

-- ARP, neighbour discovery and echo (R421; PRESUMED: RFC 826, 4861, 792, 4443; log entry 19)

/-- A number as n bytes, the highest first. -/
def netBytes (n v : Nat) : List Byte := (toBytes n v).reverse

/-- The Internet checksum of bytes. -/
def netSum : List Byte → Nat
  | [] => 0
  | [a] => a.toNat * 256
  | a :: b :: l => a.toNat * 256 + b.toNat + netSum l
@[inherit_doc netSum] def netCheck (b : List Byte) : Nat := let v := netSum b; let w := v / 65536 + v % 65536; 65535 - (w / 65536 + w % 65536) % 65536

/-- The part's IPv4 address, as IPv4-mapped, and its link-local IPv6 address, from the MAC. -/
def State.ip4 (s : State) : BitVec 128 := BitVec.ofNat 128 (0xffff * 2 ^ 32 + s.dval 0x1110 2)
@[inherit_doc State.ip4] def ip6 : BitVec 128 :=
  BitVec.ofNat 128 (0xfe80 * 2 ^ 112 + (mgeMac / 2 ^ 24 ^^^ 0x20000) * 2 ^ 40 + 0xfffe * 2 ^ 24 + mgeMac % 2 ^ 24)

/-- An ICMPv6 message with its checksum, which covers the addresses, the length and the protocol. -/
def icmp6 (src dst : BitVec 128) (kind : Nat) (rest : List Byte) : List Byte :=
  let body := fun (c : Nat) => [BitVec.ofNat 8 kind, 0] ++ netBytes 2 c ++ rest
  body (netCheck (netBytes 16 src.toNat ++ netBytes 16 dst.toNat ++ netBytes 4 (4 + rest.length) ++ netBytes 4 58 ++ body 0))

/-- The answer to a request of the network: its destination, and what the frame carries; none where it is for another, or its protocol is not enabled. -/
def State.netAnswer (s : State) : NetProbe → Option (Session × List Byte)
  | .arp mac ip target =>
    if s.mgeOn s.ip4 ∧ s.dval 0x1110 2 ≠ 0 ∧ target.toNat = s.ip4.toNat % 2 ^ 32 then
      some (.net .arp (BitVec.ofNat 128 (0xffff * 2 ^ 32 + ip.toNat)),
        netBytes 2 1 ++ netBytes 2 0x800 ++ [6, 4] ++ netBytes 2 2 ++ netBytes 6 mgeMac ++ netBytes 4 target.toNat ++ netBytes 6 mac.toNat ++ netBytes 4 ip.toNat)
    else none
  | .nd ip target =>
    if s.mgeOn ip6 ∧ target = ip6 then
      some (.net .icmp6 ip, icmp6 ip6 ip 136 ([0x60, 0, 0, 0] ++ netBytes 16 target.toNat ++ [2, 1] ++ netBytes 6 mgeMac))
    else none
  | .echo ip target body =>
    if isIp4 target then
      (if s.mgeOn s.ip4 ∧ s.dval 0x1110 2 ≠ 0 ∧ target = s.ip4 then
        some (.net .icmp ip, [0, 0] ++ netBytes 2 (netCheck ([0, 0, 0, 0] ++ body)) ++ body) else none)
    else if s.mgeOn ip6 ∧ target = ip6 then some (.net .icmp6 ip, icmp6 ip6 ip 129 body) else none

/-- The answer to a request of the network, sent where there is one. -/
def answerProbe (q : NetProbe) (s : State) : State := match s.netAnswer q with | some m => mgeSend m s | none => s

/-- ARP_ND_ICMP_ECHO: the device answers, and answers no other protocol (R421); which request came is the network's, a free value (log entry 2). -/
def execArpNdIcmpEcho (s : State) : Out :=
  .next (if s.boot.fw && s.domUp 32 && s.bit (cr 0x4c 0) 31 then answerProbe (Config.netProbe s.free) s.draw else s)

/-- The frame of a heartbeat: CAN FD, priority 6, service 0x03, to node 0. -/
def heartbeatFrame : CanFrame := ⟨.brs, true, true, 6, 3, 0, 0⟩

/-- HEARTBEAT: 12 bytes to node 0, where the period is not 0 (R420). -/
def execHeartbeat (s : State) : Out :=
  if s.boot.fw ∧ s.domUp 32 ∧ s.dval 0x1101 3 ≠ 0 ∧ s.bit (cr 0x4d 0) 31 then
    .next (canSend (.can 0 heartbeatFrame, toBytes 4 s.devState ++ toBytes 8 s.now.toNat) s)
  else .next s

-- Sessions (R410, R411)

/-- A session's record; a fresh one where it has none. -/
def State.sess (s : State) (x : Session) : Sess :=
  (s.dict.sess.find? (·.id == sessKey x)).getD ⟨sessKey x, none, none, s.ran, []⟩

/-- A UDP session. -/
def Sess.isUdp (k : Sess) : Bool := match k.id with | .udp _ _ _ => true | _ => false

/-- The UDP session that has been idle longest goes when 16 exist. -/
def evictUdp (l : List Sess) : List Sess :=
  let u := l.filter Sess.isUdp
  if u.length < 16 then l
  else match u with
    | [] => l
    | k :: ks => let o := ks.foldl (fun a b => if b.last < a.last then b else a) k; l.filter (·.id != o.id)

/-- A session's record replaced. -/
def putSess (k : Sess) (s : State) : State :=
  s.modDict (fun d =>
    if d.sess.any (·.id == k.id) then { d with sess := d.sess.map (fun x => if x.id = k.id then k else x) }
    else { d with sess := (if k.isUdp then evictUdp d.sess else d.sess) ++ [k] })

/-- A session's record changed. -/
def modSess (x : Session) (f : Sess → Sess) (s : State) : State := putSess (f (s.sess x)) s

/-- The session's level 3 still holds (R411). -/
def State.level3 (s : State) (x : Session) : Bool :=
  (s.sess x).level3.any (fun t => decide (s.now.toNat ≤ t.toNat)) && s.ceiling x == 3

/-- The level at which a request is served (R410, R411, R427). -/
def State.reqLevel (s : State) (x : Session) : Nat :=
  if s.boot.fw then (if s.level3 x then 3 else min (s.ceiling x) 2) else min (s.ceiling x) 1

/-- The dictionary answers a session (R427): firmware from B3, other transports once start-up has ended, the boot ROM over the mailbox. -/
def State.served (s : State) (x : Session) : Bool :=
  s.domUp 32 && !s.boot.trip && !s.boot.sleep && s.portUp x
    && (match x with
        | .mailbox _ => s.boot.fw || s.boot.rom
        | _ => s.boot.fw && s.devState != stBoot)

/-- A request reaches firmware: nap ends, an expired level 3 ends, the session is the last used; a mailbox request's REQSEQ is served (R385, R411, R422). -/
def takeUp (x : Session) (s : State) : State :=
  let s1 := leaveNap s
  let l3 := if s1.level3 x then (s1.sess x).level3 else none
  let s2 := modSess x (fun k => { k with level3 := l3, last := s1.ran }) s1
  match x with
  | .mailbox f =>
    let r := slotWord (slotAddr f.val) s2
    r.2.modDict (fun d => { d with served := tset (konst 0) d.served f.val (BitVec.ofNat 32 r.1) })
  | _ => s2

/-- A new request discards the session's open transfer (R417). -/
def dropXfer (x : Session) (s : State) : State := modSess x (fun k => { k with xfer := none }) s

-- Answers (Tables DICT-3, DICT-4, R424)

/-- The first four bytes of a message. -/
def hdr (cs sub i : Nat) : List Byte := [BitVec.ofNat 8 cs, BitVec.ofNat 8 sub] ++ toBytes 2 i

/-- WRITE_RSP. -/
def ackWrite (x : Session) (i sub : Nat) (s : State) : State := sendMsg x (hdr 0x21 sub i) s

/-- ABORT. -/
def sendAbort (x : Session) (i sub code : Nat) (s : State) : State := sendMsg x (hdr 0x7F sub i ++ toBytes 2 code) s

/-- A refusal: logged under the access-refusal class, and answered (R424). -/
def refuseReq (x : Session) (i sub code : Nat) (s : State) : State := sendAbort x i sub code (s.report 1 3 0 code (i * 256 + sub) code)

-- Checks in the order of Table DICT-5

/-- The boot set (R427). -/
def inBootSet (i : Nat) : Bool := i == 0x1000 || (decide (0x1020 ≤ i) && decide (i ≤ 0x1022)) || i == 0x1210 || i == 0x7300

/-- Reads by state (Table DICT-8): 0, 8 or 11. -/
def readState (st i : Nat) : Nat :=
  if inBootSet i then 0
  else if st = stBoot then 8
  else if st = stLocked ∧ ¬ ((0x8001 ≤ i ∧ i ≤ 0x8004) ∨ (0x8007 ≤ i ∧ i ≤ 0x8009)) then 11
  else 0

/-- Writes by state (Table DICT-8); `raise` for a write of 0x8006 that raises. Grants are judged by their kind. -/
def writeState (st i sub : Nat) (raise : Bool) : Nat :=
  if st = stBoot then 8
  else if i = 0x8002 ∨ i = 0x1030 ∧ (sub = 1 ∨ sub = 8) then 0
  else if i = 0x1030 ∧ (sub = 2 ∨ sub = 3) then (if st = stRun then 8 else if st = stReady ∨ st = stDegraded then 0 else 11)
  else if i = 0x8005 then (if st = stLocked then 8 else 0)
  else if st = stAlarm then (if i = 0x8006 ∧ raise then 0 else 11)
  else if st = stLocked then 11
  else 0

/-- Grants by kind and state (Table DICT-8). -/
def grantState (st kind : Nat) : Nat :=
  if st = stBoot then 8
  else if kind = 2 then (if st = stLocked then 0 else 8)
  else if kind = 3 then (if st = stReady ∨ st = stDegraded then 0 else 8)
  else 0

/-- A value for SEC_POL raises some policy and lowers none (R400). -/
def State.polRaise (s : State) (v : Nat) : Bool :=
  let old := s.r32 secPol
  let fs := (List.range 11).filter (· != 8)
  fs.all (fun k => decide (polRank (bits old (2 * k) 2) ≤ polRank (bits v (2 * k) 2)))
    && fs.any (fun k => decide (polRank (bits old (2 * k) 2) < polRank (bits v (2 * k) 2)))

/-- Index, subindex and access: 0 or a code, and the entry. -/
def findEntry (lvl : Nat) (write : Bool) (i sub : Nat) : Nat × DEntry :=
  let none_ : DEntry := roN 1
  if 0xA000 ≤ i ∧ i ≤ 0xAFFF ∧ lvl < 3 then (7, none_)
  else if ¬ hasIndex i then (1, none_)
  else match entryOf i sub with
    | none => (2, none_)
    | some e =>
      if write ∧ (e.acc = .ro ∨ e.acc = .const) then (3, e)
      else if ¬ write ∧ e.acc = .wo then (4, e)
      else (0, e)

/-- A physical function's mailbox alone writes the ceilings; function 128 is one where the link is bifurcated (R276, R412). -/
def State.mayCeiling (s : State) : Session → Bool
  | .mailbox f => s.isPf f.val
  | _ => false

/-- The checks that need no value, for a read. -/
def checkRead (x : Session) (i sub : Nat) (s : State) : Nat × DEntry :=
  let e := findEntry (s.reqLevel x) false i sub
  if e.1 ≠ 0 then e else if s.reqLevel x < e.2.rl then (7, e.2) else (readState s.devState i, e.2)

/-- An entry's own state rule refuses a write with 0x0008: the board origin while the router is enabled, PILOT_SLEEP while the link is awake, TAKEOVER while S4 stands
in (Tables DICT-9, DICT-11). -/
def State.entryRule (s : State) (i sub : Nat) : Bool :=
  (i == 0x4010 && s.srtOn) || (i == 0x1030 && ((sub == 3 && s.linkAwake) || (sub == 6 && s.arr.takeover.isSome)))

/-- The same for a write; v as far as it is known. -/
def checkWrite (x : Session) (i sub v : Nat) (s : State) : Nat × DEntry :=
  let e := findEntry (s.reqLevel x) true i sub
  if e.1 ≠ 0 then e
  else if s.reqLevel x < e.2.wl ∨ (i = 0x1200 ∧ ¬ s.mayCeiling x) then (7, e.2)
  else
    let st := writeState s.devState i sub (s.polRaise v)
    (if st = 0 ∧ s.entryRule i sub then 8 else st, e.2)

-- What a write does

/-- What a request came to: its refusal code or 0, the state, whether the answer is sent now, and what follows the answer. -/
structure Served where
  code : Nat
  st : State
  answer : Bool := true
  /-- the refusal is in the error log already -/
  logged : Bool := false
  after : Option After := none

/-- A refusal. -/
def deny (code : Nat) (s : State) : Served := { code := code, st := s }
/-- Success. -/
def grant_ (s : State) : Served := { code := 0, st := s }

/-- The argument is what the command requires. -/
def needArg (ok : Bool) (s : State) (r : Served) : Served := if ok then r else deny 6 s

-- STORE (R425, R426)

/-- The copy of the lower generation with a value and a result of STORE. -/
def DictState.putCopy (d : DictState) (c : StoreCopy → StoreCopy) (result : BitVec 16) : DictState :=
  if d.copyA.gen ≤ d.copyB.gen then { d with copyA := c d.copyA, result := result } else { d with copyB := c d.copyB, result := result }

/-- The copy of the lower generation takes the values, and once it verifies the next generation; the safe pulls go to the pilot. A copy that fails keeps its
generation, and the other stays in use (R425). -/
def storeAll (val : Nat × Nat → Nat) (s : State) : Served :=
  let vals := storedKeys.map (fun k => (dkey k.1 k.2, BitVec.ofNat 64 (val k)))
  let gen := max s.dict.copyA.gen s.dict.copyB.gen + 1
  if Config.storeFails s.free then deny 10 (s.draw.modDict (fun d => d.putCopy (fun c => { c with vals := vals, ok := false }) 10))
  else
    let put := fun (b : Nat) (l : Table Dword) => tset (konst 0x5555555555555555) l b (BitVec.ofNat 64 (val (0x6001, b + 1)))
    grant_ ((s.draw.modDict (fun d => d.putCopy (fun _ => { gen := gen, vals := vals }) 0)).modFab (fun f => { f with pulls := put 1 (put 0 f.pulls) }))

/-- An activity of the admission table that begins and ends in this command, or 0x0009 (R436, R438). -/
def whole (k unit arg : Nat) (s : State) (f : State → Served) : Served :=
  match s.admits (act k unit arg) with
  | (false, s1) => deny 9 s1
  | (true, s1) => let r := f s1; { r with st := r.st.release k unit }

/-- SVN_COMMIT: both images verify, and the count rises to the lower of their SVNs (R391). -/
def svnCommit (s : State) : Served :=
  if s.imageGood 0 ∧ s.imageGood 1 then
    let v := min (s.num (nvmBase + 0xC) 1) (s.num (nvmBase + 0x20000C) 1)
    grant_ (s.modSec (fun x => { x with svn := max x.svn v }))
  else deny 6 s

/-- The image written to region i lies within the n bytes that were written, and verifies (R390, R391). -/
def State.installed (s : State) (i n : Nat) : Bool := s.imageGood i && decide (s.num (nvmBase + i * 0x200000 + 8) 4 + 2820 ≤ n)

/-- FW_INSTALL of n bytes at an address, run: image B is written in full and verified, then image A; 0, or 6 where an image cannot be read or fails (R391). -/
def install (a n : Nat) (s : State) : Nat × State :=
  let x := memRead (7, 0) .mgmt a n s
  if x.1 ≠ .ok then (6, x.2.2)
  else
    let t := x.2.2.setBytes (nvmBase + 0x200000) x.2.1
    let u := t.setBytes nvmBase x.2.1
    if ¬ t.installed 1 n then (6, t) else (if u.installed 0 n then 0 else 6, u)

/-- FW_INSTALL is admitted, and runs while later requests are served (R423, R428). -/
def fwInstall (x : Session) (s : State) : Served :=
  let a := s.dval 0x1031 1
  let n := min (s.dval 0x1031 2) 0x200000
  if ¬ regionOk a n then deny 6 s
  else match s.admits (act 11 0 0) with
    | (false, s1) => deny 9 s1
    | (true, s1) => { code := 0, st := s1.modDict (fun d => { d with tasks := d.tasks ++ [.install x a n] }), answer := false }

/-- TAKEOVER as an operator commands it (R25). -/
def takeoverCmd (v : Nat) (s : State) : Served :=
  if h : v < 4 then whole 13 v 0 s (fun s => grant_ (takeover ⟨v, h⟩ s)) else deny 6 s

/-- A command of index 0x1030 with its argument (Table DICT-9). -/
def command (x : Session) (sub v : Nat) (env : BootEnv) (s : State) : Served :=
  match sub with
  | 1 => needArg (v == 0x5253) s { code := 0, st := s, after := some (.reset env) }
  | 2 => needArg (v == 0) s { code := 0, st := s, after := some .nap }
  | 3 => needArg (v == 0) s { code := 0, st := s, after := some .sleep }
  | 4 => needArg (v == 0) s (whole 12 0 0 s svnCommit)
  | 5 => needArg (v == 0) s (fwInstall x s)
  | 6 => takeoverCmd v s
  | 7 => needArg (decide (v ≤ 4)) s (grant_ (runCore v (resetCore v s)))
  | 8 => needArg (v == 0) s (grant_ (modSess x (fun k => { k with level3 := none }) s))
  | _ => needArg (v == 0) s (grant_ (fabWrite .mgmt 8 4 (2 ^ 30) s))

/-- Maintenance that starts, or that the admission table refuses with 0x0009; 0x0008 where nothing is left to start. -/
def maintStart (kind unit arg : Nat) (can : Bool) (f : State → State) (s : State) : Served :=
  if ¬ can then deny 8 s
  else match s.blocker (act kind unit arg) with
    | some b => deny 9 (s.refuse (act kind unit arg) b)
    | none => grant_ (f s)

/-- A maintenance activity of index 0x7100 (Table DICT-10). -/
def maintCmd (sub v : Nat) (s : State) : Served :=
  let tile := bits v 24 6
  let cl := bits v 16 7
  let col := bits v 0 9
  let edge := bits v 16 2
  let lane := bits v 0 6
  match sub with
  | 1 =>
    let pc := s.physOf tile cl
    needArg (decide (cl < 64) && decide (col < 288)) s (maintStart 1 pc v ((s.freeCols pc) != []) (startMigration pc col) s)
  | 2 =>
    let pc := s.physOf tile cl
    needArg (decide (cl < 64)) s (maintStart 2 pc v (s.canSubst pc && (s.freeCluster tile).isSome)
      (fun s => startSubst tile cl ((s.freeCluster tile).getD 64) s) s)
  | 3 => needArg (decide (lane < 34)) s (maintStart 5 edge v (s.laneState edge lane != 2 && s.laneState edge lane != 3) (fun s => (startRetrain edge lane s).2) s)
  | 4 => needArg (decide (lane < 34)) s (maintStart 5 edge v (s.laneState edge lane != 2) (fun s => (startRetire edge lane s).2) s)
  | 5 =>
    let n := bits v 24 2
    needArg (decide (bits v 20 2 < ringsOf n)) s
      (let cut := s.cutFree n (bits v 20 2) (bits v 16 4)
       let t := (ringRetire true n (bits v 20 2) (bits v 16 4) cut s).draw
       if s.fbusy n || s.rbusy n || (s.blocker (act 8 n v)).isSome then deny 9 t else grant_ t)
  | _ =>
    needArg (decide (v < 64)) s (maintStart 3 v v (s.bit (bk v 0x20) 31 && s.bankPwr v == 0 && !s.bankPend v) (rowTestStart v) s)

-- Attestation (R392–R394)

/-- Bytes 0x00–0xFF of the report (Table SEC-4A). -/
def reportBody (idx : Nat) (nonce : List Byte) (s : State) : List Byte :=
  let img := s.imageBase
  let c := s.storeCopy
  toBytes 4 0x54414E5A ++ toBytes 2 1 ++ toBytes 2 10149 ++ toBytes 8 Config.serial.toNat ++ toBytes 2 partCode ++ toBytes 2 0x00B0
    ++ [BitVec.ofNat 8 s.life, BitVec.ofNat 8 s.devState, BitVec.ofNat 8 (s.fld (cr 0 0x18) 8 1), BitVec.ofNat 8 s.sec.svn]
    ++ toBytes 4 (s.num (img + 4) 4) ++ toBytes 4 s.sec.total.toNat ++ toBytes 8 s.now.toNat ++ toBytes 8 idx ++ pad 32 (nonce.take 32)
    ++ pad 32 ((Config.shake256 (s.bytes img (s.num (img + 8) 4 + 2820))).take 32) ++ pad 32 ((Config.shake256 (Config.storeBytes c.gen c.vals)).take 32)
    ++ pad 32 ((Config.shake256 (Config.mapBytes (s.maps.map RepairRec.nums))).take 32) ++ pad 32 (s.fab.full.take 32) ++ List.replicate 48 0

/-- A task is an attestation. -/
def FwTask.signs : FwTask → Bool
  | .attest _ _ => true
  | .install _ _ _ => false

/-- H of the valid index record of the higher generation (R393). -/
def SecState.high (x : SecState) : Nat := if x.recA.1 < x.recB.1 then x.recB.2 else x.recA.2

/-- The next block of indices is reserved in the inactive record when the next index equals H (R393). -/
def reserve (s : State) : State :=
  if s.sec.next = s.sec.high then
    s.modSec (fun x => if x.recA.1 < x.recB.1 then { x with recA := (x.recB.1 + 1, x.high + 1024) } else { x with recB := (x.recA.1 + 1, x.high + 1024) })
  else s

/-- An attestation nonce written: a report is to be signed, one at a time (R394, R423). -/
def attest (x : Session) (nonce : List Byte) (s : State) : Served :=
  let reqs := s.sec.attests.filter (fun t => decide (s.ran < t + 1000000000))
  if s.life ≠ 1 ∨ s.sec.seeds = none then deny 8 s
  else if nonce.length ≠ 32 then deny 5 s
  else if 2 ^ 40 ≤ s.sec.next then deny 6 s
  else if s.dict.tasks.any FwTask.signs then deny 9 s
  else if 10 ≤ reqs.length then deny 12 s
  else
    let s1 := s.modSec (fun y => { y with attests := s.ran :: reqs })
    { code := 0, st := s1.modDict (fun d => { d with tasks := d.tasks ++ [.attest x nonce] }), answer := false }

/-- The report signed with the next index, and kept for its session (R393, R394). -/
def sign (x : Session) (nonce : List Byte) (s : State) : State :=
  let s1 := reserve s
  let idx := s1.sec.next
  let body := reportBody idx nonce s1
  modSess x (fun k => { k with report := body ++ (Config.identitySign s1.sec.enrol idx body).toList }) (s1.modSec (fun y => { y with next := idx + 1 }))

/-- Management firmware completes a task that runs, and answers it (R423). -/
def complete (t : FwTask) (s : State) : State :=
  match t with
  | .attest x nonce => ackWrite x 0x8005 1 (sign x nonce s)
  | .install x a n =>
    let r := install a n s
    let s1 := r.2.release 11 0
    if r.1 = 0 then ackWrite x 0x1030 5 s1 else refuseReq x 0x1030 5 r.1 s1

/-- Management firmware completes the oldest task that runs. -/
def fwTurn (s : State) : State :=
  match s.dict.tasks with
  | [] => s
  | t :: ts => complete t (s.modDict (fun d => { d with tasks := ts }))

-- Grants (R395, R396, R400, R405, R411)

/-- The kind that a blob states. -/
def grantKind (blob : List Byte) : Nat := (Config.grantFields (blob.take 64)).1

/-- The order TEST, SECURE, ENDED of a lifecycle code. -/
def lifeRank (c : Nat) : Nat := if c = 0 then 0 else if c = 1 then 1 else 2

/-- The target code programmed in the copies of the lifecycle field that do not fail; where the majority does not read it, the alarm log records the failure
under source 9 (R396; log entry 42). -/
def programLife (code : Nat) (s : State) : Served :=
  let bad := Config.otpFails s.free
  let t := s.draw.modSec (fun y => { y with life := (List.range y.life.length).map (fun i =>
    let c := y.life.getD i 0
    if bad.getLsbD i then c else c ||| BitVec.ofNat 2 code) })
  if t.lifeField = code then grant_ t else deny 10 (logAlarm ⟨t.now, 9, 0, BitVec.ofNat 8 t.devState, BitVec.ofNat 40 code⟩ t)

/-- What an accepted grant does: its kind, its argument and NOTAFTER. -/
def useGrant (x : Session) (g : Nat × Nat × Nat) (s : State) : Served :=
  match g.1 with
  | 1 => grant_ (if s.ceiling x = 3 then modSess x (fun k => { k with level3 := some (BitVec.ofNat 64 g.2.2) }) s else s)
  | 2 => { code := 0, st := s.modSec (fun y => { y with reenrol := some x }), answer := false }
  | 3 =>
    if (g.2.1 = 1 ∨ g.2.1 = 3) ∧ lifeRank s.lifeField < lifeRank g.2.1 then programLife g.2.1 s else deny 6 s
  | 4 => grant_ (s.modSec (fun y => { y with lower := (g.2.1 / 4, g.2.1 % 4, s.ran) :: y.lower }))
  | _ => deny 6 s

/-- A grant written to 0x8002. -/
def grantWrite (x : Session) (blob : List Byte) (s : State) : Served :=
  let k := grantKind blob
  if k = 3 ∧ s.reqLevel x < 2 then deny 7 s
  else if grantState s.devState k ≠ 0 then deny 8 s
  else if k = 2 ∧ s.life ≠ 1 then deny 8 s
  else if blob.length < 64 then deny 5 s
  else match grantCheck blob s with
    | (none, s1) => { code := 6, st := s1, logged := true }
    | (some g, s1) => if k = 2 ∧ s.sec.reenrol.isSome then deny 9 s1 else useGrant x g s1

/-- A write that has passed the checks without its value; `segmented` when it came as a transfer. -/
def writeValue (x : Session) (e : DEntry) (i sub : Nat) (v : List Byte) (segmented : Bool) (env : BootEnv) (s : State) : Served :=
  let n := ofBytes (v.take (e.size.getD 0))
  match e.size with
  | none =>
    if ¬ segmented ∨ 65536 < v.length then deny 5 s
    else if i = 0x8002 then grantWrite x v s
    else attest x v s
  | some z =>
    if v.length < z ∨ (segmented ∧ v.length ≠ z) then deny 5 s
    else if i = 0x1010 then needArg (n == 0x53544F52) s (whole 9 0 0 s (fun s => storeAll (fun k => entryVal 2 k.1 k.2 s) s))
    else if i = 0x1011 then needArg (n == 0x44464C54) s (whole 9 0 0 s (fun s => storeAll (fun k => s.entryDefault k.1 k.2) s))
    else if i = 0x1030 then command x sub n env s
    else if i = 0x7100 then maintCmd sub n s
    else if e.bool ∧ 2 ≤ n then deny 6 s
    else if i = 0x1100 ∨ i = 0x1101 ∧ sub ≠ 3 then
      (match canField i sub n with
       | some c => { code := 0, st := s, after := some (.canCtl c.1 c.2.1 c.2.2) }
       | none => deny 6 s)
    else let r := entryPut i sub n s; { code := r.1, st := r.2 }

/-- The answer to a write, and what follows it. -/
def answerWrite (x : Session) (i sub : Nat) (r : Served) : State :=
  if r.code = 0 then
    let s1 := if r.answer then ackWrite x i sub r.st else r.st
    match r.after with | some a => follow x a s1 | none => s1
  else if r.logged then sendAbort x i sub r.code r.st
  else refuseReq x i sub r.code r.st

/-- A whole value written to an entry: WRITE, or the end of a segmented write (R409, R424). -/
def applyWrite (x : Session) (i sub : Nat) (v : List Byte) (segmented : Bool) (env : BootEnv) (s : State) : State :=
  let c := checkWrite x i sub (ofBytes (v.take 4)) s
  answerWrite x i sub (if c.1 ≠ 0 then deny c.1 s else writeValue x c.2 i sub v segmented env s)

/-- A WRITE message (R414). -/
def serveWrite (x : Session) (i sub : Nat) (v : List Byte) (env : BootEnv) (s : State) : State :=
  if s.served x then applyWrite x i sub (v.take (msgLen x - 4)) false env (dropXfer x (takeUp x s)) else s

/-- A whole segmented write of an entry, its segments received. -/
def serveBlob (x : Session) (i sub : Nat) (v : List Byte) (s : State) : State :=
  if s.served x then applyWrite x i sub v true s.boot.env (dropXfer x (takeUp x s)) else s

-- Reads

/-- The bytes an entry reads as, or a refusal code. A read of 0x8001 issues a nonce, a read of 0x9001 sub 0x02 reads a register (R395, R430). -/
def readValue (x : Session) (e : DEntry) (i sub : Nat) (s : State) : Nat × List Byte × State :=
  if i = 0x8001 then
    let rs := s.sec.nonceReads.filter (fun t => decide (s.ran < t + 1000000000))
    if 10 ≤ rs.length then (12, [], s)
    else
      let v := pad 32 ((Config.random s.free).take 32)
      (0, v, s.draw.modSec (fun y => { y with nonce := some v, nonceReads := s.ran :: rs }))
  else if i = 0x8005 then (0, (s.sess x).report, s)
  else if i = 0x9001 ∧ sub = 2 then
    let a := s.dval 0x9001 1
    if 0x4200000000 ≤ a ∧ a ≤ 0x42FFFFFFFF then let r := busRead .mgmt a 8 s; (0, pad 8 r.2.1, r.2.2) else (6, [], s)
  else match e.size with
    | some n => (0, toBytes n (entryVal (s.reqLevel x) i sub s), s)
    | none => (0, entryBlob i sub s, s)

/-- A READ message: answered expedited, with UPLOAD_INIT, or refused (R414, R416). -/
def serveRead (x : Session) (i sub : Nat) (s : State) : State :=
  if s.served x then
    let s1 := dropXfer x (takeUp x s)
    let c := checkRead x i sub s1
    if c.1 ≠ 0 then refuseReq x i sub c.1 s1
    else
      let r := readValue x c.2 i sub s1
      if r.1 ≠ 0 then refuseReq x i sub r.1 r.2.2
      else if c.2.size.isSome ∧ r.2.1.length ≤ msgLen x - 4 then sendMsg x (hdr 0x11 sub i ++ r.2.1) r.2.2
      else
        sendMsg x (hdr 0x12 sub i ++ toBytes 4 r.2.1.length)
          (modSess x (fun k => { k with xfer := some ⟨false, BitVec.ofNat 16 i, BitVec.ofNat 8 sub, r.2.1.length, r.2.1, 0⟩ }) r.2.2)
  else s

-- Transfers (R415–R417)

/-- One segment of a snapshot. -/
def sendSeg (x : Session) (d : List Byte) (n : Nat) (s : State) : State :=
  sendMsg x (hdr 0x14 0 n ++ (d.drop (n * (msgLen x - 4))).take (msgLen x - 4)) s

/-- Segments that one UPLOAD_REQ draws: eight, or one into a mailbox slot, which holds one message. -/
def segsPer : Session → Nat
  | .mailbox _ => 1
  | _ => 8

/-- A frame's segment field is SEGNO mod 64; another is ignored (R419, Table DICT-6). -/
def segOk (x : Session) (n : Nat) : Bool := match x with | .can _ f => f.segment.toNat == n % 64 | _ => true

/-- An UPLOAD_REQ message. -/
def serveUpload (x : Session) (n : Nat) (s : State) : State :=
  if s.served x && segOk x n then
    let s1 := takeUp x s
    match (s1.sess x).xfer with
    | some t =>
      let w := msgLen x - 4
      let total := (t.len + w - 1) / w
      if t.down then refuseReq x 0 0 13 s1
      else if total ≤ n then refuseReq x t.index.toNat t.sub.toNat 6 s1
      else each (List.range (min (segsPer x) (total - n))) (fun k s => sendSeg x t.data (n + k) s) s1
    | none => refuseReq x 0 0 13 s1
  else s

/-- A length valid for an entry's type (R408, R415). -/
def lenOk (e : DEntry) (i n : Nat) : Bool :=
  match e.size with
  | some z => n == z
  | none => if i = 0x8005 then n == 32 else decide (n ≤ 65536)

/-- A DOWNLOAD_INIT message. -/
def serveDownload (x : Session) (i sub n : Nat) (s : State) : State :=
  if s.served x then
    let s1 := dropXfer x (takeUp x s)
    let c := checkWrite x i sub (2 ^ 32 - 1) s1
    if c.1 ≠ 0 then refuseReq x i sub c.1 s1
    else if ¬ lenOk c.2 i n then refuseReq x i sub 5 s1
    else sendMsg x (hdr 0x23 0 0) (modSess x (fun k => { k with xfer := some ⟨true, BitVec.ofNat 16 i, BitVec.ofNat 8 sub, n, [], 0⟩ }) s1)
  else s

/-- A DOWNLOAD_SEG message: out of order it is discarded; after the last the value is applied; a segment of a transfer that has been discarded is refused and leaves
another as it is (R415, R417). -/
def serveSeg (x : Session) (n : Nat) (d : List Byte) (s : State) : State :=
  if s.served x && segOk x n then
    let s1 := takeUp x s
    match (s1.sess x).xfer with
    | some t =>
      if ¬ t.down then refuseReq x 0 0 13 s1
      else if n ≠ t.seg % 65536 then sendMsg x (hdr 0x23 0 t.seg) s1
      else
        let got := t.data ++ d.take (min (msgLen x - 4) (t.len - t.data.length))
        let k := t.seg + 1
        if t.len ≤ got.length then
          applyWrite x t.index.toNat t.sub.toNat got true s1.boot.env (sendMsg x (hdr 0x23 0 k) (dropXfer x s1))
        else
          let s2 := modSess x (fun y => { y with xfer := some { t with data := got, seg := k } }) s1
          if k % 8 = 0 then sendMsg x (hdr 0x23 0 k) s2 else s2
    | none => refuseReq x 0 0 13 s1
  else s

/-- An ABORT message discards the transfer (R417). -/
def serveAbort (x : Session) (s : State) : State := if s.served x then dropXfer x (takeUp x s) else s

-- The mailbox (R422)

/-- A request message as its bytes state it; none where it is malformed (R413, Table DICT-4). -/
def serveMessage (x : Session) (m : List Byte) (s : State) : State :=
  let sub := ofBytes ((m.drop 1).take 1)
  let i := ofBytes ((m.drop 2).take 2)
  let body := m.drop 4
  if badMessage m then malformed .mailbox (takeUp x s)
  else match ofBytes (m.take 1) with
    | 0x10 => serveRead x i sub s
    | 0x13 => serveUpload x i s
    | 0x20 => serveWrite x i sub body s.boot.env s
    | 0x22 => serveDownload x i sub (ofBytes (body.take 4)) s
    | 0x24 => serveSeg x i body s
    | _ => serveAbort x s

/-- MAILBOX_POLL: on a new REQSEQ the request is copied with eight reads and served (R422). -/
def execMailboxPoll (f : FnId) (s : State) : Out :=
  let x : Session := .mailbox f
  if s.served x then
    let q := slotWord (slotAddr f.val) s
    if BitVec.ofNat 32 q.1 = tget (konst 0) s.dict.served f.val then .next q.2
    else
      let r := (List.range 8).foldl (fun (m, s) k => let w := slotWord (slotAddr f.val + 0x40 + 8 * k) s; (m ++ toBytes 8 w.1, w.2)) (([] : List Byte), q.2)
      .next (serveMessage x r.1 r.2)
  else .next s

-- The commands

/-- READ. -/
def execRead (x : Session) (i : BitVec 16) (sub : Byte) (s : State) : Out := .next (serveRead x i.toNat sub.toNat s)
/-- WRITE. -/
def execWrite (x : Session) (i : BitVec 16) (sub : Byte) (v : List Byte) (s : State) : Out := .next (serveWrite x i.toNat sub.toNat v s.boot.env s)
/-- UPLOAD_REQ. -/
def execUploadReq (x : Session) (n : BitVec 16) (s : State) : Out := .next (serveUpload x n.toNat s)
/-- DOWNLOAD_INIT. -/
def execDownloadInit (x : Session) (i : BitVec 16) (sub : Byte) (n : Word) (s : State) : Out := .next (serveDownload x i.toNat sub.toNat n.toNat s)
/-- DOWNLOAD_SEG. -/
def execDownloadSeg (x : Session) (n : BitVec 16) (d : List Byte) (s : State) : Out := .next (serveSeg x n.toNat d s)
/-- ABORT. -/
def execAbort (x : Session) (_code : BitVec 16) (s : State) : Out := .next (serveAbort x s)
/-- TRANSFER_TIMEOUT: no message from the client for 1 s (R417). -/
def execTransferTimeout (x : Session) (s : State) : Out :=
  if (s.sess x).xfer.isSome ∧ (s.sess x).last + 1000000000 ≤ s.ran then .next (dropXfer x s) else .next s

/-- STORE. -/
def execStore (x : Session) (v : Word) (s : State) : Out := .next (serveWrite x 0x1010 0 (toBytes 4 v.toNat) s.boot.env s)
/-- RESTORE_DEFAULTS. -/
def execRestoreDefaults (x : Session) (v : Word) (s : State) : Out := .next (serveWrite x 0x1011 0 (toBytes 4 v.toNat) s.boot.env s)
/-- RESET. -/
def execReset (x : Session) (v : Word) (env : BootEnv) (s : State) : Out := .next (serveWrite x 0x1030 1 (toBytes 4 v.toNat) env s)
/-- NAP. -/
def execNap (x : Session) (v : Word) (s : State) : Out := .next (serveWrite x 0x1030 2 (toBytes 4 v.toNat) s.boot.env s)
/-- PILOT_SLEEP. -/
def execPilotSleep (x : Session) (v : Word) (s : State) : Out := .next (serveWrite x 0x1030 3 (toBytes 4 v.toNat) s.boot.env s)
/-- SVN_COMMIT. -/
def execSvnCommit (x : Session) (v : Word) (s : State) : Out := .next (serveWrite x 0x1030 4 (toBytes 4 v.toNat) s.boot.env s)
/-- FW_INSTALL. -/
def execFwInstall (x : Session) (v : Word) (s : State) : Out := .next (serveWrite x 0x1030 5 (toBytes 4 v.toNat) s.boot.env s)
/-- SEQ_RESET. -/
def execSeqReset (x : Session) (v : Word) (s : State) : Out := .next (serveWrite x 0x1030 7 (toBytes 4 v.toNat) s.boot.env s)
/-- LOGOUT. -/
def execLogout (x : Session) (v : Word) (s : State) : Out := .next (serveWrite x 0x1030 8 (toBytes 4 v.toNat) s.boot.env s)
/-- FAB_CLEAR. -/
def execFabClear (x : Session) (v : Word) (s : State) : Out := .next (serveWrite x 0x1030 9 (toBytes 4 v.toNat) s.boot.env s)
/-- REGISTER_DATA_READ. -/
def execRegisterDataRead (x : Session) (s : State) : Out := .next (serveRead x 0x9001 2 s)
/-- MAINT_COLUMN_MIGRATION. -/
def execMaintColumnMigration (x : Session) (v : Word) (s : State) : Out := .next (serveWrite x 0x7100 1 (toBytes 4 v.toNat) s.boot.env s)
/-- MAINT_CLUSTER_SUBSTITUTION. -/
def execMaintClusterSubstitution (x : Session) (v : Word) (s : State) : Out := .next (serveWrite x 0x7100 2 (toBytes 4 v.toNat) s.boot.env s)
/-- MAINT_LANE_RETRAIN. -/
def execMaintLaneRetrain (x : Session) (v : Word) (s : State) : Out := .next (serveWrite x 0x7100 3 (toBytes 4 v.toNat) s.boot.env s)
/-- MAINT_LANE_RETIREMENT. -/
def execMaintLaneRetirement (x : Session) (v : Word) (s : State) : Out := .next (serveWrite x 0x7100 4 (toBytes 4 v.toNat) s.boot.env s)
/-- MAINT_RING_SEGMENT_RETIREMENT. -/
def execMaintRingSegmentRetirement (x : Session) (v : Word) (s : State) : Out := .next (serveWrite x 0x7100 5 (toBytes 4 v.toNat) s.boot.env s)
/-- MAINT_BANK_ROW_TEST. -/
def execMaintBankRowTest (x : Session) (v : Word) (s : State) : Out := .next (serveWrite x 0x7100 6 (toBytes 4 v.toNat) s.boot.env s)

/-- GRANT_NONCE. -/
def execGrantNonce (x : Session) (s : State) : Out := .next (serveRead x 0x8001 0 s)
/-- A grant of a kind written to 0x8002, its transfer complete. -/
def serveGrant (x : Session) (kind : Nat) (blob : List Byte) (s : State) : State := if grantKind blob = kind then serveBlob x 0x8002 0 blob s else s
/-- GRANT_SESSION. -/
def execGrantSession (x : Session) (blob : List Byte) (s : State) : Out := .next (serveGrant x 1 blob s)
/-- GRANT_REENROLMENT. -/
def execGrantReenrolment (x : Session) (blob : List Byte) (s : State) : Out := .next (serveGrant x 2 blob s)
/-- GRANT_LIFECYCLE. -/
def execGrantLifecycle (x : Session) (blob : List Byte) (s : State) : Out := .next (serveGrant x 3 blob s)
/-- GRANT_POLICY. -/
def execGrantPolicy (x : Session) (blob : List Byte) (s : State) : Out := .next (serveGrant x 4 blob s)
/-- ATTESTATION. -/
def execAttestation (x : Session) (nonce : List Byte) (s : State) : Out := .next (serveBlob x 0x8005 1 nonce s)

/-- REENROLMENT_COMPLETE: a new identity, index records of H = 0, a new alarm log, SEC_ALARM cleared; the grant's write is answered (R405). -/
def execReenrolmentComplete (s : State) : Out :=
  match s.sec.reenrol with
  | some x =>
    let s1 := s.draw.modSec (fun y => { y with
      enrol := y.enrol + 1, seeds := some (Config.wrap Config.wrapSecret (Config.random s.free)), recA := (1, 0), recB := (0, 0), next := 0, oldLogs := y.oldLogs ++ [y.log], log := [], part := [], total := 0
      erased := false, reenrol := none })
    .next (ackWrite x 0x8002 0 (s1.setF secAlarm 0 11 0))
  | none => .next s

-- What happens when no command waits

/-- A step on an empty queue: device time advances by a tick (R366), management firmware completes a task that runs (R423), the CAN bus may move its error counters
(R431), and a running design takes its turn (log entries 6, 19, 41). -/
def idleStep (s : State) : State := designTurn s.ran (canTurn (fwTurn (tick s)))

end Sys2Proof.Machine
end

