-- ==== Sys2Proof/Machine/Life.lean ====
section
/-! DEFINITION. The persistent fault log and the slices of the NVM writer (R437, R441). -/
namespace Sys2Proof.Machine

/-- FAULT_LOG_WRITE: the oldest permanent report goes into its slot, then the header counts it (R441). -/
def execFaultLogWrite (s : State) : Out :=
  match s.flogDue with
  | [] => .next s
  | e :: es =>
    if s.boot.fw ∧ s.domUp 32 then
      let n := s.flogTotal
      let s1 := s.setBytes (flogSlot (flogNext n)) (toBytes 32 e.word)
      .next { s1.setBytes (flogSlot 0) (toBytes 8 (n + 1)) with flogDue := es }
    else .next s

/-- NVM_SLICE_BOUNDARY: STORE or FW_INSTALL gives the NVM writer to the oldest repair-map record that waits (R437). -/
def execNvmSliceBoundary (s : State) : Out := if s.writerHeld then .next (writeMap s) else .next s

end Sys2Proof.Machine
end

