-- ==== Sys2Proof/Machine/Dispatch.lean ====
section
/-! DEFINITION. The effect of each command: one meaning per command. -/
namespace Sys2Proof.Machine

/-- The effect of a command on everything but the queue. -/
def exec (i : Instr) (s : State) : Host.Outcome State Fault Refusal :=
  match i with
  | .arrayInstruction x0 x1 => Sys2Proof.Machine.execArrayInstruction x0 x1 s
  | .arrayPushResume x0 => Sys2Proof.Machine.execArrayPushResume x0 s
  | .anop x0 => Sys2Proof.Machine.execAnop x0 s
  | .arrayMov x0 => Sys2Proof.Machine.execArrayMov x0 s
  | .movb x0 => Sys2Proof.Machine.execMovb x0 s
  | .arrayNot x0 => Sys2Proof.Machine.execArrayNot x0 s
  | .arrayAnd x0 => Sys2Proof.Machine.execArrayAnd x0 s
  | .arrayOr x0 => Sys2Proof.Machine.execArrayOr x0 s
  | .arrayXor x0 => Sys2Proof.Machine.execArrayXor x0 s
  | .arrayAndn x0 => Sys2Proof.Machine.execArrayAndn x0 s
  | .andb x0 => Sys2Proof.Machine.execAndb x0 s
  | .orb x0 => Sys2Proof.Machine.execOrb x0 s
  | .xorb x0 => Sys2Proof.Machine.execXorb x0 s
  | .emov x0 => Sys2Proof.Machine.execEmov x0 s
  | .kpush x0 => Sys2Proof.Machine.execKpush x0 s
  | .kelse x0 => Sys2Proof.Machine.execKelse x0 s
  | .kpop x0 => Sys2Proof.Machine.execKpop x0 s
  | .eclr x0 => Sys2Proof.Machine.execEclr x0 s
  | .arrayAdd x0 => Sys2Proof.Machine.execArrayAdd x0 s
  | .arraySub x0 => Sys2Proof.Machine.execArraySub x0 s
  | .addb x0 => Sys2Proof.Machine.execAddb x0 s
  | .subb x0 => Sys2Proof.Machine.execSubb x0 s
  | .rsubb x0 => Sys2Proof.Machine.execRsubb x0 s
  | .arrayNeg x0 => Sys2Proof.Machine.execArrayNeg x0 s
  | .arrayAbs x0 => Sys2Proof.Machine.execArrayAbs x0 s
  | .mul x0 x1 => Sys2Proof.Machine.execMul x0 x1 s
  | .mulw x0 x1 => Sys2Proof.Machine.execMulw x0 x1 s
  | .div x0 x1 => Sys2Proof.Machine.execDiv x0 x1 s
  | .cmpeq x0 => Sys2Proof.Machine.execCmpeq x0 s
  | .cmpne x0 => Sys2Proof.Machine.execCmpne x0 s
  | .cmplt x0 => Sys2Proof.Machine.execCmplt x0 s
  | .cmple x0 => Sys2Proof.Machine.execCmple x0 s
  | .cmpgt x0 => Sys2Proof.Machine.execCmpgt x0 s
  | .cmpge x0 => Sys2Proof.Machine.execCmpge x0 s
  | .testz x0 => Sys2Proof.Machine.execTestz x0 s
  | .testnz x0 => Sys2Proof.Machine.execTestnz x0 s
  | .cmpeqb x0 => Sys2Proof.Machine.execCmpeqb x0 s
  | .cmpneb x0 => Sys2Proof.Machine.execCmpneb x0 s
  | .cmpltb x0 => Sys2Proof.Machine.execCmpltb x0 s
  | .cmpleb x0 => Sys2Proof.Machine.execCmpleb x0 s
  | .cmpgtb x0 => Sys2Proof.Machine.execCmpgtb x0 s
  | .cmpgeb x0 => Sys2Proof.Machine.execCmpgeb x0 s
  | .find x0 => Sys2Proof.Machine.execFind x0 s
  | .matchMasked x0 => Sys2Proof.Machine.execMatchMasked x0 s
  | .selfirst x0 => Sys2Proof.Machine.execSelfirst x0 s
  | .any x0 => Sys2Proof.Machine.execAny x0 s
  | .count x0 => Sys2Proof.Machine.execCount x0 s
  | .readout x0 => Sys2Proof.Machine.execReadout x0 s
  | .arrayShl x0 => Sys2Proof.Machine.execArrayShl x0 s
  | .arrayShr x0 => Sys2Proof.Machine.execArrayShr x0 s
  | .arraySar x0 => Sys2Proof.Machine.execArraySar x0 s
  | .arrayRol x0 => Sys2Proof.Machine.execArrayRol x0 s
  | .arrayRor x0 => Sys2Proof.Machine.execArrayRor x0 s
  | .nmov x0 => Sys2Proof.Machine.execNmov x0 s
  | .hashKr x0 => Sys2Proof.Machine.execHashKr x0 s
  | .fabricPlaneFunction x0 x1 => Sys2Proof.Machine.execFabricPlaneFunction x0 x1 s
  | .parityReload x0 => Sys2Proof.Machine.execParityReload x0 s
  | .waitLimit x0 => Sys2Proof.Machine.execWaitLimit x0 s
  | .runLimit x0 => Sys2Proof.Machine.execRunLimit x0 s
  | .heldMicrowordRelease x0 x1 => Sys2Proof.Machine.execHeldMicrowordRelease x0 x1 s
  | .microstoreWrite x0 x1 x2 x3 => Sys2Proof.Machine.execMicrostoreWrite x0 x1 x2 x3 s
  | .autoSwap x0 => Sys2Proof.Machine.execAutoSwap x0 s
  | .apre x0 x1 => Sys2Proof.Machine.execApre x0 x1 s
  | .suspension x0 => Sys2Proof.Machine.execSuspension x0 s
  | .apreNoRp x0 => Sys2Proof.Machine.execApreNoRp x0 s
  | .ares x0 => Sys2Proof.Machine.execAres x0 s
  | .resumeRestore x0 => Sys2Proof.Machine.execResumeRestore x0 s
  | .resume x0 x1 => Sys2Proof.Machine.execResume x0 x1 s
  | .flush x0 x1 => Sys2Proof.Machine.execFlush x0 x1 s
  | .shapeWrite x0 x1 => Sys2Proof.Machine.execShapeWrite x0 x1 s
  | .shapeTakesEffect => Sys2Proof.Machine.execShapeTakesEffect s
  | .edgeModeWrite x0 x1 x2 => Sys2Proof.Machine.execEdgeModeWrite x0 x1 x2 s
  | .keysegWrite x0 x1 x2 => Sys2Proof.Machine.execKeysegWrite x0 x1 x2 s
  | .fopWrite x0 x1 x2 => Sys2Proof.Machine.execFopWrite x0 x1 x2 s
  | .takeover x0 => Sys2Proof.Machine.execTakeover x0 s
  | .wickLanding x0 => Sys2Proof.Machine.execWickLanding x0 s
  | .countLanding x0 => Sys2Proof.Machine.execCountLanding x0 s
  | .firstResponderLanding x0 => Sys2Proof.Machine.execFirstResponderLanding x0 s
  | .deviceScopeMatch x0 => Sys2Proof.Machine.execDeviceScopeMatch x0 s
  | .reductionFlitReceive x0 x1 => Sys2Proof.Machine.execReductionFlitReceive x0 x1 s
  | .edgeVectorReceive x0 x1 x2 => Sys2Proof.Machine.execEdgeVectorReceive x0 x1 x2 s
  | .go x0 x1 => Sys2Proof.Machine.execGo x0 x1 s
  | .cancel x0 x1 => Sys2Proof.Machine.execCancel x0 x1 s
  | .enginePass x0 x1 => Sys2Proof.Machine.execEnginePass x0 x1 s
  | .fill x0 => Sys2Proof.Machine.execFill x0 s
  | .capture x0 => Sys2Proof.Machine.execCapture x0 s
  | .fabricTimeout x0 => Sys2Proof.Machine.execFabricTimeout x0 s
  | .stagingScrub x0 => Sys2Proof.Machine.execStagingScrub x0 s
  | .stackRefreshAdjust x0 x1 => Sys2Proof.Machine.execStackRefreshAdjust x0 x1 s
  | .scrubPassStart => Sys2Proof.Machine.execScrubPassStart s
  | .scrubStep x0 => Sys2Proof.Machine.execScrubStep x0 s
  | .counterWindowEnd x0 => Sys2Proof.Machine.execCounterWindowEnd x0 s
  | .columnMigration x0 x1 => Sys2Proof.Machine.execColumnMigration x0 x1 s
  | .migrationCopyStep x0 => Sys2Proof.Machine.execMigrationCopyStep x0 s
  | .forcedSteal x0 => Sys2Proof.Machine.execForcedSteal x0 s
  | .columnSwitch x0 => Sys2Proof.Machine.execColumnSwitch x0 s
  | .clusterSubstitution x0 x1 => Sys2Proof.Machine.execClusterSubstitution x0 x1 s
  | .clusterSubstitutionSwitch x0 => Sys2Proof.Machine.execClusterSubstitutionSwitch x0 s
  | .repairMapWrite => Sys2Proof.Machine.execRepairMapWrite s
  | .nop x0 => Sys2Proof.Machine.execNop x0 s
  | .mov x0 x1 x2 => Sys2Proof.Machine.execMov x0 x1 x2 s
  | .add x0 x1 x2 x3 x4 => Sys2Proof.Machine.execAdd x0 x1 x2 x3 x4 s
  | .adc x0 x1 x2 x3 => Sys2Proof.Machine.execAdc x0 x1 x2 x3 s
  | .sub x0 x1 x2 x3 x4 => Sys2Proof.Machine.execSub x0 x1 x2 x3 x4 s
  | .sbc x0 x1 x2 x3 => Sys2Proof.Machine.execSbc x0 x1 x2 x3 s
  | .and x0 x1 x2 x3 x4 => Sys2Proof.Machine.execAnd x0 x1 x2 x3 x4 s
  | .or x0 x1 x2 x3 x4 => Sys2Proof.Machine.execOr x0 x1 x2 x3 x4 s
  | .xor x0 x1 x2 x3 x4 => Sys2Proof.Machine.execXor x0 x1 x2 x3 x4 s
  | .andn x0 x1 x2 x3 => Sys2Proof.Machine.execAndn x0 x1 x2 x3 s
  | .cmp x0 x1 x2 x3 => Sys2Proof.Machine.execCmp x0 x1 x2 x3 s
  | .tst x0 x1 x2 => Sys2Proof.Machine.execTst x0 x1 x2 s
  | .not x0 x1 x2 => Sys2Proof.Machine.execNot x0 x1 x2 s
  | .neg x0 x1 x2 => Sys2Proof.Machine.execNeg x0 x1 x2 s
  | .abs x0 x1 x2 => Sys2Proof.Machine.execAbs x0 x1 x2 s
  | .shl x0 x1 x2 x3 x4 => Sys2Proof.Machine.execShl x0 x1 x2 x3 x4 s
  | .shr x0 x1 x2 x3 x4 => Sys2Proof.Machine.execShr x0 x1 x2 x3 x4 s
  | .sar x0 x1 x2 x3 x4 => Sys2Proof.Machine.execSar x0 x1 x2 x3 x4 s
  | .sal x0 x1 x2 x3 x4 => Sys2Proof.Machine.execSal x0 x1 x2 x3 x4 s
  | .rol x0 x1 x2 x3 x4 => Sys2Proof.Machine.execRol x0 x1 x2 x3 x4 s
  | .ror x0 x1 x2 x3 x4 => Sys2Proof.Machine.execRor x0 x1 x2 x3 x4 s
  | .movi x0 x1 x2 => Sys2Proof.Machine.execMovi x0 x1 x2 s
  | .addi x0 x1 x2 x3 => Sys2Proof.Machine.execAddi x0 x1 x2 x3 s
  | .cmpi x0 x1 x2 => Sys2Proof.Machine.execCmpi x0 x1 x2 s
  | .andi x0 x1 x2 x3 => Sys2Proof.Machine.execAndi x0 x1 x2 x3 s
  | .ori x0 x1 x2 x3 => Sys2Proof.Machine.execOri x0 x1 x2 x3 s
  | .xori x0 x1 x2 x3 => Sys2Proof.Machine.execXori x0 x1 x2 x3 s
  | .tsti x0 x1 x2 => Sys2Proof.Machine.execTsti x0 x1 x2 s
  | .lui x0 x1 x2 => Sys2Proof.Machine.execLui x0 x1 x2 s
  | .shli x0 x1 x2 => Sys2Proof.Machine.execShli x0 x1 x2 s
  | .shri x0 x1 x2 => Sys2Proof.Machine.execShri x0 x1 x2 s
  | .sari x0 x1 x2 => Sys2Proof.Machine.execSari x0 x1 x2 s
  | .shifti x0 x1 x2 x3 x4 => Sys2Proof.Machine.execShifti x0 x1 x2 x3 x4 s
  | .ld x0 x1 x2 => Sys2Proof.Machine.execLd x0 x1 x2 s
  | .st x0 x1 x2 => Sys2Proof.Machine.execSt x0 x1 x2 s
  | .lds x0 x1 x2 => Sys2Proof.Machine.execLds x0 x1 x2 s
  | .sts x0 x1 x2 => Sys2Proof.Machine.execSts x0 x1 x2 s
  | .push x0 x1 => Sys2Proof.Machine.execPush x0 x1 s
  | .pop x0 x1 => Sys2Proof.Machine.execPop x0 x1 s
  | .jr x0 x1 => Sys2Proof.Machine.execJr x0 x1 s
  | .callr x0 x1 => Sys2Proof.Machine.execCallr x0 x1 s
  | .call x0 x1 => Sys2Proof.Machine.execCall x0 x1 s
  | .ret x0 => Sys2Proof.Machine.execRet x0 s
  | .reti x0 => Sys2Proof.Machine.execReti x0 s
  | .bcc x0 x1 x2 => Sys2Proof.Machine.execBcc x0 x1 x2 s
  | .loop x0 x1 => Sys2Proof.Machine.execLoop x0 x1 s
  | .mfx x0 x1 x2 => Sys2Proof.Machine.execMfx x0 x1 x2 s
  | .mfs x0 x1 x2 => Sys2Proof.Machine.execMfs x0 x1 x2 s
  | .mts x0 x1 x2 => Sys2Proof.Machine.execMts x0 x1 x2 s
  | .pushs x0 x1 => Sys2Proof.Machine.execPushs x0 x1 s
  | .pops x0 x1 => Sys2Proof.Machine.execPops x0 x1 s
  | .mulu x0 x1 x2 => Sys2Proof.Machine.execMulu x0 x1 x2 s
  | .muls x0 x1 x2 => Sys2Proof.Machine.execMuls x0 x1 x2 s
  | .divu x0 x1 x2 => Sys2Proof.Machine.execDivu x0 x1 x2 s
  | .divs x0 x1 x2 => Sys2Proof.Machine.execDivs x0 x1 x2 s
  | .multiplyLanding x0 => Sys2Proof.Machine.execMultiplyLanding x0 s
  | .divideLanding x0 => Sys2Proof.Machine.execDivideLanding x0 s
  | .sync x0 x1 => Sys2Proof.Machine.execSync x0 x1 s
  | .syncComplete x0 => Sys2Proof.Machine.execSyncComplete x0 s
  | .rep x0 x1 => Sys2Proof.Machine.execRep x0 x1 s
  | .repn x0 => Sys2Proof.Machine.execRepn x0 s
  | .trap x0 x1 => Sys2Proof.Machine.execTrap x0 x1 s
  | .wfi x0 => Sys2Proof.Machine.execWfi x0 s
  | .wfiComplete x0 => Sys2Proof.Machine.execWfiComplete x0 s
  | .copn x0 x1 x2 x3 x4 x5 => Sys2Proof.Machine.execCopn x0 x1 x2 x3 x4 x5 s
  | .copReply x0 x1 x2 x3 => Sys2Proof.Machine.execCopReply x0 x1 x2 x3 s
  | .copTimeout x0 => Sys2Proof.Machine.execCopTimeout x0 s
  | .slockWrite x0 x1 x2 => Sys2Proof.Machine.execSlockWrite x0 x1 x2 s
  | .runProgramTimeout x0 => Sys2Proof.Machine.execRunProgramTimeout x0 s
  | .lineEvent x0 x1 x2 => Sys2Proof.Machine.execLineEvent x0 x1 x2 s
  | .coalescingTimer x0 x1 => Sys2Proof.Machine.execCoalescingTimer x0 x1 s
  | .interruptEntry x0 => Sys2Proof.Machine.execInterruptEntry x0 s
  | .send x0 x1 x2 => Sys2Proof.Machine.execSend x0 x1 x2 s
  | .pendingWrite x0 x1 x2 x3 => Sys2Proof.Machine.execPendingWrite x0 x1 x2 x3 s
  | .countWrite x0 x1 x2 x3 => Sys2Proof.Machine.execCountWrite x0 x1 x2 x3 s
  | .cfgWrite x0 x1 x2 x3 => Sys2Proof.Machine.execCfgWrite x0 x1 x2 x3 s
  | .machineCheckEntry => Sys2Proof.Machine.execMachineCheckEntry s
  | .mcctlPop x0 => Sys2Proof.Machine.execMcctlPop x0 s
  | .bankAccess x0 x1 x2 => Sys2Proof.Machine.execBankAccess x0 x1 x2 s
  | .rotateAliasAccess x0 x1 x2 x3 => Sys2Proof.Machine.execRotateAliasAccess x0 x1 x2 x3 s
  | .ownerWrite x0 x1 x2 => Sys2Proof.Machine.execOwnerWrite x0 x1 x2 s
  | .handoverComplete x0 => Sys2Proof.Machine.execHandoverComplete x0 s
  | .bankIdleRetention x0 => Sys2Proof.Machine.execBankIdleRetention x0 s
  | .bankRetentionCmd x0 x1 => Sys2Proof.Machine.execBankRetentionCmd x0 x1 s
  | .bankOffCmd x0 x1 => Sys2Proof.Machine.execBankOffCmd x0 x1 s
  | .bankWakeCmd x0 x1 => Sys2Proof.Machine.execBankWakeCmd x0 x1 s
  | .bankWakeComplete x0 => Sys2Proof.Machine.execBankWakeComplete x0 s
  | .rowTestStart x0 => Sys2Proof.Machine.execRowTestStart x0 s
  | .rowTestRestore x0 x1 => Sys2Proof.Machine.execRowTestRestore x0 x1 s
  | .rd x0 x1 x2 => Sys2Proof.Machine.execRd x0 x1 x2 s
  | .wr x0 x1 x2 x3 => Sys2Proof.Machine.execWr x0 x1 x2 x3 s
  | .wrp x0 x1 x2 x3 => Sys2Proof.Machine.execWrp x0 x1 x2 x3 s
  | .rdl x0 x1 x2 => Sys2Proof.Machine.execRdl x0 x1 x2 s
  | .wrl x0 x1 x2 => Sys2Proof.Machine.execWrl x0 x1 x2 s
  | .rds x0 x1 => Sys2Proof.Machine.execRds x0 x1 s
  | .rdx x0 x1 => Sys2Proof.Machine.execRdx x0 x1 s
  | .upg x0 x1 => Sys2Proof.Machine.execUpg x0 x1 s
  | .wbk x0 x1 x2 => Sys2Proof.Machine.execWbk x0 x1 x2 s
  | .evs x0 x1 => Sys2Proof.Machine.execEvs x0 x1 s
  | .snoopResponse x0 x1 => Sys2Proof.Machine.execSnoopResponse x0 x1 s
  | .packetEjection x0 => Sys2Proof.Machine.execPacketEjection x0 s
  | .isolationTimeout x0 => Sys2Proof.Machine.execIsolationTimeout x0 s
  | .isoReadmit x0 x1 x2 => Sys2Proof.Machine.execIsoReadmit x0 x1 x2 s
  | .ringFlip x0 x1 => Sys2Proof.Machine.execRingFlip x0 x1 s
  | .stopRouteSwitch x0 x1 => Sys2Proof.Machine.execStopRouteSwitch x0 x1 s
  | .routeTableWrite x0 x1 => Sys2Proof.Machine.execRouteTableWrite x0 x1 s
  | .ringSegmentRetirement x0 x1 x2 x3 => Sys2Proof.Machine.execRingSegmentRetirement x0 x1 x2 x3 s
  | .retryNotice x0 => Sys2Proof.Machine.execRetryNotice x0 s
  | .tokenRefill x0 x1 x2 => Sys2Proof.Machine.execTokenRefill x0 x1 x2 s
  | .doorbell x0 x1 x2 x3 => Sys2Proof.Machine.execDoorbell x0 x1 x2 x3 s
  | .wqdbDoorbell x0 x1 x2 x3 => Sys2Proof.Machine.execWqdbDoorbell x0 x1 x2 x3 s
  | .descriptorFetch x0 x1 => Sys2Proof.Machine.execDescriptorFetch x0 x1 s
  | .queueEnable x0 x1 => Sys2Proof.Machine.execQueueEnable x0 x1 s
  | .queueDisable x0 x1 => Sys2Proof.Machine.execQueueDisable x0 x1 s
  | .queueDrainComplete x0 => Sys2Proof.Machine.execQueueDrainComplete x0 s
  | .queueAssign x0 x1 => Sys2Proof.Machine.execQueueAssign x0 x1 s
  | .queueRelease x0 x1 => Sys2Proof.Machine.execQueueRelease x0 x1 s
  | .fcfgWrite x0 x1 => Sys2Proof.Machine.execFcfgWrite x0 x1 s
  | .fselWrite x0 x1 => Sys2Proof.Machine.execFselWrite x0 x1 s
  | .bar0Access x0 x1 x2 x3 => Sys2Proof.Machine.execBar0Access x0 x1 x2 x3 s
  | .bar4Access x0 x1 x2 x3 => Sys2Proof.Machine.execBar4Access x0 x1 x2 x3 s
  | .unsupportedRequest x0 x1 => Sys2Proof.Machine.execUnsupportedRequest x0 x1 s
  | .runProgram x0 x1 => Sys2Proof.Machine.execRunProgram x0 x1 s
  | .loadPlanes x0 x1 => Sys2Proof.Machine.execLoadPlanes x0 x1 s
  | .storePlanes x0 x1 => Sys2Proof.Machine.execStorePlanes x0 x1 s
  | .copy x0 x1 => Sys2Proof.Machine.execCopy x0 x1 s
  | .fabricLoad x0 => Sys2Proof.Machine.execFabricLoad x0 s
  | .keyLoad x0 x1 => Sys2Proof.Machine.execKeyLoad x0 x1 s
  | .fence x0 => Sys2Proof.Machine.execFence x0 s
  | .completionQueueRoom x0 => Sys2Proof.Machine.execCompletionQueueRoom x0 s
  | .eventOverflow x0 => Sys2Proof.Machine.execEventOverflow x0 s
  | .msixCoalesceTimeout x0 => Sys2Proof.Machine.execMsixCoalesceTimeout x0 s
  | .functionLevelReset x0 => Sys2Proof.Machine.execFunctionLevelReset x0 s
  | .halfEdgeEnable x0 x1 x2 => Sys2Proof.Machine.execHalfEdgeEnable x0 x1 x2 s
  | .seamCtlWrite x0 x1 x2 => Sys2Proof.Machine.execSeamCtlWrite x0 x1 x2 s
  | .partnerDetected x0 x1 => Sys2Proof.Machine.execPartnerDetected x0 x1 s
  | .trainingComplete x0 x1 x2 x3 => Sys2Proof.Machine.execTrainingComplete x0 x1 x2 x3 s
  | .linkDown x0 x1 => Sys2Proof.Machine.execLinkDown x0 x1 s
  | .autoRetrain x0 x1 => Sys2Proof.Machine.execAutoRetrain x0 x1 s
  | .flitReceive x0 x1 x2 x3 => Sys2Proof.Machine.execFlitReceive x0 x1 x2 x3 s
  | .nakReceive x0 x1 x2 => Sys2Proof.Machine.execNakReceive x0 x1 x2 s
  | .creditUpdate x0 x1 x2 => Sys2Proof.Machine.execCreditUpdate x0 x1 x2 s
  | .laneBerWindow x0 x1 x2 x3 => Sys2Proof.Machine.execLaneBerWindow x0 x1 x2 x3 s
  | .laneRetrain x0 x1 => Sys2Proof.Machine.execLaneRetrain x0 x1 s
  | .laneRetrainEnd x0 x1 => Sys2Proof.Machine.execLaneRetrainEnd x0 x1 s
  | .lmfReceive x0 x1 x2 => Sys2Proof.Machine.execLmfReceive x0 x1 x2 s
  | .timeExchange x0 x1 x2 x3 x4 => Sys2Proof.Machine.execTimeExchange x0 x1 x2 x3 x4 s
  | .srtAddrWrite x0 x1 => Sys2Proof.Machine.execSrtAddrWrite x0 x1 s
  | .messageSend => Sys2Proof.Machine.execMessageSend s
  | .headFlitRoute x0 x1 => Sys2Proof.Machine.execHeadFlitRoute x0 x1 s
  | .messageDelivery x0 => Sys2Proof.Machine.execMessageDelivery x0 s
  | .dackReceive x0 => Sys2Proof.Machine.execDackReceive x0 s
  | .messageRetryReceive x0 => Sys2Proof.Machine.execMessageRetryReceive x0 s
  | .messageResendTimeout x0 => Sys2Proof.Machine.execMessageResendTimeout x0 s
  | .srtFlip x0 => Sys2Proof.Machine.execSrtFlip x0 s
  | .rete x0 x1 => Sys2Proof.Machine.execRete x0 x1 s
  | .edgeRoutingTimeout x0 => Sys2Proof.Machine.execEdgeRoutingTimeout x0 s
  | .readm x0 x1 => Sys2Proof.Machine.execReadm x0 x1 s
  | .load x0 x1 => Sys2Proof.Machine.execLoad x0 x1 s
  | .clear x0 => Sys2Proof.Machine.execClear x0 s
  | .clocksStart x0 => Sys2Proof.Machine.execClocksStart x0 s
  | .internalPortsOpen x0 => Sys2Proof.Machine.execInternalPortsOpen x0 s
  | .ioEnable x0 => Sys2Proof.Machine.execIoEnable x0 s
  | .fabricScrubPass => Sys2Proof.Machine.execFabricScrubPass s
  | .flashRead x0 => Sys2Proof.Machine.execFlashRead x0 s
  | .flashProgram x0 x1 => Sys2Proof.Machine.execFlashProgram x0 x1 s
  | .flashErase x0 => Sys2Proof.Machine.execFlashErase x0 s
  | .ringTargetRequest x0 x1 x2 x3 x4 => Sys2Proof.Machine.execRingTargetRequest x0 x1 x2 x3 x4 s
  | .clockGate x0 => Sys2Proof.Machine.execClockGate x0 s
  | .clockResume x0 => Sys2Proof.Machine.execClockResume x0 s
  | .domainDrain x0 => Sys2Proof.Machine.execDomainDrain x0 s
  | .sleep x0 x1 => Sys2Proof.Machine.execSleep x0 x1 s
  | .wake x0 x1 => Sys2Proof.Machine.execWake x0 x1 s
  | .powerDownComplete x0 => Sys2Proof.Machine.execPowerDownComplete x0 s
  | .domainWake x0 => Sys2Proof.Machine.execDomainWake x0 s
  | .domainWakeComplete x0 => Sys2Proof.Machine.execDomainWakeComplete x0 s
  | .aclkWrite x0 x1 => Sys2Proof.Machine.execAclkWrite x0 x1 s
  | .aclkChange => Sys2Proof.Machine.execAclkChange s
  | .avfsStep x0 x1 => Sys2Proof.Machine.execAvfsStep x0 x1 s
  | .droopStretch x0 x1 => Sys2Proof.Machine.execDroopStretch x0 x1 s
  | .avsRequest x0 x1 => Sys2Proof.Machine.execAvsRequest x0 x1 s
  | .thermalReading x0 x1 => Sys2Proof.Machine.execThermalReading x0 x1 s
  | .thermalDecay => Sys2Proof.Machine.execThermalDecay s
  | .currentLimitStep x0 x1 => Sys2Proof.Machine.execCurrentLimitStep x0 x1 s
  | .limitWrite x0 x1 => Sys2Proof.Machine.execLimitWrite x0 x1 s
  | .smbTemperature => Sys2Proof.Machine.execSmbTemperature s
  | .smbPackagePower x0 => Sys2Proof.Machine.execSmbPackagePower x0 s
  | .smbDeviceState => Sys2Proof.Machine.execSmbDeviceState s
  | .smbThrottleLevel => Sys2Proof.Machine.execSmbThrottleLevel s
  | .smbSerialNumber => Sys2Proof.Machine.execSmbSerialNumber s
  | .smbRefused => Sys2Proof.Machine.execSmbRefused s
  | .timeSet x0 x1 => Sys2Proof.Machine.execTimeSet x0 x1 s
  | .timeStep x0 x1 => Sys2Proof.Machine.execTimeStep x0 x1 s
  | .timeAdjWrite x0 x1 => Sys2Proof.Machine.execTimeAdjWrite x0 x1 s
  | .timeAlarm => Sys2Proof.Machine.execTimeAlarm s
  | .ppsOut => Sys2Proof.Machine.execPpsOut s
  | .ppsIn => Sys2Proof.Machine.execPpsIn s
  | .holdCalibration x0 => Sys2Proof.Machine.execHoldCalibration x0 s
  | .ptpEventMessage x0 x1 => Sys2Proof.Machine.execPtpEventMessage x0 x1 s
  | .pilotPowerUp x0 => Sys2Proof.Machine.execPilotPowerUp x0 s
  | .sysrstN x0 => Sys2Proof.Machine.execSysrstN x0 s
  | .railFault x0 => Sys2Proof.Machine.execRailFault x0 s
  | .railTimeout => Sys2Proof.Machine.execRailTimeout s
  | .watchdogExpiry x0 => Sys2Proof.Machine.execWatchdogExpiry x0 s
  | .watchdogWarning => Sys2Proof.Machine.execWatchdogWarning s
  | .kick x0 x1 => Sys2Proof.Machine.execKick x0 x1 s
  | .softwareReset x0 x1 x2 => Sys2Proof.Machine.execSoftwareReset x0 x1 x2 s
  | .sequencerReset x0 x1 => Sys2Proof.Machine.execSequencerReset x0 x1 s
  | .sequencerRun x0 x1 => Sys2Proof.Machine.execSequencerRun x0 x1 s
  | .sequencerStartTimeout x0 => Sys2Proof.Machine.execSequencerStartTimeout x0 s
  | .perstN x0 => Sys2Proof.Machine.execPerstN x0 s
  | .trstN => Sys2Proof.Machine.execTrstN s
  | .pilotWakeEvent x0 x1 => Sys2Proof.Machine.execPilotWakeEvent x0 x1 s
  | .napWake x0 => Sys2Proof.Machine.execNapWake x0 s
  | .mantleSample x0 => Sys2Proof.Machine.execMantleSample x0 s
  | .vglitchPilot => Sys2Proof.Machine.execVglitchPilot s
  | .vglitchCore => Sys2Proof.Machine.execVglitchCore s
  | .clkglitch => Sys2Proof.Machine.execClkglitch s
  | .light => Sys2Proof.Machine.execLight s
  | .tlow => Sys2Proof.Machine.execTlow s
  | .erasureComplete => Sys2Proof.Machine.execErasureComplete s
  | .erase x0 x1 => Sys2Proof.Machine.execErase x0 x1 s
  | .policyWrite x0 x1 => Sys2Proof.Machine.execPolicyWrite x0 x1 s
  | .kwinWrite x0 x1 x2 => Sys2Proof.Machine.execKwinWrite x0 x1 x2 s
  | .grantNonce x0 => Sys2Proof.Machine.execGrantNonce x0 s
  | .grantSession x0 x1 => Sys2Proof.Machine.execGrantSession x0 x1 s
  | .grantReenrolment x0 x1 => Sys2Proof.Machine.execGrantReenrolment x0 x1 s
  | .reenrolmentComplete => Sys2Proof.Machine.execReenrolmentComplete s
  | .grantLifecycle x0 x1 => Sys2Proof.Machine.execGrantLifecycle x0 x1 s
  | .grantPolicy x0 x1 => Sys2Proof.Machine.execGrantPolicy x0 x1 s
  | .attestation x0 x1 => Sys2Proof.Machine.execAttestation x0 x1 s
  | .svnCommit x0 x1 => Sys2Proof.Machine.execSvnCommit x0 x1 s
  | .fwInstall x0 x1 => Sys2Proof.Machine.execFwInstall x0 x1 s
  | .read x0 x1 x2 => Sys2Proof.Machine.execRead x0 x1 x2 s
  | .write x0 x1 x2 x3 => Sys2Proof.Machine.execWrite x0 x1 x2 x3 s
  | .uploadReq x0 x1 => Sys2Proof.Machine.execUploadReq x0 x1 s
  | .downloadInit x0 x1 x2 x3 => Sys2Proof.Machine.execDownloadInit x0 x1 x2 x3 s
  | .downloadSeg x0 x1 x2 => Sys2Proof.Machine.execDownloadSeg x0 x1 x2 s
  | .abort x0 x1 => Sys2Proof.Machine.execAbort x0 x1 s
  | .transferTimeout x0 => Sys2Proof.Machine.execTransferTimeout x0 s
  | .mailboxPoll x0 => Sys2Proof.Machine.execMailboxPoll x0 s
  | .heartbeat => Sys2Proof.Machine.execHeartbeat s
  | .store x0 x1 => Sys2Proof.Machine.execStore x0 x1 s
  | .restoreDefaults x0 x1 => Sys2Proof.Machine.execRestoreDefaults x0 x1 s
  | .reset x0 x1 x2 => Sys2Proof.Machine.execReset x0 x1 x2 s
  | .nap x0 x1 => Sys2Proof.Machine.execNap x0 x1 s
  | .pilotSleep x0 x1 => Sys2Proof.Machine.execPilotSleep x0 x1 s
  | .seqReset x0 x1 => Sys2Proof.Machine.execSeqReset x0 x1 s
  | .logout x0 x1 => Sys2Proof.Machine.execLogout x0 x1 s
  | .fabClear x0 x1 => Sys2Proof.Machine.execFabClear x0 x1 s
  | .registerDataRead x0 => Sys2Proof.Machine.execRegisterDataRead x0 s
  | .maintColumnMigration x0 x1 => Sys2Proof.Machine.execMaintColumnMigration x0 x1 s
  | .maintClusterSubstitution x0 x1 => Sys2Proof.Machine.execMaintClusterSubstitution x0 x1 s
  | .maintLaneRetrain x0 x1 => Sys2Proof.Machine.execMaintLaneRetrain x0 x1 s
  | .maintLaneRetirement x0 x1 => Sys2Proof.Machine.execMaintLaneRetirement x0 x1 s
  | .maintRingSegmentRetirement x0 x1 => Sys2Proof.Machine.execMaintRingSegmentRetirement x0 x1 s
  | .maintBankRowTest x0 x1 => Sys2Proof.Machine.execMaintBankRowTest x0 x1 s
  | .errlogPop x0 x1 => Sys2Proof.Machine.execErrlogPop x0 x1 s
  | .faultLogWrite => Sys2Proof.Machine.execFaultLogWrite s
  | .nvmSliceBoundary => Sys2Proof.Machine.execNvmSliceBoundary s
  | .registerWrite x0 x1 x2 x3 => Sys2Proof.Machine.execRegisterWrite x0 x1 x2 x3 s
  | .pilotPowerLoss => Sys2Proof.Machine.execPilotPowerLoss s
  | .railsInWindow x0 => Sys2Proof.Machine.execRailsInWindow x0 s
  | .pcieLinkChange x0 x1 x2 => Sys2Proof.Machine.execPcieLinkChange x0 x1 x2 s
  | .configurationRequest x0 x1 x2 => Sys2Proof.Machine.execConfigurationRequest x0 x1 x2 s
  | .snoop x0 x1 => Sys2Proof.Machine.execSnoop x0 x1 s
  | .ctlFlitDue x0 x1 => Sys2Proof.Machine.execCtlFlitDue x0 x1 s
  | .receiveRingHeadWrite x0 x1 => Sys2Proof.Machine.execReceiveRingHeadWrite x0 x1 s
  | .transmitCeilingRelease x0 => Sys2Proof.Machine.execTransmitCeilingRelease x0 s
  | .busOff => Sys2Proof.Machine.execBusOff s
  | .mgeLinkChange x0 => Sys2Proof.Machine.execMgeLinkChange x0 s
  | .malformedMessage x0 => Sys2Proof.Machine.execMalformedMessage x0 s
  | .arpNdIcmpEcho => Sys2Proof.Machine.execArpNdIcmpEcho s
  | .extest x0 => Sys2Proof.Machine.execExtest x0 s
  | .probeEnable x0 x1 x2 => Sys2Proof.Machine.execProbeEnable x0 x1 x2 s

end Sys2Proof.Machine
end

