-- ==== Sys2Proof/Machine/Step.lean ====
section
/-! DEFINITION. One step: the command at the front of the queue, or one tick of device time when no command waits. -/
namespace Sys2Proof.Machine

/-- One step. With no command waiting, device time advances by one tick (R366) and a running fabric design takes its turn. DESIGN CHOICE (log entries 6, 41):
the table has no row for either. -/
def step (s : State) : Out :=
  match s.pending with
  | [] => .next (idleStep s)
  | c :: rest => exec c { s with pending := rest }

/-- The state with the command a word spells at the front of its queue; unchanged where the word spells none. -/
def State.withFetchWord (s : State) (nbits w : Nat) : State :=
  match decodeTableWord nbits w with
  | none => s
  | some c => { s with pending := c :: s.pending }

end Sys2Proof.Machine
end

