-- ==== Sys2Proof/Safety.lean ====
section
/-! DEFINITION. What the statements call safe and ready: canonical memory, the bounds of the logs, and a scalar core that may issue. -/
namespace Sys2Proof.Machine

/-- The canonical form of device memory. -/
def Memory.wf (m : Mem) : Bool := twf memDefault m

/-- Core c may issue an instruction of len bytes at its PC: it executes, no divide's trap waits, its program is not ordered to stop, and every parcel lies in CS
and in its cache (R202, R209, R271, R294). -/
def Ready (c : CoreId) (len : Nat) (s : State) : Prop :=
  s.executes c = true ∧ (s.core c).traps = [] ∧ s.fetchOk c (s.core c).pc len = true ∧ s.holdsCode c (s.core c).pc len = true ∧ s.stopping c.val = none

/-- After an access, core c still runs its instruction: no trap waits, and its program is not ordered to stop. -/
def GoesOn (c : CoreId) (u : State) : Prop := u.alive c = true ∧ (u.core c).traps = [] ∧ u.stopping c.val = none

/-- Only core c changes, by f, and goes on behind an instruction of len bytes. -/
def advance (c : CoreId) (len : Nat) (f : Core → Core) (s : State) : State :=
  s.modCore c (fun k => { f k with pc := k.pc + BitVec.ofNat 32 len, rep := none, started := true })

/-- Only core c changes, by f, and waits for w at its instruction. -/
def waits (c : CoreId) (w : CoreWait) (f : Core → Core) (s : State) : State :=
  s.modCore c (fun k => { f k with run := .waiting w, rep := none, started := true })

/-- A core's SR replaced. -/
def Core.setSr (k : Core) (sr : Word) : Core := { k with sr := sr }

/-- A core's destination and its SR replaced. -/
def Core.put (k : Core) (d : Reg) (r sr : Word) : Core := (k.setReg d r).setSr sr

/-- An exception is taken, and after it a divide's trap that waits (R209, R216). -/
def raised (c : CoreId) (vec sub info : Nat) (pc : Word) (s : State) : State := takeTrap c (takeException c vec sub info pc s)

/-- Nothing stored in staging memory is wrong, and every stack works. -/
def SoundMemory (s : State) : Prop := s.lineErr = [] ∧ ∀ k, (s.stack k).failed = false

/-- A route leads from every stop to every other on every network (R266, R267). -/
def Routed (s : State) : Prop := ∀ n x y, n < 4 → x < 16 → y < 16 → s.noRoute n x y = false

/-- Nothing on the rings meets a later access from a port: the port has no request under way, no wake buffer holds a packet, no line is in a transaction, no probe
is enabled, no segment is being retired, the stop's buckets do not regulate, and every route is there (R262–R264, R267, R269, R271, R272). -/
def QuietFrom (src : Nat × Nat) (s : State) : Prop :=
  (∀ p, p ∈ s.packets → (p.op.isSome = true → (p.sstop.val, p.sport) ≠ src) ∧ p.stage ≠ .held) ∧ s.dirBusy = [] ∧ s.probing = false ∧
    (∀ n, s.cutting n = none) ∧ (∀ dat, (s.bucket src.1 dat).1 = 0) ∧ src.1 < 16 ∧ Routed s
@[inherit_doc QuietFrom] def QuietRings (i : Initiator) (s : State) : Prop := QuietFrom (sourcePort i) s

/-- No packet waits at its source or in a wake buffer, the tags in use are past, and no probe is enabled. -/
def Still (s : State) : Prop := s.probing = false ∧ ∀ p, p ∈ s.packets → p.stage ≠ .waiting ∧ p.stage ≠ .held ∧ p.left = 0 ∧ p.tag < s.nextTag

/-- The tail of packet p can leave its ring, at a port whose domain is ON (R260, R264). -/
def Ejects (p : Packet) (s : State) : Prop := Still s ∧ s.packet p.tag = some p ∧ s.arrives p = true ∧ ∀ d, p.bridge = some d → s.dom d = 0

/-- A route leads back from where request p goes (R267). -/
def Returns (p : Packet) (s : State) : Prop := s.noRoute 1 p.dstop.val p.sstop.val = false

/-- A packet with a cargo is on its way back to the source port of request p (R259, R260). -/
def Back (p : Packet) (c : Cargo) (t : State) : Prop :=
  ∃ r, r ∈ t.packets ∧ r.ref = p.tag ∧ r.cargo = c ∧ r.sstop = p.dstop ∧ r.sport = p.dport ∧ r.dstop = p.sstop ∧ r.dport = p.sport

/-- The n bytes at offset o of a segment lie in staging memory, aligned, where core c reaches it and nothing stored is wrong (R140, R210). -/
def SoundAccess (c : CoreId) (g : Seg) (o : Word) (n : Nat) (s : State) : Prop :=
  let x := (s.core c).seg g
  let a := x.base.toNat + o.toNat
  o.toNat + n ≤ x.lim.toNat ∧ a + n ≤ 0x1000000000 ∧ a % n = 0 ∧ s.isolatedFor (.core c) 0 a = false ∧
    (∀ d, wakes a = some d → s.dom d = 0) ∧ QuietRings (.core c) s ∧ SoundMemory s

/-- A port that caches nothing reads the n bytes of staging memory at a: its routes lead there, their homes are ON, nothing on the rings meets the access, nothing
stored is wrong, and no cache has a line of them alone (R140, R145, R264, R265, R267). -/
def SoundAt (src : Nat × Nat) (a n : Nat) (s : State) : Prop :=
  a + n ≤ stagingEnd ∧ SoundMemory s ∧ QuietFrom src s ∧
    ∀ x, a ≤ x → x < a + n → s.isolatedFrom src 0 x = false ∧ (s.dline (x / 64)).excl = false ∧ ∀ d, wakes x = some d → s.dom d = 0

/-- A state a command reaches. -/
def Reaches (o : Out) (p : State → Prop) : Prop := ∃ t, o = .next t ∧ p t

/-- Only the listed control-register words may differ. -/
def OnlyRegs (as : List Nat) (s t : State) : Prop := { t with creg := s.creg } = s ∧ ∀ a, a ∉ as → t.r32 a = s.r32 a

/-- What a reset of the device leaves (R375): the NVM as it was, staging memory and scratchpads cleared, and the cause. -/
def Restarted (cause : Nat) (s t : State) : Prop :=
  t.fld (cr 1 0) 0 6 = cause ∧ (∀ a, nvmBase ≤ a → t.byte a = s.byte a) ∧ ∀ a, a < nvmBase → t.byte a = memDefault a

/-- A restart whose start-up finds env: held at B1 under TESTMODE (R448); in BOOT under the boot ROM where no image passes (R378); in BOOT with the image of
slot A running where that passes and its firmware hangs (R380). -/
def Restarts (cause : Nat) (env : BootEnv) (s : State) (out : Out) : Prop :=
  let goes : Prop := env.testMode = false ∧ env.otpFault = false ∧ s.lifeField ≤ 1 ∧ s.power.pilotTemp < 100000 ∧ s.boot.railsBad = false
  (env.testMode = true → Reaches out (fun t => Restarted cause s t ∧ t.devState = stPilot ∧ t.boot.held = some env ∧ t.boot.fw = false ∧ ∀ c, t.core c = Core.reset)) ∧
  (goes → s.imageGood 0 = false → s.imageGood 1 = false → Reaches out (fun t => Restarted cause s t ∧ t.devState = stBoot ∧ t.boot.held = none ∧ t.boot.rom = true ∧
    t.boot.fw = false ∧ t.bit (cr 0 0x18) 9 = true ∧ t.bit (cr 0 0x18) 10 = true ∧ ∀ c, t.core c = Core.reset)) ∧
  (goes → env.hang = true → env.stackFail = 0 → s.maps = [] → s.imageGood 0 = true → s.fld (cr 1 0) 7 3 = 0 → Reaches out (fun t => Restarted cause s t ∧
    t.devState = stBoot ∧ t.boot.fw = true ∧ (t.core 5).run = .running ∧ (t.core 5).pc = 0x100 ∧ (t.core 5).cs.base.toNat = nvmBase ∧
    (∀ c, c ≠ 5 → t.core c = Core.reset) ∧ ∀ d, d < 25 → t.dom d = 0))

-- The dictionary

/-- A session of a port that sends frames, which management firmware serves now, the device not being in nap (R427); no report waits to enter the error log. -/
def Hears (x : Session) (s : State) : Prop :=
  (∀ f, x ≠ .mailbox f) ∧ s.served x = true ∧ s.boot.fw = true ∧ s.boot.nap = false ∧ s.errq = none

/-- The same at level 2, in READY, RUN or DEGRADED. -/
def Operator (x : Session) (s : State) : Prop := Hears x s ∧ 2 ≤ s.reqLevel x ∧ stReady ≤ s.devState ∧ s.devState ≤ stDegraded

/-- A message leaves for a session: it is sent, or waits under the ceilings of its port (Table SEC-4). -/
def Sent (x : Session) (m : List Byte) (s t : State) : Prop :=
  t.dict.out = s.dict.out ++ [(x, m)] ∨
    (t.dict.out = s.dict.out ∧ (t.dict.canWait = s.dict.canWait ++ [(x, m)] ∨ t.dict.mgeWait = s.dict.mgeWait ++ [(x, m)]))

/-- The identifier of a response on CAN: of the request's format and priority, service 0x02, to the node that asked, with SEGNO mod 64 where the message has one
(R419, Table DICT-6). -/
def CanReply (m : List Byte) (n : BitVec 7) (f g : CanFrame) : Prop :=
  g.kind = f.kind ∧ g.iso = f.iso ∧ g.ext = f.ext ∧ g.prio = f.prio ∧ g.service = 2 ∧ g.dest = n ∧ g.segment = idSegment m

/-- A response goes to a session, on CAN in the smallest data length that holds it; a request to CAN node 0 has none (R413, R419, R420). -/
def Answered (x : Session) (m : List Byte) (s t : State) : Prop :=
  match x with
  | .can n f => if f.dest = 0 then t.dict.out = s.dict.out ∧ t.dict.canWait = s.dict.canWait else ∃ g, CanReply m n f g ∧ Sent (.can n g) (canData m) s t
  | _ => Sent x m s t

/-- A request is refused with a code: ABORT, and the record of the access-refusal class (R424). -/
def Denied (x : Session) (i sub code : Nat) (s t : State) : Prop :=
  Answered x (hdr 0x7F sub i ++ toBytes 2 code) s t ∧ (tget (konst ErrEntry.zero) t.errLast 1).code.toNat = code

-- The array

/-- Bit k of PE i's field at a (R50). -/
def State.bitAt (s : State) (a : BitVec 12) (k i : Nat) : Bool := (s.plane (at_ a k).toNat).getLsbD i

/-- PE i's n-bit field at a, read as unsigned. -/
def State.fieldAt (s : State) (a : BitVec 12) (n i : Nat) : Nat := (List.range n).foldl (fun v k => v + b2n (s.bitAt a k i) * 2 ^ k) 0

/-- An n-bit value read as signed or unsigned. -/
def readAs (sgn : Bool) (n v : Nat) : Int := if sgn then Int.bmod v (2 ^ n) else v

/-- The bounds of an n-bit value. -/
def minOf (sgn : Bool) (n : Nat) : Int := if sgn then -(2 ^ (n - 1)) else 0
/-- The largest n-bit value. -/
def maxOf (sgn : Bool) (n : Nat) : Int := if sgn then 2 ^ (n - 1) - 1 else 2 ^ n - 1

/-- An n-bit field of bit addresses does not pass the last row. -/
def Inside (a : BitVec 12) (n : Nat) : Prop := a.toNat + n ≤ 4096

/-- Two fields are the same or share no row. -/
def ExactOrApart (a b : BitVec 12) (n : Nat) : Prop := a = b ∨ overlap a.toNat n b.toNat n = false

/-- Array instruction q is the next of partition p, its trees are free, no clear of K is due, its routine's words are those loaded at start-up, and no stored
row is wrong. -/
def HeadIs (p : Nat) (q : QEntry) (lane : Bool) (s : State) : Prop :=
  s.head p = some (q, lane) ∧ s.treeHeld p q = false ∧ tget (konst 0) s.arr.clr p = 0 ∧ (s.seq (s.driver p)).badWord = false ∧
    (popHead p lane s).altered p q = [] ∧ s.arr.rowErr = []

/-- PE i is one of partition p. -/
def InPart (p : Nat) (s : State) (i : Nat) : Prop := (quadsPlane (s.quads p)).getLsbD i = true

/-- PE i takes part in the writes of q (Table AOP-2). -/
def Takes (p : Nat) (q : QEntry) (s : State) (i : Nat) : Prop := (takes p q s).getLsbD i = true

/-- The rotation offset of lane (x, y), at x + 5y, and the constants of the 24 rounds of Keccak-f[1600] (FIPS 202). -/
def keccakTurns : List Nat := [0, 1, 62, 28, 27, 36, 44, 6, 55, 20, 3, 10, 43, 25, 39, 41, 45, 15, 21, 8, 18, 2, 61, 56, 14]
@[inherit_doc keccakTurns] def keccakConstants : List Dword :=
  [0x0000000000000001, 0x0000000000008082, 0x800000000000808A, 0x8000000080008000, 0x000000000000808B, 0x0000000080000001, 0x8000000080008081, 0x8000000000008009
  , 0x000000000000008A, 0x0000000000000088, 0x0000000080008009, 0x000000008000000A, 0x000000008000808B, 0x800000000000008B, 0x8000000000008089, 0x8000000000008003
  , 0x8000000000008002, 0x8000000000000080, 0x000000000000800A, 0x800000008000000A, 0x8000000080008081, 0x8000000000008080, 0x0000000080000001, 0x8000000080008008]

/-- Column parity C[x][z] of a state of 25 lanes, and bit (x, y, z) of the state after round i of Keccak-f[1600]: θ, ρ, π, χ, ι (FIPS 202). -/
def keccakParity (a : Nat → Nat → Nat → Bool) (x z : Nat) : Bool := a x 0 z ^^ a x 1 z ^^ a x 2 z ^^ a x 3 z ^^ a x 4 z
@[inherit_doc keccakParity] def keccakBit (a : Nat → Nat → Nat → Bool) (i x y z : Nat) : Bool :=
  let theta := fun x y z => a x y z ^^ keccakParity a ((x + 4) % 5) z ^^ keccakParity a ((x + 1) % 5) ((z + 63) % 64)
  let b := fun x => let u := (x + 3 * y) % 5; theta u x ((z + 64 - keccakTurns.getD (u + 5 * x) 0) % 64)
  (b x ^^ (!b ((x + 1) % 5) && b ((x + 2) % 5))) ^^ (x == 0 && y == 0 && (keccakConstants.getD i 0).getLsbD z)

/-- q has left its queue and nothing executes; only rows `rows`, in the PEs that take part, and registers of the partition's PEs may have
changed; cores, device memory and the other sequencers are as before. -/
def Retired (p : Nat) (q : QEntry) (lane : Bool) (rows : Nat → Prop) (s t : State) : Prop :=
  let d := s.driver p
  (t.seq d).run = none ∧
  (t.seq d).queue = (if lane then (s.seq d).queue else (s.seq d).queue.tail) ∧ (t.seq d).lane = (if lane then (s.seq d).lane.tail else (s.seq d).lane) ∧
  (∀ r, r ≠ d → t.seq r = s.seq r) ∧ t.cores = s.cores ∧ t.mem = s.mem ∧
  (∀ a i, ¬ rows a ∨ ¬ Takes p q s i → (t.plane a).getLsbD i = (s.plane a).getLsbD i) ∧
  (∀ i, ¬ InPart p s i → t.arr.x.getLsbD i = s.arr.x.getLsbD i ∧ t.arr.c.getLsbD i = s.arr.c.getLsbD i ∧ t.arr.k.getLsbD i = s.arr.k.getLsbD i ∧
    t.arr.e.getLsbD i = s.arr.e.getLsbD i ∧ t.arr.n.getLsbD i = s.arr.n.getLsbD i)

/-- The rows of field D. -/
def rowsOf (a : BitVec 12) (n : Nat) (r : Nat) : Prop := ∃ k, k < n ∧ r = (at_ a k).toNat

/-- The next microword of user routine r in partition p is sound, legal, not held and in bounds, and no stop request meets it (R91, R97–R99, R118). -/
def Fetched (p : Nat) (r : Routine) (s : State) : Prop :=
  let q := s.driver p
  let w := s.uword q r.upc.toNat
  (s.seq q).run = some r ∧ isUser r.q.op = true ∧ r.byWord = true ∧ (s.seq q).badWord = false ∧ s.canIssue p = true ∧ s.runOut q r 0 = false ∧ r.lost = false ∧
    badGroups w = 0 ∧ illegalWord (inUser r.upc.toNat) (w % 2 ^ 160) = false ∧ s.stopActs q = false ∧ wordHeld p r (w % 2 ^ 160) s = false ∧
    boundFault r (wordCtl r (w % 2 ^ 160)) = none

/-- It issues: where it is the first, the port of its instruction is open (R82). -/
def MayIssue (p : Nat) (r : Routine) (s : State) : Prop := Fetched p r s ∧ (r.issued = 0 → s.portOpen (s.driver p) = true)

/-- Sequencer q's routine has aborted with a cause (R112): it is gone, its queue is halted, SR.AX is set and the abort record names the cause. -/
def Aborted (q cause : Nat) (lane : Bool) (t : State) : Prop :=
  (t.seq q).run = none ∧ (if lane then (t.seq q).lHalt = true else (t.seq q).qHalt = true) ∧ (t.core q).sr.getLsbD 10 = true ∧
    t.bit (sq q 0x850) 31 = true ∧ t.fld (sq q 0x850) 16 4 = cause

-- Jobs and plane transfers of the host

/-- Job j is alone in queue q and starts next, with opcode op (R286, R288). -/
def Alone (q : Nat) (j : Job) (op : Nat) (s : State) : Prop :=
  s.candidate q = some (0, j) ∧ (s.queue q).jobs = [j] ∧ j.op = op

/-- It is queue q's turn for what `key` names, among the queues that wait with one of the opcodes; and the state in which it has been served (R286). -/
def HasTurn (key : Nat) (ops : List Nat) (p : Option Nat) (q : Nat) (s : State) : Prop := s.nextTurn key ops p = some q
@[inherit_doc HasTurn] def turned (key q : Nat) (s : State) : State := s.modHost (fun h => { h with turn := tset (konst 65535) h.turn key q })

/-- The host block reaches the n bytes of staging memory at a (R290). -/
def Landing (a n : Nat) (s : State) : Prop := SoundAt (sourcePort .hostBlock) a n s

/-- The only job of queue q has completed with a status (R287). -/
def Done (q st : Nat) (t : State) : Prop := (t.queue q).jobs = [] ∧ (t.queue q).prev = some st

/-- The PTD of quadrants qs in its header and map bytes. -/
def ptdOf (qs : List Nat) (hb mb : List Byte) : Ptd :=
  readPtd qs (ofBytes hb) ((List.range (bits (ofBytes hb) (8 * 0x32) 8)).map (fun x => bits (ofBytes mb) (64 * x) 64))

/-- No engine of partition p has a failed stack, the PTD at a is read without an error, header hb and map mb, and every check of R151 that a job's transfer undergoes holds. -/
def Launches (p a : Nat) (key : Bool) (hb mb : List Byte) (s : State) : Prop :=
  let n := bits (ofBytes hb) (8 * 0x32) 8
  let d := ptdOf (s.quads p) hb mb
  (∀ k, k ∈ s.quads p → (s.stack k).failed = false) ∧ mapped a 64 = true ∧ 0 < n ∧ n ≤ 64 ∧ mapped (a + 64) (8 * n) = true ∧
    (∃ s1 s2, longRead (.engine (Fin.ofNat 4 p)) 16 a 64 s = (.ok, hb, s1) ∧ longRead (.engine (Fin.ofNat 4 p)) 80 (a + 64) (8 * n) s1 = (.ok, mb, s2)) ∧
    d.bad = false ∧ addressBad (s.quads p) d.t = false ∧ (key = false → keyBad s p d.t = false) ∧ d.t.fab = false

/-- What every step keeps: device memory in its canonical form, the error log and the machine-check queue within their sizes, and no report in the input queue of
the log (R236, R440). -/
def Kept (s : State) : Prop := Memory.wf s.mem = true ∧ s.errlog.length ≤ 4096 ∧ s.mcq.length ≤ 16 ∧ s.errq = none

end Sys2Proof.Machine
end

