-- ==== Sys2Proof/Certificates/Slice0/Obligations.lean ====
section
/-! DEFINITION. The statements for the provers. -/
open Sys2Proof Sys2Proof.Machine

-- Scalar cores (chapter 08)

/-- Sums and differences (R206, Table DCY-7, DCY-8): the result modulo 2^32 in rd, N and Z of it, C the carry out of bit 31 or no borrow, V the signed
overflow, where no overflow trap is armed; CMP and CMPI keep the flags alone. Everything but the core's rd, SR and PC is as before. -/
def Obligations.ScalarSumsAndDifferences : Prop :=
  ∀ (c : CoreId) (f : Form) (d a b : Reg) (imm : Imm) (s : State), (s.core c).tv = false →
    (Ready c f.bytes s → exec (.add c f d a b) s = .next (advance c f.bytes (fun k => k.put d (k.reg a + k.reg b)
      (srNZCV k.sr ⟨k.reg a + k.reg b, decide (2 ^ 32 ≤ (k.reg a).toNat + (k.reg b).toNat), (k.reg a).saddOverflow (k.reg b)⟩)) s)) ∧
    (Ready c f.bytes s → exec (.sub c f d a b) s = .next (advance c f.bytes (fun k => k.put d (k.reg a - k.reg b)
      (srNZCV k.sr ⟨k.reg a - k.reg b, decide ((k.reg b).toNat ≤ (k.reg a).toNat), (k.reg a).ssubOverflow (k.reg b)⟩)) s)) ∧
    (Ready c f.bytes s → exec (.cmp c f a b) s = .next (advance c f.bytes (fun k => k.setSr (srNZCV k.sr ⟨k.reg a - k.reg b, decide ((k.reg b).toNat ≤ (k.reg a).toNat), (k.reg a).ssubOverflow (k.reg b)⟩)) s)) ∧
    (Ready c 4 s → exec (.adc c d a b) s = .next (advance c 4 (fun k => let ci : Word := if srC k.sr then 1 else 0
      k.put d (k.reg a + k.reg b + ci) (srNZCV k.sr ⟨k.reg a + k.reg b + ci, decide (2 ^ 32 ≤ (k.reg a).toNat + (k.reg b).toNat + ci.toNat),
        decide ((k.reg a).toInt + (k.reg b).toInt + ci.toInt ≠ (k.reg a + k.reg b + ci).toInt)⟩)) s)) ∧
    (Ready c 4 s → exec (.sbc c d a b) s = .next (advance c 4 (fun k => let bi : Word := if srC k.sr then 0 else 1
      k.put d (k.reg a - k.reg b - bi) (srNZCV k.sr ⟨k.reg a - k.reg b - bi, decide ((k.reg b).toNat + bi.toNat ≤ (k.reg a).toNat),
        decide ((k.reg a).toInt - (k.reg b).toInt - bi.toInt ≠ (k.reg a - k.reg b - bi).toInt)⟩)) s)) ∧
    (Ready c 2 s → exec (.neg c d a) s = .next (advance c 2 (fun k => k.put d (-k.reg a)
      (srNZCV k.sr ⟨-k.reg a, decide (k.reg a = 0), decide (k.reg a = 0x80000000)⟩)) s)) ∧
    (Ready c 2 s → exec (.abs c d a) s = .next (advance c 2 (fun k => k.put d (if k.reg a = 0x80000000 then 0x80000000 else BitVec.ofNat 32 (k.reg a).toInt.natAbs)
      (srNZV k.sr (if k.reg a = 0x80000000 then 0x80000000 else BitVec.ofNat 32 (k.reg a).toInt.natAbs) (decide (k.reg a = 0x80000000)))) s)) ∧
    (Ready c (immLen imm) s → exec (.addi c d a imm) s = .next (advance c (immLen imm) (fun k => k.put d (k.reg a + immVal imm)
      (srNZCV k.sr ⟨k.reg a + immVal imm, decide (2 ^ 32 ≤ (k.reg a).toNat + (immVal imm).toNat), (k.reg a).saddOverflow (immVal imm)⟩)) s)) ∧
    (Ready c (immLen imm) s → exec (.cmpi c a imm) s = .next (advance c (immLen imm) (fun k => k.setSr (srNZCV k.sr ⟨k.reg a - immVal imm, decide ((immVal imm).toNat ≤ (k.reg a).toNat), (k.reg a).ssubOverflow (immVal imm)⟩)) s))

/-- Logic and moves (Tables DCY-7, DCY-8): the result of logic in rd with N and Z of it, C and V unchanged, TST and TSTI keeping the flags alone; no flag changes
under a move. -/
def Obligations.ScalarLogicAndMoves : Prop :=
  ∀ (c : CoreId) (f : Form) (d a b : Reg) (imm i16 : BitVec 16) (i6 : BitVec 6) (s : State),
    let bin : (Word → Word → Word) → Core → Core := fun g k => k.put d (g (k.reg a) (k.reg b)) (srNZ k.sr (g (k.reg a) (k.reg b)))
    let bini : (Word → Word → Word) → Core → Core := fun g k => k.put d (g (k.reg a) (imm.setWidth 32)) (srNZ k.sr (g (k.reg a) (imm.setWidth 32)))
    (Ready c f.bytes s → exec (.and c f d a b) s = .next (advance c f.bytes (bin (· &&& ·)) s)) ∧
    (Ready c f.bytes s → exec (.or c f d a b) s = .next (advance c f.bytes (bin (· ||| ·)) s)) ∧
    (Ready c f.bytes s → exec (.xor c f d a b) s = .next (advance c f.bytes (bin (· ^^^ ·)) s)) ∧
    (Ready c 4 s → exec (.andn c d a b) s = .next (advance c 4 (bin (fun x y => x &&& ~~~y)) s)) ∧
    (Ready c 2 s → exec (.not c d a) s = .next (advance c 2 (bin (fun x _ => ~~~x)) s)) ∧
    (Ready c 2 s → exec (.tst c a b) s = .next (advance c 2 (fun k => k.setSr (srNZ k.sr (k.reg a &&& k.reg b))) s)) ∧
    (Ready c 4 s → exec (.andi c d a imm) s = .next (advance c 4 (bini (· &&& ·)) s)) ∧
    (Ready c 4 s → exec (.ori c d a imm) s = .next (advance c 4 (bini (· ||| ·)) s)) ∧
    (Ready c 4 s → exec (.xori c d a imm) s = .next (advance c 4 (bini (· ^^^ ·)) s)) ∧
    (Ready c 4 s → exec (.tsti c a imm) s = .next (advance c 4 (fun k => k.setSr (srNZ k.sr (k.reg a &&& imm.setWidth 32))) s)) ∧
    (Ready c 2 s → exec (.nop c) s = .next (advance c 2 id s)) ∧
    (Ready c 2 s → exec (.mov c d a) s = .next (advance c 2 (fun k => k.setReg d (k.reg a)) s)) ∧
    (Ready c 2 s → exec (.movi c d i6) s = .next (advance c 2 (fun k => k.setReg d (BitVec.ofInt 32 i6.toInt)) s)) ∧
    (Ready c 4 s → exec (.lui c d i16) s = .next (advance c 4 (fun k => k.setReg d (BitVec.ofNat 32 (i16.toNat * 65536))) s))

/-- Shifts and rotates (R208, Table DCY-9): the count is the full register or immediate and is never masked; rotates take it modulo 32; SAL sets V where one of the
bits shifted out differs from bit 31 of the result. -/
def Obligations.ScalarShifts : Prop :=
  ∀ (c : CoreId) (f : Form) (d a b : Reg) (i6 : BitVec 6) (n : Byte) (s : State), (s.core c).tv = false →
    let shl : Word → Nat → Word := fun x n => BitVec.ofNat 32 (if n < 32 then x.toNat * 2 ^ n else 0)
    let shr : Word → Nat → Word := fun x n => BitVec.ofNat 32 (if n < 32 then x.toNat / 2 ^ n else 0)
    let sar : Word → Nat → Word := fun x n => if n < 32 then BitVec.ofInt 32 (x.toInt / 2 ^ n) else if x.msb then BitVec.allOnes 32 else 0
    let rol : Word → Nat → Word := fun x n => x.rotateLeft (n % 32)
    let ror : Word → Nat → Word := fun x n => x.rotateRight (n % 32)
    let nz : (Word → Nat → Word) → (Core → Nat) → Core → Core := fun g n k => k.put d (g (k.reg a) (n k)) (srNZ k.sr (g (k.reg a) (n k)))
    let lost : Word → Nat → Bool := fun x n => decide (∃ i : Fin 32, i.val < n ∧ x.getLsbD (31 - i.val) ≠ (shl x n).msb)
    let sal : (Core → Nat) → Core → Core := fun n k => k.put d (shl (k.reg a) (n k)) (srNZV k.sr (shl (k.reg a) (n k)) (lost (k.reg a) (n k)))
    let cnt : Core → Nat := fun k => (k.reg b).toNat
    (Ready c f.bytes s → exec (.shl c f d a b) s = .next (advance c f.bytes (nz shl cnt) s)) ∧
    (Ready c f.bytes s → exec (.shr c f d a b) s = .next (advance c f.bytes (nz shr cnt) s)) ∧
    (Ready c f.bytes s → exec (.sar c f d a b) s = .next (advance c f.bytes (nz sar cnt) s)) ∧
    (Ready c f.bytes s → exec (.sal c f d a b) s = .next (advance c f.bytes (sal cnt) s)) ∧
    (Ready c f.bytes s → exec (.rol c f d a b) s = .next (advance c f.bytes (nz rol cnt) s)) ∧
    (Ready c f.bytes s → exec (.ror c f d a b) s = .next (advance c f.bytes (nz ror cnt) s)) ∧
    (Ready c 4 s →
      exec (.shifti c d a 0 n) s = .next (advance c 4 (nz shl (fun _ => n.toNat)) s) ∧
      exec (.shifti c d a 1 n) s = .next (advance c 4 (nz shr (fun _ => n.toNat)) s) ∧
      exec (.shifti c d a 2 n) s = .next (advance c 4 (nz sar (fun _ => n.toNat)) s) ∧
      exec (.shifti c d a 3 n) s = .next (advance c 4 (sal (fun _ => n.toNat)) s) ∧
      exec (.shifti c d a 4 n) s = .next (advance c 4 (nz rol (fun _ => n.toNat)) s) ∧
      exec (.shifti c d a 5 n) s = .next (advance c 4 (nz ror (fun _ => n.toNat)) s)) ∧
    (d = a → Ready c 2 s →
      exec (.shli c d i6) s = .next (advance c 2 (nz shl (fun _ => i6.toNat)) s) ∧
      exec (.shri c d i6) s = .next (advance c 2 (nz shr (fun _ => i6.toNat)) s) ∧
      exec (.sari c d i6) s = .next (advance c 2 (nz sar (fun _ => i6.toNat)) s))

/-- Overflow traps (R209): with SR.TV = 1 an instruction that computes V writes its result and SR as ever; where it sets V to 1, vector 7 follows with the
instruction's offset, the saved PC being the next instruction: ADD, SUB, ADC, SBC, ADDI, NEG, ABS, CMP, CMPI and SAL in each of their forms. -/
def Obligations.OverflowTrapFollowsTheResult : Prop :=
  ∀ (c : CoreId) (f : Form) (d a b : Reg) (imm : Imm) (n : Byte) (s : State), (s.core c).tv = true →
    let k := s.core c
    let x := k.reg a
    let y := k.reg b
    let i := immVal imm
    let ci : Word := if srC k.sr then 1 else 0
    let bi : Word := if srC k.sr then 0 else 1
    let does : Nat → Bool → (Core → Core) → Out := fun len v g =>
      let after := advance c len g s
      .next (if v then stopHere c.val (raised c 7 0 k.pc.toNat (k.pc + BitVec.ofNat 32 len) after) else after)
    let sum : Nat → Word → Bool → Bool → Out := fun len r cy v => does len v (fun k => k.put d r (srNZCV k.sr ⟨r, cy, v⟩))
    let shl : Nat → Word := fun m => BitVec.ofNat 32 (if m < 32 then x.toNat * 2 ^ m else 0)
    let lost : Nat → Bool := fun m => decide (∃ i : Fin 32, i.val < m ∧ x.getLsbD (31 - i.val) ≠ (shl m).msb)
    let sal : Nat → Nat → Out := fun len m => does len (lost m) (fun k => k.put d (shl m) (srNZV k.sr (shl m) (lost m)))
    (Ready c f.bytes s →
      exec (.add c f d a b) s = sum f.bytes (x + y) (decide (2 ^ 32 ≤ x.toNat + y.toNat)) (x.saddOverflow y) ∧
      exec (.sub c f d a b) s = sum f.bytes (x - y) (decide (y.toNat ≤ x.toNat)) (x.ssubOverflow y) ∧
      exec (.cmp c f a b) s = does f.bytes (x.ssubOverflow y) (fun k => k.setSr (srNZCV k.sr ⟨x - y, decide (y.toNat ≤ x.toNat), x.ssubOverflow y⟩)) ∧
      exec (.sal c f d a b) s = sal f.bytes y.toNat) ∧
    (Ready c 4 s →
      exec (.adc c d a b) s = sum 4 (x + y + ci) (decide (2 ^ 32 ≤ x.toNat + y.toNat + ci.toNat)) (decide (x.toInt + y.toInt + ci.toInt ≠ (x + y + ci).toInt)) ∧
      exec (.sbc c d a b) s = sum 4 (x - y - bi) (decide (y.toNat + bi.toNat ≤ x.toNat)) (decide (x.toInt - y.toInt - bi.toInt ≠ (x - y - bi).toInt)) ∧
      exec (.shifti c d a 3 n) s = sal 4 n.toNat) ∧
    (Ready c (immLen imm) s →
      exec (.addi c d a imm) s = sum (immLen imm) (x + i) (decide (2 ^ 32 ≤ x.toNat + i.toNat)) (x.saddOverflow i) ∧
      exec (.cmpi c a imm) s = does (immLen imm) (x.ssubOverflow i) (fun k => k.setSr (srNZCV k.sr ⟨x - i, decide (i.toNat ≤ x.toNat), x.ssubOverflow i⟩))) ∧
    (Ready c 2 s →
      exec (.neg c d a) s = sum 2 (-x) (decide (x = 0)) (decide (x = 0x80000000)) ∧
      exec (.abs c d a) s = does 2 (decide (x = 0x80000000)) (fun k => k.put d (if x = 0x80000000 then 0x80000000 else BitVec.ofNat 32 x.toInt.natAbs)
        (srNZV k.sr (if x = 0x80000000 then 0x80000000 else BitVec.ofNat 32 x.toInt.natAbs) (decide (x = 0x80000000)))))

/-- g0 reads as 0 and discards writes, and a write of another register changes that one alone (R193). -/
def Obligations.RegisterZeroIsHardWired : Prop :=
  ∀ (k : Core) (d r : Reg) (v : Word),
    (k.setReg 0 v = k) ∧ k.reg 0 = 0 ∧ (k.setReg d v).reg r = (if r = 0 then 0 else if r = d then v else k.reg r) ∧
    { k.setReg d v with g := k.g } = k

/-- Loads and stores through a segment (R210–R212): where the access at offset `memOffset` passes, LD writes rd (and rd + 1 for a double-word) and
ST leaves its core's registers alone; LDS, STS, PUSH and POP go through SS, PUSH and POP moving SP by 4. The access itself is `loadAt` or
`storeAt`; nothing else changes.
An access over the rings is carried to its end inside the step: the model's choice, log entry 9. -/
def Obligations.LoadsAndStoresRetire : Prop :=
  ∀ (c : CoreId) (d : Reg) (m : MemOperand) (imm : BitVec 6) (v : Nat) (s u : State), GoesOn c u →
    let s0 := s.modCore c (fun k => { k with started := true, rep := none })
    let behind : Nat → (Core → Core) → Out := fun len f => .next (u.modCore c (fun k => { f k with pc := (s.core c).pc + BitVec.ofNat 32 len }))
    let k := s.core c
    (Ready c (memLen m) s → ¬ (memSize m = 8 ∧ d.val % 2 = 1) →
      (loadAt c (memSeg m) (memOffset m k) (memSize m) s0 = .ok v u → exec (.ld c d m) s = behind (memLen m) (fun k =>
        if memSize m = 8 then (k.setReg d (BitVec.ofNat 32 v)).setReg (d + 1) (BitVec.ofNat 32 (v / 2 ^ 32)) else k.setReg d (BitVec.ofNat 32 v))) ∧
      (storeAt c (memSeg m) (memOffset m k) (memSize m) ((k.reg d).toNat + if memSize m = 8 then 2 ^ 32 * (k.reg (d + 1)).toNat else 0) s0 = .ok v u →
        exec (.st c d m) s = behind (memLen m) id)) ∧
    (Ready c 2 s → loadAt c .ss (k.sp + 4 * imm.setWidth 32) 4 s0 = .ok v u → exec (.lds c d imm) s = behind 2 (fun k => k.setReg d (BitVec.ofNat 32 v))) ∧
    (Ready c 2 s → storeAt c .ss (k.sp + 4 * imm.setWidth 32) 4 (k.reg d).toNat s0 = .ok v u → exec (.sts c d imm) s = behind 2 id) ∧
    (Ready c 2 s → storeAt c .ss (k.sp - 4) 4 (k.reg d).toNat s0 = .ok v u → exec (.push c d) s = behind 2 (fun l => { l with sp := k.sp - 4 })) ∧
    (Ready c 2 s → loadAt c .ss k.sp 4 s0 = .ok v u → exec (.pop c d) s = behind 2 (fun l => Core.setReg { l with sp := l.sp + 4 } d (BitVec.ofNat 32 v)))

/-- A segment check that fails is a segment fault, and a misaligned access an alignment exception, before anything else changes (R210, R211): LD and ST.
The code of an instruction is fetched first (R202, R212): a parcel outside CS is a segment fault, one that the ring answers with an error is a bus error, and the
instruction goes on from the state t that the fetches of its code leave. -/
def Obligations.AccessChecksRaise : Prop :=
  ∀ (c : CoreId) (d : Reg) (m : MemOperand) (s : State), ¬ (memSize m = 8 ∧ d.val % 2 = 1) →
    let s0 := s.modCore c (fun k => { k with started := true, rep := none })
    let k := s.core c
    let o := memOffset m k
    let fetches : Nat → Instr → Prop := fun len i => s.executes c = true → k.traps = [] →
      (s.fetchOk c k.pc len = false → exec i s = .next (takeException c 3 0 k.pc.toNat k.pc s0)) ∧
      (s.fetchOk c k.pc len = true → ∀ (v st info : Nat) (t : State), begins c t = t → (t.core c).pc = k.pc →
        (fetchAll c (len / 2) k.pc s0 = .exc 6 st info t → exec i s = .next (takeException c 6 st info k.pc t)) ∧
        (fetchAll c (len / 2) k.pc s0 = .ok v t → Ready c len t → exec i s = exec i t))
    fetches (memLen m) (.ld c d m) ∧ fetches (memLen m) (.st c d m) ∧ fetches 4 (.mulu c d d) ∧ fetches 2 (.jr c d) ∧ (Ready c (memLen m) s →
    let g := k.seg (memSeg m)
    let inside : Prop := o.toNat + memSize m ≤ g.lim.toNat ∧ g.base.toNat + o.toNat + memSize m ≤ 2 ^ 40
    (¬ (inside ∧ g.r = true) → exec (.ld c d m) s = .next (raised c 3 (segCode (memSeg m)) o.toNat k.pc s0)) ∧
    (¬ (inside ∧ g.w = true) → exec (.st c d m) s = .next (raised c 3 (segCode (memSeg m)) o.toNat k.pc s0)) ∧
    (inside → g.r = true → (g.base.toNat + o.toNat) % memSize m ≠ 0 → exec (.ld c d m) s = .next (raised c 5 0 o.toNat k.pc s0)) ∧
    (inside → g.w = true → (g.base.toNat + o.toNat) % memSize m ≠ 0 → exec (.st c d m) s = .next (raised c 5 0 o.toNat k.pc s0)))

/-- A store to staging memory writes its bytes, little-endian, from the segment's base plus the offset, and no other byte of memory; a load
returns them (R9, R140, R210): where the segment and alignment pass, the initiator's path is open, its domain is up, and the line is sound.
An access over the rings is carried to its end inside the step: the model's choice, log entry 9. -/
def Obligations.StagingHoldsWhatIsStored : Prop :=
  ∀ (c : CoreId) (g : Seg) (o : Word) (n v : Nat) (s : State), n = 1 ∨ n = 2 ∨ n = 4 ∨ n = 8 → SoundAccess c g o n s →
    let x := (s.core c).seg g
    let a := x.base.toNat + o.toNat
    (x.w = true → ∃ t, storeAt c g o n v s = .ok 0 t ∧
      (∀ i, i < n → t.byte (a + i) = BitVec.ofNat 8 (v / 2 ^ (8 * i))) ∧ (∀ b, b < a ∨ a + n ≤ b → t.byte b = s.byte b) ∧
      t.cores = s.cores ∧ t.creg = s.creg ∧ t.seqs = s.seqs ∧ t.arr = s.arr) ∧
    (x.r = true → ∃ t, loadAt c g o n s = .ok (s.num a n) t ∧ (∀ b, t.byte b = s.byte b) ∧ t.cores = s.cores ∧ t.creg = s.creg ∧ t.seqs = s.seqs ∧ t.arr = s.arr)

/-- Control transfers (R204, R211): the PC is the target or the next instruction, by the conditions of Table DCY-6 over N, Z, C, V and AX at SR[0], [1], [2], [3]
and [10]; an odd register target is an alignment exception. -/
def Obligations.ControlTransfers : Prop :=
  ∀ (c : CoreId) (a : Reg) (cc : Fin 16) (o9 : BitVec 9) (o22 : BitVec 22) (s : State),
    let k := s.core c
    let n := k.sr.getLsbD 0
    let z := k.sr.getLsbD 1
    let cy := k.sr.getLsbD 2
    let v := k.sr.getLsbD 3
    let ax := k.sr.getLsbD 10
    let holds : Bool := match cc.val with
      | 0x0 => z | 0x1 => cy | 0x2 => n | 0x3 => v | 0x4 => cy && !z | 0x5 => n != v | 0x6 => z || n != v | 0x7 => ax
      | 0x8 => !z | 0x9 => !cy | 0xA => !n | 0xB => !v | 0xC => !cy || z | 0xD => n == v | 0xE => !z && n == v | _ => true
    let goto : Word → (Core → Core) → Out := fun t f => .next (s.modCore c (fun k => { f k with pc := t, rep := none, started := true }))
    (Ready c 2 s → exec (.jr c a) s = if (k.reg a).toNat % 2 = 0 then goto (k.reg a) id else
      .next (raised c 5 0 (k.reg a).toNat k.pc (s.modCore c (fun k => { k with started := true, rep := none })))) ∧
    (Ready c 2 s → exec (.bcc c cc (.o9 o9)) s = goto (if holds then k.pc + BitVec.ofInt 32 (2 * o9.toInt) else k.pc + 2) id) ∧
    (Ready c 4 s → exec (.bcc c cc (.o22 o22)) s = goto (if holds then k.pc + BitVec.ofInt 32 (2 * o22.toInt) else k.pc + 4) id) ∧
    (Ready c 4 s → exec (.loop c o22) s =
      goto (if k.rc - 1 = 0 then k.pc + 4 else k.pc + BitVec.ofInt 32 (2 * o22.toInt)) (fun k => { k with rc := k.rc - 1 }))

/-- Calls and returns (R204, R215): a call pushes the offset of the next instruction and goes to its target; RET pops the PC. -/
def Obligations.CallsAndReturns : Prop :=
  ∀ (c : CoreId) (a : Reg) (off : BitVec 26) (v : Nat) (s u : State), GoesOn c u →
    let s0 := s.modCore c (fun k => { k with started := true, rep := none })
    let k := s.core c
    let goto : Word → Word → Out := fun sp t => .next (u.modCore c (fun l => { l with sp := sp, pc := t }))
    (Ready c 4 s → storeAt c .ss (k.sp - 4) 4 (k.pc + 4).toNat s0 = .ok v u → exec (.call c off) s = goto (k.sp - 4) (k.pc + BitVec.ofInt 32 (2 * off.toInt))) ∧
    (Ready c 2 s → (k.reg a).toNat % 2 = 0 → storeAt c .ss (k.sp - 4) 4 (k.pc + 2).toNat s0 = .ok v u → exec (.callr c a) s = goto (k.sp - 4) (k.reg a)) ∧
    (Ready c 2 s → loadAt c .ss k.sp 4 s0 = .ok v u → v < 2 ^ 32 → v % 2 = 0 → (u.core c).sp = k.sp → exec (.ret c) s = goto (k.sp + 4) (BitVec.ofNat 32 v))

/-- Special registers (R194, R214, Table DCY-2): MFS and MFX read what the selector names, MTS writes it where SLOCK does not lock it, and a selector
that names nothing is illegal. PUSHS and POPS (R215): the pushed value is what the register held before SP fell; POPS into SP keeps the loaded value. -/
def Obligations.SpecialRegisters : Prop :=
  ∀ (c : CoreId) (d a : Reg) (sel : BitVec 12) (x : Fin 16) (r : SReg) (v : Nat) (s u : State),
    let k := s.core c
    let s0 := s.modCore c (fun k => { k with started := true, rep := none })
    let back : (Core → Core) → Out := fun f => .next (u.modCore c f)
    let goes : Prop := GoesOn c u ∧ Ready c 4 s
    let sr := BitVec.ofNat 32 (s.srOf c.val)
    let val := (k.readS r sr k.pc).1
    let hold : Core → Core := fun l => let h := (k.readS r sr k.pc).2
      { l with holdP := h.holdP, holdQR := h.holdQR, holdW := h.holdW, holdT := h.holdT }
    (Ready c 4 s → selOf c sel = some r → exec (.mfs c d sel) s = .next (advance c 4 (fun l => (hold l).setReg d val) s)) ∧
    (Ready c 2 s → x.val ≤ 8 → selOf c (BitVec.ofNat 12 (16 + x.val)) = some r → exec (.mfx c d x) s = .next (advance c 2 (fun l => (hold l).setReg d val) s)) ∧
    (Ready c 4 s → selWritable c sel = some r → s.locked c r = false → exec (.mts c a sel) s = .next (advance c 4 (fun l => l.writeS r (l.reg a)) s)) ∧
    (Ready c 4 s → selWritable c sel = some r → s.locked c r = true →
      exec (.mts c a sel) s = .next (raised c 2 0 k.pc.toNat k.pc (s.modCore c (fun k => { k with started := true, rep := none })))) ∧
    (Ready c 4 s → selOf c sel = none →
      exec (.mfs c d sel) s = .next (raised c 1 0 (2 ^ 31 + 8 * 2 ^ 26 + d.val * 2 ^ 22 + sel.toNat) k.pc (s.modCore c (fun k => { k with started := true, rep := none })))) ∧
    (goes → selOf c sel = some r → storeAt c .ss (k.sp - 4) 4 val.toNat s0 = .ok v u →
      exec (.pushs c sel) s = back (fun l => { hold l with sp := k.sp - 4, pc := k.pc + 4 })) ∧
    (goes → selWritable c sel = some r → s.locked c r = false → loadAt c .ss k.sp 4 s0 = .ok v u →
      exec (.pops c sel) s = back (fun l => { Core.writeS { l with sp := l.sp + 4 } r (BitVec.ofNat 32 v) with pc := k.pc + 4 }))

/-- The multiplier and the divider (R198, R205, R209, Table DCY-9): a product or a quotient is in flight until it lands, products in the order of issue; a divide
issued while another is in flight waits, and issues as that one lands; a landing writes D and V, and where TD or TV arms it the trap is taken with the offset of the
divide, the saved PC being the instruction not yet begun. -/
def Obligations.MultiplyAndDivide : Prop :=
  ∀ (c : CoreId) (a b : Reg) (p : Dword) (ps : List Dword) (x : DivFlight) (s : State),
    let k := s.core c
    let unsigned : DivFlight := if k.reg b = 0 then ⟨0xffffffff, k.reg a, true, false, k.pc⟩ else ⟨k.reg a / k.reg b, k.reg a % k.reg b, false, false, k.pc⟩
    let sgn : DivFlight :=
      if k.reg b = 0 then ⟨0xffffffff, k.reg a, true, false, k.pc⟩
      else if k.reg a = 0x80000000 ∧ k.reg b = 0xffffffff then ⟨0x80000000, 0, false, true, k.pc⟩
      else ⟨(k.reg a).sdiv (k.reg b), (k.reg a).srem (k.reg b), false, false, k.pc⟩
    (Ready c 4 s → exec (.mulu c a b) s = .next (advance c 4 (fun k => { k with muls := k.muls ++ [BitVec.ofNat 64 ((k.reg a).toNat * (k.reg b).toNat)] }) s)) ∧
    (Ready c 4 s → exec (.muls c a b) s = .next (advance c 4 (fun k => { k with muls := k.muls ++ [BitVec.ofInt 64 ((k.reg a).toInt * (k.reg b).toInt)] }) s)) ∧
    (Ready c 4 s → k.div = none → exec (.divu c a b) s = .next (advance c 4 (fun k => { k with div := some unsigned }) s)) ∧
    (Ready c 4 s → k.div = none → exec (.divs c a b) s = .next (advance c 4 (fun k => { k with div := some sgn }) s)) ∧
    let fresh : Bool → Core → DivFlight := fun g k => { (if g then sgn else unsigned) with off := k.pc }
    let landed : Core → Core := fun k => { k with div := none, quo := x.quo, rem := x.rem, sr := (k.sr &&& ~~~0x18) ||| (if x.d then 0x10 else 0) ||| (if x.v then 8 else 0) }
    (Ready c 4 s → k.div ≠ none → exec (.divu c a b) s = .next (waits c (.divider false a b) id s) ∧ exec (.divs c a b) s = .next (waits c (.divider true a b) id s)) ∧
    (k.muls = p :: ps → exec (.multiplyLanding c) s = .next (s.modCore c (fun k =>
      { k with muls := ps, plo := BitVec.ofNat 32 p.toNat, phi := BitVec.ofNat 32 (p.toNat / 2 ^ 32) }))) ∧
    (k.div = some x → k.run = .running → k.traps = [] → k.rep = none → exec (.divideLanding c) s = .next (
      if x.d = true ∧ k.sr.getLsbD 9 = true then takeException c 8 0 x.off.toNat k.pc (s.modCore c landed)
      else if x.v = true ∧ k.sr.getLsbD 8 = true then takeException c 7 0 x.off.toNat k.pc (s.modCore c landed)
      else s.modCore c landed)) ∧
    (∀ g, k.div = some x → k.run = .waiting (.divider g a b) → x.d = false → x.v = false → k.traps = [] → k.rep = none → k.started = true → s.stopping c.val = none →
      exec (.divideLanding c) s = .next (s.modCore c (fun k => { landed k with div := some (fresh g k), run := .running, pc := k.pc + 4 })))

/-- Entry for an exception (R216): with SS in staging memory, the saved PC, SR, CAUSE and INFO stand at SP − 4, − 8, − 12 and − 16, SP falls by 16, IE and
REPA are 0 and the handler at VB + 16 × vector follows; no other byte and no other register of the core changes. -/
def Obligations.ExceptionEntryPushesTheFrame : Prop :=
  ∀ (c : CoreId) (vec sub info : Nat) (pc : Word) (s : State), vec < 256 → sub < 256 → info < 2 ^ 32 → s.programOf c = none →
    let k := s.core c
    let a := k.ss.base.toNat + k.sp.toNat
    16 ≤ k.sp.toNat → k.ss.w = true → (∀ i : Fin 4, SoundAccess c .ss (k.sp - BitVec.ofNat 32 (4 * i.val + 4)) 4 s) → s.alive c = true →
    let t := takeException c vec sub info pc s
    t.core c = { k with sp := k.sp - 16, pc := k.vb + BitVec.ofNat 32 (16 * vec), sr := k.sr &&& ~~~0x880, run := .running, rep := none } ∧
      t.num (a - 4) 4 = pc.toNat ∧ t.num (a - 8) 4 = s.srOf c.val ∧ t.num (a - 12) 4 = vec * 2 ^ 24 + sub * 2 ^ 16 ∧ t.num (a - 16) 4 = info ∧
      (∀ b, b < a - 16 ∨ a ≤ b → t.byte b = s.byte b) ∧ t.creg = s.creg ∧ t.seqs = s.seqs ∧ t.arr = s.arr

/-- RETI (R217, R235, R236): from a frame in staging memory the core takes PC, SR and SP back; AX is that of the frame or the current one. The frame of an exception
completes nothing; that of an interrupt completes its source, and where a source is then deliverable at the IE and PL of the saved SR the return chains to it: it is
claimed, CAUSE and INFO are written anew, and its handler follows with SP as it was and at its level; the frame of a machine check clears MCIP and never chains. -/
def Obligations.ReturnFromException : Prop :=
  ∀ (c : CoreId) (s : State), Ready c 2 s → s.dom (coreDomain c) = 0 →
    let k := s.core c
    let a := k.ss.base.toNat + k.sp.toNat
    let cause := s.num (a + 4) 4
    let sr := BitVec.ofNat 32 (s.num (a + 8) 4)
    let j := cause % 1024
    let u := completeFrame c cause s
    let next := if sr.getLsbD 7 then u.best c.val (bits sr.toNat 20 8) else none
    let back : State → Prop := fun t => (t.core c).pc = BitVec.ofNat 32 (s.num (a + 12) 4) ∧ (t.core c).sp = k.sp + 16 ∧
      (t.core c).sr = (sr &&& 0x0ff00f9f) ||| (k.sr &&& 0x400) ∧ (∀ r, (t.core c).reg r = k.reg r) ∧ (∀ b, t.byte b = s.byte b)
    k.sp.toNat + 16 < 2 ^ 32 → k.ss.r = true → (∀ i : Fin 4, SoundAccess c .ss (k.sp + BitVec.ofNat 32 (4 * i.val)) 4 s) →
    (cause / 2 ^ 24 ≠ 16 → s.num (a + 12) 4 % 2 = 0 → Reaches (exec (.reti c) s) (fun t => back t ∧ t.creg = s.creg)) ∧
    (cause / 2 ^ 24 = 16 → j < 1022 → s.icuBit c.val 0x300 j = true → next = none → s.num (a + 12) 4 % 2 = 0 →
      Reaches (exec (.reti c) s) (fun t => back t ∧ t.icuBit c.val 0x300 j = false)) ∧
    (cause / 2 ^ 24 = 16 → j < 1022 → s.icuBit c.val 0x300 j = false → next = none → s.num (a + 12) 4 % 2 = 0 →
      Reaches (exec (.reti c) s) (fun t => back t ∧ t.creg = s.creg)) ∧
    (cause / 2 ^ 24 = 16 → j = 1022 → c = 5 → s.num (a + 12) 4 % 2 = 0 → Reaches (exec (.reti c) s) (fun t => back t ∧ t.bit (icu 5 0x28) 30 = false)) ∧
    (∀ n, cause / 2 ^ 24 = 16 → j < 1022 → s.icuBit c.val 0x300 j = true → next = some n → k.ss.w = true →
      Reaches (exec (.reti c) s) (fun t => (t.core c).pc = k.vb + 256 ∧ (t.core c).sp = k.sp ∧ bits (t.core c).sr.toNat 20 8 = s.level c.val n ∧
        (t.core c).sr.getLsbD 7 = true ∧ (t.core c).sr.getLsbD 11 = false ∧ (∀ r, (t.core c).reg r = k.reg r) ∧ t.icuBit c.val 0x300 n = true ∧
        (n ≠ j → t.icuBit c.val 0x300 j = false) ∧ t.num (a + 4) 4 = 16 * 2 ^ 24 + n ∧ ∀ b, b < a ∨ a + 8 ≤ b → t.byte b = s.byte b))

/-- Interrupt entry (R216, R231, R232): a core that may be interrupted, with IE = 1 and a deliverable source, claims the best one: it becomes active, and the
handler of vector 16 follows with a frame below SP. On the management core a machine check that waits comes first, and without IE or a deliverable
source nothing changes.
Where a command's trigger is absent nothing changes: the model's choice, log entry 5. -/
def Obligations.InterruptEntryClaims : Prop :=
  ∀ (c : CoreId) (j : Nat) (s : State),
    let k := s.core c
    (k.interruptible = true → s.domUp (coreDomain c) = true → k.sr.getLsbD 7 = true → s.best c.val (bits k.sr.toNat 20 8) = some j → ¬ (c = 5 ∧ s.mcPending = true) →
      k.traps = [] → k.started = true → 16 ≤ k.sp.toNat → k.ss.w = true → (∀ i : Fin 4, SoundAccess c .ss (k.sp - BitVec.ofNat 32 (4 * i.val + 4)) 4 s) →
      Reaches (exec (.interruptEntry c) s) (fun t => (t.core c).pc = k.vb + 256 ∧ (t.core c).sp = k.sp - 16 ∧ (t.core c).run = .running ∧
        t.icuBit c.val 0x300 j = true ∧ t.num (k.ss.base.toNat + k.sp.toNat - 4) 4 = k.pc.toNat ∧
        t.num (k.ss.base.toNat + k.sp.toNat - 12) 4 = 16 * 2 ^ 24 + j)) ∧
    (k.sr.getLsbD 7 = false ∨ s.best c.val (bits k.sr.toNat 20 8) = none → exec (.interruptEntry c) s = .next s)

/-- Machine-check entry (R236): the oldest record is announced with vector 16 and source 1,022 whatever IE holds, and MCIP is set; without a record, or
while one is in progress, nothing changes.
Where a command's trigger is absent nothing changes: the model's choice, log entry 5. -/
def Obligations.MachineCheckEntry : Prop :=
  ∀ (s : State),
    let k := s.core 5
    (k.atPoint = true → s.domUp 32 = true → s.mcPending = true → k.traps = [] → k.started = true → 16 ≤ k.sp.toNat → k.ss.w = true →
      (∀ i : Fin 4, SoundAccess 5 .ss (k.sp - BitVec.ofNat 32 (4 * i.val + 4)) 4 s) →
      Reaches (exec .machineCheckEntry s) (fun t => (t.core 5).pc = k.vb + 256 ∧ (t.core 5).sp = k.sp - 16 ∧ (t.core 5).sr = k.sr &&& ~~~0x880 ∧
        t.bit (icu 5 0x28) 30 = true ∧ t.mcq = s.mcq ∧ t.num (k.ss.base.toNat + k.sp.toNat - 12) 4 = 16 * 2 ^ 24 + 1022)) ∧
    (s.mcPending = false → exec .machineCheckEntry s = .next s)

/-- Waits and traps (R201, R205, R216): SYNC and WFI go on where what they wait for is there, and wait otherwise; their completion resumes the core behind
them; TRAP raises vector 9 with its immediate, the saved PC being the next instruction. -/
def Obligations.WaitsAndTraps : Prop :=
  ∀ (c : CoreId) (m : BitVec 4) (imm : BitVec 12) (s : State),
    let k := s.core c
    (Ready c 2 s → c ≠ 5 ∨ m.toNat < 4 → exec (.sync c m) s = .next (if s.syncHolds c m then advance c 2 id s else waits c (.sync m) id s)) ∧
    (Ready c 4 s → exec (.wfi c) s = .next (if s.wfiHolds c then advance c 4 id s else waits c .wfi id s)) ∧
    (k.run = .waiting (.sync m) → k.rep = none → k.started = true → k.traps = [] →
      exec (.syncComplete c) s = .next (if s.syncHolds c m then stopHere c.val (s.modCore c (fun k => { k with run := .running, pc := k.pc + 2 })) else s)) ∧
    (k.run = .waiting .wfi → k.rep = none → k.started = true → k.traps = [] → s.domUp (coreDomain c) = true →
      exec (.wfiComplete c) s = .next (if s.wfiHolds c then stopHere c.val (s.modCore c (fun k => { k with run := .running, pc := k.pc + 4 })) else s)) ∧
    (Ready c 4 s → exec (.trap c imm) s = .next (raised c 9 0 imm.toNat (k.pc + 4) (s.modCore c (fun k => { k with started := true, rep := none }))))

/-- The repeat prefixes (R219, R220): with RC = 0 the following instruction is skipped; a repeated NOP runs RC times, RI counting up from 0, and
leaves RC and REPA at 0 behind the pair; REPN with more than 256 iterations is illegal.
That RC = 0 checks the following instruction first and leaves RI, with REPA at 0, and that INFO of an illegal prefix is its own parcel, is the model's reading, log
entry 31. -/
def Obligations.RepeatPrefixes : Prop :=
  ∀ (c : CoreId) (v : Nat) (s t : State), Ready c 2 s → GoesOn c t → (t.core c).rep = none →
    let s0 := s.modCore c (fun k => { k with started := true, rep := none })
    t.core c = s0.core c → fetchInsn c ((s.core c).pc + 2) s0 = .ok v t → prefixIllegal c (BitVec.ofNat 64 v) (v / 2 ^ 64) = false →
    let len := v / 2 ^ 64
    let k := s.core c
    (k.rc = 0 → exec (.rep c none) s = .next (t.modCore c (fun k => { k with pc := k.pc + 2 + BitVec.ofNat 32 len, sr := k.sr &&& ~~~0x800 })) ∧
      exec (.repn c) s = exec (.rep c none) s) ∧
    (k.rc ≠ 0 → k.sr.getLsbD 11 = false → v = 2 * 2 ^ 64 →
      exec (.rep c none) s = .next (t.modCore c (fun k => { k with rc := 0, ri := k.rc, sr := k.sr &&& ~~~0x800, pc := k.pc + 4 })) ∧
      (k.rc.toNat ≤ 256 → exec (.repn c) s = exec (.rep c none) s)) ∧
    (256 < k.rc.toNat → exec (.repn c) s = .next (takeException c 1 0 0x1d00 k.pc t))

/-- The coprocessor port (R222, R223, R346): an enabled COPn through an open port presents its operands, while CQ_RDY is 1 at once and else when the design next
takes them, and waits; the reply of its TAG to a request that was taken writes gd, and the flags where it brings them; a request that has not been taken, or that
the port has dropped, has no reply; a timeout raises vector 10 with subcode 2; a FUNC that is not enabled is illegal.
The order of the flag bits in the operand is the model's, log entry 16; that a request which waits is presented as a tick finds the port's signals with CQ_RDY, free
values of the design, is log entries 41 and 2. -/
def Obligations.CoprocessorRequests : Prop :=
  ∀ (c : CoreId) (func : BitVec 6) (d a b : Reg) (imm : Byte) (tag : BitVec 4) (x y v : Word) (f : BitVec 4) (at_ : CopStage) (s : State),
    let k := s.core c
    let s0 := s.modCore c (fun k => { k with started := true, rep := none })
    (Ready c 4 s → s.copEnabled c func = true → s.portOpen c.val = true →
      exec (.copn c func d a b imm) s = .next (waits c (.cop k.copTag d func (k.reg a) (k.reg b) imm (if (s.micro_ c.val).cq then .sent else .waiting)) (fun k => { k with copTag := k.copTag + 1 }) s)) ∧
    (Ready c 4 s → s.copEnabled c func = true → s.portOpen c.val = false → exec (.copn c func d a b imm) s = .next (raised c 10 1 func.toNat k.pc s0)) ∧
    (k.run = .waiting (.cop tag d func x y imm at_) → k.rep = none → k.started = true → k.traps = [] →
      (at_ = .sent → s.portOpen c.val = true → exec (.copReply c tag v none) s = .next (stopHere c.val (s.modCore c (fun k => { k.setReg d v with run := .running, pc := k.pc + 4 })))) ∧
      (at_ = .sent → s.portOpen c.val = true → k.tv = false → exec (.copReply c tag v (some f)) s = .next (stopHere c.val (s.modCore c (fun k =>
        { k.setReg d v with sr := mix k.sr 0xf (copFlags f), run := .running, pc := k.pc + 4 })))) ∧
      (at_ ≠ .sent → exec (.copReply c tag v none) s = .next s) ∧
      (at_ = .waiting → s.portOpen c.val = true → (Config.portSignals s.free c.val).2.1 = true →
        ((drivePort c.val s).core c).run = .waiting (.cop tag d func x y imm .sent)) ∧
      exec (.copTimeout c) s = .next (raised c 10 2 func.toNat k.pc (s.modCore c (fun k => { k with run := .running }))))

/-- Array instructions (R60–R65, R70, R81, R82, Table DCY-10). The checks of R62 give one of four outcomes: illegal instruction, illegal state, array segment fault or
entry. The opcodes that no table lists, modes 6 to 15, and a selector of a reserved kind are illegal; without an array the rest is an illegal state; of fields
A, B and D the first that fails names the fault, with subcode 1 beyond a limit, 2 without the right, 3 for a key field where KEY = 0, and INFO its letter and offset; an
entry holds absolute addresses and the value that the selector captures. An entry is pushed to the queue, or to the preemption lane while a routine is suspended; on a
full queue the core waits, and goes on when an entry has freed, with the plane function's ENTRY and the key segment as they then are.
That last is the model's reading of R85 and R92, log entry 31. -/
def Obligations.ArrayPushes : Prop :=
  (∀ (c : CoreId) (w : Dword) (q : QEntry) (p : Nat) (sub info : Nat) (s : State), c ≠ 5 →
    let k := s.core c
    let s0 := s.modCore c (fun k => { k with started := true, rep := none })
    let pushed : QEntry → State → Prop := fun q t => (t.core c).pc = k.pc + 8 ∧ (t.core c).run = .running ∧
      (if (s.seq c.val).susp then (t.seq c.val).lane = (s.seq c.val).lane ++ [q] ∧ (t.seq c.val).queue = (s.seq c.val).queue
       else (t.seq c.val).queue = (s.seq c.val).queue ++ [q] ∧ (t.seq c.val).lane = (s.seq c.val).lane)
    (Ready c 8 s → arrayCheck s0 c.val w 0 = .ok q → (s.seq c.val).full = false → Reaches (exec (.arrayInstruction c w) s) (pushed q)) ∧
    (Ready c 8 s → arrayCheck s0 c.val w 0 = .ok q → (s.seq c.val).full = true → exec (.arrayInstruction c w) s = .next (waits c (.push q) id s)) ∧
    (k.run = .waiting (.push q) → k.rep = none → k.started = true → k.traps = [] → (s.seq c.val).full = false → s.drives c.val = some p →
      Reaches (exec (.arrayPushResume c) s) (pushed { q with
        entry := if 0xE0 ≤ q.op.toNat then BitVec.ofNat 15 (0x3000 + s.fld (cr 9 (0x400 + 8 * (q.op.toNat - 0xE0))) 0 12) else q.entry
        klen := BitVec.ofNat 13 (s.keyLen p), kbase := BitVec.ofNat 12 (s.keyBase p) })) ∧
    (Ready c 8 s → arrayCheck s0 c.val w 0 = .illegal → exec (.arrayInstruction c w) s = .next (raised c 1 0 (w.toNat / 2 ^ 32) k.pc s0)) ∧
    (Ready c 8 s → arrayCheck s0 c.val w 0 = .illegalState → exec (.arrayInstruction c w) s = .next (raised c 2 0 k.pc.toNat k.pc s0)) ∧
    (Ready c 8 s → arrayCheck s0 c.val w 0 = .segFault sub info → exec (.arrayInstruction c w) s = .next (raised c 4 sub info k.pc s0))) ∧
  ∀ (c : SeqId) (w : Dword) (i : Nat) (s : State),
    let k := s.core (Fin.ofNat 6 c.val)
    let op := w.toNat / 2 ^ 54 % 256
    let n := w.toNat / 2 ^ 48 % 64 + 1
    let fa := w.toNat / 2 ^ 36 % 4096
    let fb := w.toNat / 2 ^ 24 % 4096
    let fd := w.toNat / 2 ^ 12 % 4096
    let mode := w.toNat / 2 ^ 8 % 16
    let key := w.toNat % 2
    let on := fun (f : Nat) => f + if w.toNat / 4 % 2 = 1 then n * i else 0
    let x := arrayCheck s c.val w i
    (opInfo op n = none ↔ 0x10 ≤ op ∧ op ≤ 0x1F ∨ 0x2A ≤ op ∧ op ≤ 0x2F ∨ op = 0x3E ∨ op = 0x3F ∨ 0x46 ≤ op ∧ op ≤ 0x4F ∨ 0x55 ≤ op ∧ op ≤ 0x5F ∨
      0x61 ≤ op ∧ op ≤ 0x6F ∨ 0x71 ≤ op ∧ op ≤ 0xDF) ∧
    (opInfo op n = none ∨ 6 ≤ mode → x = .illegal) ∧
    ∀ o, opInfo op n = some o →
      let bo := if o.fb = .field then on fb else fb
      let fails : Nat → Nat → Bool → Bool → Option Nat := fun off ext rd wr =>
        if ext = 0 then none
        else if k.asLim.toNat < off + ext ∨ 4096 < k.asBase.toNat + off + ext then some 1
        else if (rd = true ∧ k.asR = false) ∨ (wr = true ∧ k.asW = false) then some 2
        else match s.drives c.val with
          | some p => if key = 0 ∧ k.asBase.toNat + off < s.keyBase p + s.keyLen p ∧ s.keyBase p < k.asBase.toNat + off + ext ∧ s.keyLen p ≠ 0 then some 3 else none
          | none => none
      let fA := fails (on fa) o.ea true false
      let fB := fails bo o.eb (!o.bWrite) o.bWrite
      let fD := fails (on fd) o.ed o.dRead (!o.dRead)
      (o.fb = .beta → 0x500 ≤ fb ∨ fb / 256 = 1 ∧ fb % 16 = 15 ∨ fb / 256 = 2 ∧ 8 ≤ fb % 256 → x = .illegal) ∧
      (x ≠ .illegal →
        (s.drives c.val = none → x = .illegalState) ∧
        (s.drives c.val ≠ none →
          (∀ e, fA = some e → x = .segFault e (0x41 * 2 ^ 24 + on fa % 4096)) ∧
          (∀ e, fA = none → fB = some e → x = .segFault e (0x42 * 2 ^ 24 + bo % 4096)) ∧
          (∀ e, fA = none → fB = none → fD = some e → x = .segFault e (0x44 * 2 ^ 24 + on fd % 4096)) ∧
          (fA = none → fB = none → fD = none → ∃ q, x = .ok q ∧ q.op.toNat = op ∧ q.n = n ∧ q.mode.toNat = mode ∧ q.mod.toNat = w.toNat % 256 ∧
            (o.ea ≠ 0 → q.a.toNat = k.asBase.toNat + on fa) ∧ (o.eb ≠ 0 → q.b.toNat = k.asBase.toNat + bo) ∧ (o.ed ≠ 0 → q.d.toNat = k.asBase.toNat + on fd) ∧
            (o.fb = .beta → q.beta = (match fb / 256 with
              | 0 => (k.reg (Fin.ofNat 16 fb)).setWidth 64
              | 1 => k.reg (Fin.ofNat 16 (fb + 1)) ++ k.reg (Fin.ofNat 16 fb)
              | 2 => tget (konst 0) k.bkey (fb % 8)
              | 3 => BitVec.ofNat 64 (fb % 256)
              | _ => (BitVec.ofNat 8 fb).signExtend 64)) ∧
            (o.fb = .beta → fb / 256 = 2 → q.care = tget (konst 0) k.bcare (fb % 8)) ∧
            (0xE0 ≤ op → q.entry.toNat = 0x3000 + s.fld (cr 9 (0x400 + 8 * (op - 0xE0))) 0 12))))

/-- APRE and ARES (R103, R104, R108): APRE waits with its stop request while the sequencer drives a partition and nothing is suspended; it answers 2 where
no resumption point comes in time; ARES lets the suspended frame resume. Elsewhere both are an illegal state. -/
def Obligations.SuspendAndResumeRequests : Prop :=
  ∀ (c : CoreId) (d : Reg) (p : Quad) (s : State), c ≠ 5 → Ready c 4 s →
    let k := s.core c
    let s0 := s.modCore c (fun k => { k with started := true, rep := none })
    (s.drives c.val ≠ none → (s.seq c.val).susp = false → exec (.apre c d) s = .next (waits c (.apre d) id s)) ∧
    (s.drives c.val = none ∨ (s.seq c.val).susp = true → exec (.apre c d) s = .next (raised c 2 0 k.pc.toNat k.pc s0)) ∧
    (s.drives c.val = none ∨ (s.seq c.val).susp = false → exec (.ares c) s = .next (raised c 2 0 k.pc.toNat k.pc s0)) ∧
    (s.drives c.val ≠ none → (s.seq c.val).susp = true → exec (.ares c) s = .next ((advance c 4 id s).modSeq c.val (fun x => { x with resuming := true }))) ∧
    (∀ u : State, (u.core (u.driver p.val)).run = .waiting (.apre d) →
      exec (.apreNoRp p) u = .next (stopHere (u.driver p.val) (u.modCore (u.driver p.val) (fun k => { k.setReg d 2 with pc := k.pc + 4, run := .running }))))

-- Array instructions (chapters 02, 03)

/-- Truth tables, moves and logic (R38, R71, Table AOP-5): bit i of a PE result is bit 4a + 2x + c of the table, for the PE's own a, x and c; with D equal to a
source or apart from it, bit k of D is the operation of bits k of A, B and β, in the PEs that take part; K and E do not change. MOV and NOT hold whatever
the overlap (R79). -/
def Obligations.ArrayMovesAndLogic : Prop :=
  (∀ (t : Byte) (a x c : Plane) (i : Nat), i < 2 ^ 20 →
    (table t a x c).getLsbD i = t.getLsbD (4 * b2n (a.getLsbD i) + 2 * b2n (x.getLsbD i) + b2n (c.getLsbD i))) ∧
  ∀ (p : Quad) (q : QEntry) (lane : Bool) (s : State), HeadIs p q lane s → q.mode.toNat ≤ 1 → Inside q.a q.n → Inside q.b q.n → Inside q.d q.n →
    let gives : Out → (Bool → Bool → Bool → Bool) → Prop := fun out f => Reaches out (fun t => Retired p q lane (rowsOf q.d q.n) s t ∧
      t.arr.k = s.arr.k ∧ t.arr.e = s.arr.e ∧ ∀ i k, k < q.n → Takes p q s i → t.bitAt q.d k i = f (s.bitAt q.a k i) (s.bitAt q.b k i) (q.beta_ k))
    (q.op = 0x01 → gives (exec (.arrayMov p) s) (fun a _ _ => a)) ∧
    (q.op = 0x02 → gives (exec (.movb p) s) (fun _ _ v => v)) ∧
    (q.op = 0x03 → gives (exec (.arrayNot p) s) (fun a _ _ => !a)) ∧
    (ExactOrApart q.d q.a q.n →
      (q.op = 0x08 → gives (exec (.andb p) s) (fun a _ v => a && v)) ∧ (q.op = 0x09 → gives (exec (.orb p) s) (fun a _ v => a || v)) ∧
      (q.op = 0x0A → gives (exec (.xorb p) s) (fun a _ v => a != v)) ∧
      (ExactOrApart q.d q.b q.n →
        (q.op = 0x04 → gives (exec (.arrayAnd p) s) (fun a b _ => a && b)) ∧ (q.op = 0x05 → gives (exec (.arrayOr p) s) (fun a b _ => a || b)) ∧
        (q.op = 0x06 → gives (exec (.arrayXor p) s) (fun a b _ => a != b)) ∧ (q.op = 0x07 → gives (exec (.arrayAndn p) s) (fun a b _ => a && !b))))

/-- Activity (R71, Table AOP-5): EMOV, KPUSH, KELSE, KPOP and ECLR in every PE of the partition, EMOV and ECLR by their mode; ANOP does nothing. -/
def Obligations.ArrayActivity : Prop :=
  ∀ (p : Quad) (q : QEntry) (lane : Bool) (s : State), HeadIs p q lane s →
    let one : Out → (Nat → Prop) → (State → Prop) → Prop := fun out rows f => Reaches out (fun t => Retired p q lane rows s t ∧ f t)
    let d := rowsOf q.d 1
    (q.op = 0x00 → q.mode = 0 → one (exec (.anop p) s) (fun _ => False) (fun t =>
      t.arr.x = s.arr.x ∧ t.arr.c = s.arr.c ∧ t.arr.n = s.arr.n ∧ t.arr.k = s.arr.k ∧ t.arr.e = s.arr.e)) ∧
    (q.op = 0x0B → q.mode.toNat ≤ 1 → one (exec (.emov p) s) d (fun t => t.arr.k = s.arr.k ∧ t.arr.e = s.arr.e ∧
      ∀ i, Takes p q s i → t.bitAt q.d 0 i = s.arr.e.getLsbD i)) ∧
    (q.op = 0x0C → q.mode = 0 → one (exec (.kpush p) s) d (fun t => t.arr.e = s.arr.e ∧
      ∀ i, InPart p s i → t.bitAt q.d 0 i = s.arr.k.getLsbD i ∧ t.arr.k.getLsbD i = (s.arr.k.getLsbD i && s.bitAt q.a 0 i))) ∧
    (q.op = 0x0D → q.mode = 0 → one (exec (.kelse p) s) (fun _ => False) (fun t => t.arr.e = s.arr.e ∧
      ∀ i, InPart p s i → t.arr.k.getLsbD i = (s.bitAt q.d 0 i && !s.arr.k.getLsbD i))) ∧
    (q.op = 0x0E → q.mode = 0 → one (exec (.kpop p) s) (fun _ => False) (fun t => t.arr.e = s.arr.e ∧
      ∀ i, InPart p s i → t.arr.k.getLsbD i = s.bitAt q.a 0 i)) ∧
    (q.op = 0x0F → q.mode.toNat ≤ 1 → one (exec (.eclr p) s) (fun _ => False) (fun t => t.arr.k = s.arr.k ∧
      ∀ i, t.arr.e.getLsbD i = true ↔ (s.arr.e.getLsbD i = true ∧ ¬ Takes p q s i)))

/-- Sums, differences, negation and magnitude (R71, R79, Table AOP-6), D equal to a source or apart from it: where the exact result fits n bits it is D;
with T the bound it passed is D; else D is the result modulo 2^n and E is set. -/
def Obligations.ArraySums : Prop :=
  ∀ (p : Quad) (q : QEntry) (lane : Bool) (s : State), HeadIs p q lane s → q.mode.toNat ≤ 1 → Inside q.a q.n → Inside q.b q.n → Inside q.d q.n →
    ExactOrApart q.d q.a q.n →
    let n := q.n
    let gives : Out → Bool → (Nat → Int) → Prop := fun out sgn exact => Reaches out (fun t => Retired p q lane (rowsOf q.d n) s t ∧ t.arr.k = s.arr.k ∧
      ∀ i, Takes p q s i →
        let r := exact i
        let fits : Bool := decide (minOf sgn n ≤ r ∧ r ≤ maxOf sgn n)
        t.fieldAt q.d n i = ((if !fits && q.sat then (if 0 < r then maxOf sgn n else minOf sgn n) else r) % 2 ^ n).toNat ∧
        t.arr.e.getLsbD i = (s.arr.e.getLsbD i || (!fits && !q.sat)))
    let a : Nat → Int := fun i => readAs q.sgn n (s.fieldAt q.a n i)
    let b : Nat → Int := fun i => readAs q.sgn n (s.fieldAt q.b n i)
    let v : Int := readAs q.sgn n (q.beta.toNat % 2 ^ n)
    let sa : Nat → Int := fun i => readAs true n (s.fieldAt q.a n i)
    (q.op = 0x22 → gives (exec (.addb p) s) q.sgn (fun i => a i + v)) ∧ (q.op = 0x23 → gives (exec (.subb p) s) q.sgn (fun i => a i - v)) ∧
    (q.op = 0x24 → gives (exec (.rsubb p) s) q.sgn (fun i => v - a i)) ∧
    (q.op = 0x25 → gives (exec (.arrayNeg p) s) true (fun i => -(sa i))) ∧ (q.op = 0x26 → gives (exec (.arrayAbs p) s) true (fun i => (sa i).natAbs)) ∧
    (ExactOrApart q.d q.b n →
      (q.op = 0x20 → gives (exec (.arrayAdd p) s) q.sgn (fun i => a i + b i)) ∧ (q.op = 0x21 → gives (exec (.arraySub p) s) q.sgn (fun i => a i - b i)))

/-- Products and quotients (R71, R79, Table AOP-6), D apart from A and B, run to the end: MUL keeps the low n bits and sets E where the product does not
fit; MULW gives 2n bits; DIV gives quotient and remainder truncated toward zero, all ones and A for a zero divisor. Stopped after k steps, the
instruction stands at its next resumption point.
Where a stopped instruction stands is the model's reading, log entry 12. -/
def Obligations.ArrayProducts : Prop :=
  ∀ (p : Quad) (q : QEntry) (lane : Bool) (s : State), HeadIs p q lane s → (s.seq (s.driver p)).run = none → q.mode.toNat ≤ 1 → Inside q.a q.n → Inside q.b q.n →
    let n := q.n
    let a : Nat → Int := fun i => readAs q.sgn n (s.fieldAt q.a n i)
    let b : Nat → Int := fun i => readAs q.sgn n (s.fieldAt q.b n i)
    let apart : Nat → Prop := fun w => Inside q.d w ∧ overlap q.a.toNat n q.d.toNat w = false ∧ overlap q.b.toNat n q.d.toNat w = false
    let gives : Out → Nat → (Nat → Nat × Bool) → Prop := fun out w f => Reaches out (fun t => Retired p q lane (rowsOf q.d w) s t ∧ t.arr.k = s.arr.k ∧
      ∀ i, Takes p q s i → t.fieldAt q.d w i = (f i).1 ∧ t.arr.e.getLsbD i = (s.arr.e.getLsbD i || (f i).2))
    (q.op = 0x27 → apart n → gives (exec (.mul p none) s) n (fun i =>
      ((a i * b i % 2 ^ n).toNat, decide (¬ (minOf q.sgn n ≤ a i * b i ∧ a i * b i ≤ maxOf q.sgn n))))) ∧
    (q.op = 0x28 → apart (2 * n) → gives (exec (.mulw p none) s) (2 * n) (fun i => ((a i * b i % 2 ^ (2 * n)).toNat, false))) ∧
    (q.op = 0x29 → apart (2 * n) → gives (exec (.div p none) s) (2 * n) (fun i =>
      if b i = 0 then (2 ^ n - 1 + 2 ^ n * s.fieldAt q.a n i, true)
      else (((a i).tdiv (b i) % 2 ^ n).toNat + 2 ^ n * ((a i).tmod (b i) % 2 ^ n).toNat, decide (q.sgn = true ∧ a i = minOf true n ∧ b i = -1)))) ∧
    (∀ k, k < mulDivParts q →
      let stops : Out → Prop := fun out => Reaches out (fun t => (t.seq (s.driver p)).run.map (fun r => (r.q, r.lane, r.steps)) = some (q, lane, k))
      (q.op = 0x27 → apart n → stops (exec (.mul p (some k)) s)) ∧ (q.op = 0x28 → apart (2 * n) → stops (exec (.mulw p (some k)) s)) ∧
        (q.op = 0x29 → apart (2 * n) → stops (exec (.div p (some k)) s)))

/-- Predicates (R71–R74, Table AOP-7): r is D in the PEs that take part; the mode says whether K stays (0, 1) or becomes K and r (2), K or r (3), r (4),
or K and not r (5); E does not change. -/
def Obligations.ArrayPredicates : Prop :=
  ∀ (p : Quad) (q : QEntry) (lane : Bool) (s : State), HeadIs p q lane s → q.mode.toNat ≤ 5 →
    let n := q.n
    let gives : Out → (Nat → Prop) → Prop := fun out r => Reaches out (fun t => Retired p q lane (rowsOf q.d 1) s t ∧ t.arr.e = s.arr.e ∧
      (∀ i, Takes p q s i → (t.bitAt q.d 0 i = true ↔ r i)) ∧
      ∀ i, InPart p s i → (t.arr.k.getLsbD i = true ↔ match q.mode.toNat with
        | 2 => s.arr.k.getLsbD i = true ∧ r i
        | 3 => s.arr.k.getLsbD i = true ∨ r i
        | 4 => r i
        | 5 => s.arr.k.getLsbD i = true ∧ ¬ r i
        | _ => s.arr.k.getLsbD i = true))
    let a : Nat → Int := fun i => readAs q.sgn n (s.fieldAt q.a n i)
    let b : Nat → Int := fun i => readAs q.sgn n (s.fieldAt q.b n i)
    let v : Int := readAs q.sgn n (q.beta.toNat % 2 ^ n)
    (q.op = 0x30 → gives (exec (.cmpeq p) s) (fun i => a i = b i)) ∧ (q.op = 0x31 → gives (exec (.cmpne p) s) (fun i => a i ≠ b i)) ∧
    (q.op = 0x32 → gives (exec (.cmplt p) s) (fun i => a i < b i)) ∧ (q.op = 0x33 → gives (exec (.cmple p) s) (fun i => a i ≤ b i)) ∧
    (q.op = 0x34 → gives (exec (.cmpgt p) s) (fun i => b i < a i)) ∧ (q.op = 0x35 → gives (exec (.cmpge p) s) (fun i => b i ≤ a i)) ∧
    (q.op = 0x36 → gives (exec (.testz p) s) (fun i => s.fieldAt q.a n i = 0)) ∧ (q.op = 0x37 → gives (exec (.testnz p) s) (fun i => s.fieldAt q.a n i ≠ 0)) ∧
    (q.op = 0x38 → gives (exec (.cmpeqb p) s) (fun i => a i = v)) ∧ (q.op = 0x39 → gives (exec (.cmpneb p) s) (fun i => a i ≠ v)) ∧
    (q.op = 0x3A → gives (exec (.cmpltb p) s) (fun i => a i < v)) ∧ (q.op = 0x3B → gives (exec (.cmpleb p) s) (fun i => a i ≤ v)) ∧
    (q.op = 0x3C → gives (exec (.cmpgtb p) s) (fun i => v < a i)) ∧ (q.op = 0x3D → gives (exec (.cmpgeb p) s) (fun i => v ≤ a i)) ∧
    (q.op = 0x40 → gives (exec (.find p) s) (fun i => s.fieldAt q.a n i = q.beta.toNat % 2 ^ n)) ∧
    (q.op = 0x41 → gives (exec (.matchMasked p) s) (fun i => ∀ k, k < n → q.care.getLsbD k = true → s.bitAt q.a k i = q.beta_ k))

/-- Shifts and rotates (R77, R79, Table AOP-9), whatever the overlap: SHL by β modulo 2^n, with S recording in E where the signed result does not fit;
SHR, SAR, and the rotates by β mod n. -/
def Obligations.ArrayShifts : Prop :=
  ∀ (p : Quad) (q : QEntry) (lane : Bool) (s : State), HeadIs p q lane s → q.mode.toNat ≤ 1 → Inside q.a q.n → Inside q.d q.n →
    let n := q.n
    let m := q.beta.toNat
    let gives : Out → (Nat → Nat × Bool) → Prop := fun out f => Reaches out (fun t => Retired p q lane (rowsOf q.d n) s t ∧ t.arr.k = s.arr.k ∧
      ∀ i, Takes p q s i → t.fieldAt q.d n i = (f i).1 ∧ t.arr.e.getLsbD i = (s.arr.e.getLsbD i || (f i).2))
    let turn : Nat → Nat → Nat := fun v l => (v * 2 ^ l) % 2 ^ n + v / 2 ^ (n - l)
    let a : Nat → Nat := fun i => s.fieldAt q.a n i
    let sa : Nat → Int := fun i => readAs true n (a i)
    (q.op = 0x50 → gives (exec (.arrayShl p) s) (fun i => (a i * 2 ^ m % 2 ^ n,
      q.sgn && decide (¬ (minOf true n ≤ sa i * 2 ^ m ∧ sa i * 2 ^ m ≤ maxOf true n))))) ∧
    (q.op = 0x51 → gives (exec (.arrayShr p) s) (fun i => (a i / 2 ^ m, false))) ∧
    (q.op = 0x52 → gives (exec (.arraySar p) s) (fun i => ((sa i / 2 ^ m % 2 ^ n).toNat, false))) ∧
    (q.op = 0x53 → gives (exec (.arrayRol p) s) (fun i => (turn (a i) (m % n), false))) ∧
    (q.op = 0x54 → gives (exec (.arrayRor p) s) (fun i => (turn (a i) ((n - m % n) % n), false)))

/-- Reductions (R76, R126–R131, Table AOP-8): ANY offers A[0] to the wick and COUNT to the count tree; READOUT offers A bit by bit; SELFIRST at partition
scope leaves F naming the lowest active PE, and that one alone active. -/
def Obligations.ArrayReductions : Prop :=
  ∀ (p : Quad) (q : QEntry) (lane : Bool) (s : State), HeadIs p q lane s →
    let none_ : Nat → Prop := fun _ => False
    let o : Nat → Bool → Offer := fun k last => ⟨q.scope, false, BitVec.ofNat 6 k, last, false, s.plane (at_ q.a k).toNat &&& takes p q s, none, false⟩
    (q.op = 0x43 → Reaches (exec (.any p) s) (fun t => Retired p q lane none_ s t ∧ t.trees p = { s.trees p with wick := (s.trees p).wick ++ [o 0 true] })) ∧
    (q.op = 0x44 → Reaches (exec (.count p) s) (fun t => Retired p q lane none_ s t ∧ t.trees p = { s.trees p with count := (s.trees p).count ++ [o 0 true] })) ∧
    (q.op = 0x45 → Reaches (exec (.readout p) s) (fun t => Retired p q lane none_ s t ∧
      t.trees p = { s.trees p with wick := (s.trees p).wick ++ (List.range q.n).map (fun k => o k (k + 1 == q.n)) })) ∧
    (q.op = 0x42 → q.mode = 1 → q.scope = 0 → (s.trees p).first = [] → Reaches (exec (.selfirst p) s) (fun t =>
      (t.trees p).first = [] ∧ t.arr.mem = s.arr.mem ∧
      ((∀ i, ¬ Takes p q s i) → (t.core (s.driver p)).f = 0 ∧ t.arr.k = s.arr.k) ∧
      ∀ i, Takes p q s i → (∀ j, j < i → ¬ Takes p q s j) → (t.core (s.driver p)).f = BitVec.ofNat 32 (2 ^ 31 + i) ∧
        ∀ j, InPart p s j → (t.arr.k.getLsbD j = true ↔ j = i)))

/-- NMOV where no seam is crossed (R44, R120, R125, Table PE-6), D equal to A or apart from it: D is the field A of the PE that lies one or sixteen places
towards DIR, where that PE is in the partition, and 0 or 1 beyond an edge of fill mode. -/
def Obligations.NeighbourMoves : Prop :=
  ∀ (p : Quad) (q : QEntry) (lane : Bool) (s : State), HeadIs p q lane s → q.op = 0x60 → q.mode.toNat ≤ 1 → Inside q.a q.n → Inside q.d q.n →
    ExactOrApart q.d q.a q.n →
    let dir := bits q.mod.toNat 3 3
    let mode := s.edgeMode p (dir % 4) false
    let far := if dir < 4 then 1 else 16
    let from_ : Nat → Nat × Nat → Prop := fun i j => j.1 < 1024 ∧ j.2 < 1024 ∧ InPart p s (j.2 * 1024 + j.1) ∧
      (match dir % 4 with
        | 0 => i % 1024 = j.1 ∧ i / 1024 = j.2 + far
        | 1 => i % 1024 + far = j.1 ∧ i / 1024 = j.2
        | 2 => i % 1024 = j.1 ∧ i / 1024 + far = j.2
        | _ => i % 1024 = j.1 + far ∧ i / 1024 = j.2)
    mode ≠ 3 → tget (konst none) s.arr.newEdge p.val = none → Reaches (exec (.nmov p) s) (fun t => Retired p q lane (rowsOf q.d q.n) s t ∧ t.arr.k = s.arr.k ∧ t.arr.e = s.arr.e ∧
      ∀ i k, k < q.n → Takes p q s i →
        (∀ j, from_ i j → t.bitAt q.d k i = s.bitAt q.a k (j.2 * 1024 + j.1)) ∧
        ((∀ j, ¬ from_ i j) → mode = 1 → t.bitAt q.d k i = false) ∧ ((∀ j, ¬ from_ i j) → mode = 2 → t.bitAt q.d k i = true))

/-- HASH.KR (R80), its fields apart, run to the end: B takes the column parities of A, D takes round β of Keccak-f[1600] of A, and only rows of B and D change.
Stopped after k rows, the instruction stands at its next resumption point.
That each of its 1,920 rows is a resumption point is the model's reading, log entry 12. -/
def Obligations.HashColumnParities : Prop :=
  ∀ (p : Quad) (q : QEntry) (lane : Bool) (s : State), HeadIs p q lane s → q.op = 0x70 → q.mode.toNat ≤ 1 →
    Inside q.a 1600 → Inside q.b 320 → Inside q.d 1600 →
    overlap q.a.toNat 1600 q.b.toNat 320 = false → overlap q.a.toNat 1600 q.d.toNat 1600 = false → overlap q.b.toNat 320 q.d.toNat 1600 = false →
    (∀ k, k < 1920 → Reaches (exec (.hashKr ⟨p, some k⟩) s) (fun t => (t.seq (s.driver p)).run.map (fun r => (r.q, r.lane, r.steps)) = some (q, lane, k))) ∧
    Reaches (exec (.hashKr ⟨p, none⟩) s) (fun t => Retired p q lane (fun r => rowsOf q.b 320 r ∨ rowsOf q.d 1600 r) s t ∧ t.arr.k = s.arr.k ∧ t.arr.e = s.arr.e ∧
      ∀ i x z, x < 5 → z < 64 → Takes p q s i →
        let a : Nat → Nat → Nat → Bool := fun x y z => s.bitAt q.a (64 * (x + 5 * y) + z) i
        t.bitAt q.b (64 * x + z) i = keccakParity a x z ∧
        ∀ y, y < 5 → q.beta.toNat < 24 → t.bitAt q.d (64 * (x + 5 * y) + z) i = keccakBit a q.beta.toNat x y z)

-- Micro-routines (chapter 04)

/-- User routines (R82, R92–R99, R111–R112): a fabric plane function starts at its entry and then issues as a release would; its first microword, come to
issue, ends it with FNR where its port is closed; a microword that may issue goes on to the next μPC, or ends the routine at END; the run bound aborts a
routine that would go on past it, and the wait bound one that is held, or the instruction whose first microword is. A release lets the next instruction of a
vendor routine go on as its own command would. -/
def Obligations.UserMicrowords : Prop :=
  ∀ (p : Quad) (e : QEntry) (r : Routine) (lane : Bool) (n : Nat) (s : State),
    let q := s.driver p
    let w := s.uword q r.upc.toNat % 2 ^ 160
    let next := nextUpc s q r w
    (s.head p = some (e, lane) → isUser e.op = true → ∃ t, exec (.fabricPlaneFunction p 0) s = .next t ∧
      (t.seq q).run = some (Routine.start e lane) ∧ (Routine.start e lane).upc = e.entry ∧
      ∀ n, exec (.fabricPlaneFunction p n) s = exec (.heldMicrowordRelease p n) t) ∧
    (Fetched p r s → r.issued = 0 → s.portOpen q = false →
      Reaches (exec (.heldMicrowordRelease p 1) s) (fun t => (t.seq q).run = none ∧ t.bit (cr 9 (0x300 + 8 * p.val)) 2 = true)) ∧
    (MayIssue p r s → s.arr.rowErr = [] → bits w 43 1 = 0 → (next = none ∨ s.runOut q r 1 = false) →
      Reaches (exec (.heldMicrowordRelease p 1) s) (fun t => (t.seq q).run.map (fun r => (r.q, r.upc, r.issued)) = next.map (fun u => (r.q, u, r.issued + 1)))) ∧
    (MayIssue p r s → s.arr.rowErr = [] → bits w 43 1 = 0 → s.runOut q r 1 = true →
      Reaches (exec (.runLimit p) s) (fun t => if next = none then (t.seq q).run = none else Aborted q 6 r.lane t)) ∧
    (s.waitBound q = true → s.isHeld p = true →
      ((s.seq q).run = some r → Reaches (exec (.waitLimit p) s) (Aborted q 5 r.lane)) ∧
      ((s.seq q).run = none → s.head p = some (e, lane) → Reaches (exec (.waitLimit p) s) (Aborted q 5 lane))) ∧
    ((s.seq q).run = some r → r.q.op.toNat = 0x27 → exec (.heldMicrowordRelease p n) s = exec (.mul p (some n)) s) ∧
    ((s.seq q).run = some r → r.q.op.toNat = 0x70 → exec (.heldMicrowordRelease p n) s = exec (.hashKr ⟨p, some n⟩) s)

/-- A microword whose parity failed (R114–R116): the reload commits what its source holds, with fresh parity, and ends the stall unless the word fails again
at once, a free outcome of a stuck row (log entry 2), which is an error like the first and a repeat; a repeat moves its μPC to a spare row; the routine aborts with
PARITY where the source cannot be read, no spare row is left, or the word fails in its spare row too.
That spare row j has the number 0x5000 + j is the model's choice, log entry 34. -/
def Obligations.MicrowordReloads : Prop :=
  ∀ (p : Quad) (r : Routine) (f row : Nat) (s s1 : State),
    let q := s.driver p
    let upc := r.upc.toNat
    let fails : Prop := s1.retryGroups upc ≠ 0
    (s.seq q).run = some r → (s.seq q).badWord = true →
    (reloadSource q upc s = (some f, s1) → (s.seq q).again = false → Reaches (exec (.parityReload p) s) (fun t =>
      t.uword q upc % 2 ^ 160 = f % 2 ^ 160 ∧ badGroups (t.uword q upc) = 0 ∧ (¬ fails → (t.seq q).badWord = false) ∧
      (fails → (t.seq q).badWord = true ∧ (t.seq q).again = (s1.seq q).hadError.contains upc ∧ (t.seq q).hadError.contains upc = true))) ∧
    ((s.seq q).frame = none → s1.seqs = s.seqs → s1.driver p = q →
      (reloadSource q upc s = (none, s1) → Reaches (exec (.parityReload p) s) (Aborted q 4 r.lane)) ∧
      (reloadSource q upc s = (some f, s1) → (s.seq q).again = true →
        (s1.spareRow q = none → Reaches (exec (.parityReload p) s) (Aborted q 4 r.lane)) ∧
        (s1.spareRow q = some row → Reaches (exec (.parityReload p) s) (fun t => (t.seq q).physRow upc = 0x5000 + row ∧ t.mapDue = s1.mapDue ++ [.microRow q upc row] ∧
          (fails → Aborted q 4 r.lane t) ∧
          (¬ fails → (t.seq q).badWord = false ∧ t.uword q upc % 2 ^ 160 = f % 2 ^ 160 ∧ badGroups (t.uword q upc) = 0)))))

/-- The microstore window (R86–R88): a permitted initiator's stores at 0x00, 0x08 and 0x10 of a slot commit its word with fresh parity, at once when no
routine runs, else for the next boundary; a commit without both parts is discarded and sets WERR. Parity bit j is right when
function bits 32 j to 32 j + 31 and the bit itself hold an odd number of ones, and a word of zeros fails (R89). -/
def Obligations.MicrostoreWrites : Prop :=
  (∀ (i : Initiator) (q : SeqId) (upc : Fin 16384) (a b c : Dword) (s : State), mayMicro i q.val upc.val = true →
    let st : Nat → Dword → State → Out := fun k v s => exec (.microstoreWrite i q (BitVec.ofNat 24 (32 * upc.val + 8 * k)) v) s
    let f := a.toNat + b.toNat * 2 ^ 64 + c.toNat % 2 ^ 32 * 2 ^ 128
    (∃ t1 t2 t3, st 0 a s = .next t1 ∧ st 1 b t1 = .next t2 ∧ st 2 c t2 = .next t3 ∧
      (∀ u, u < 32768 → u ≠ upc.val → t3.uword q.val u = s.uword q.val u) ∧
      (if (s.seq q.val).run.isSome then t3.uword q.val upc.val = s.uword q.val upc.val ∧
          (tget (konst 0) (t3.seq q.val).newWords upc.val).toNat % 2 ^ 160 = f
        else t3.uword q.val upc.val % 2 ^ 160 = f ∧ badGroups (t3.uword q.val upc.val) = 0)) ∧
    ((tget (konst (32768, 0)) (s.seq q.val).buf0 (respKey i)).1 ≠ upc.val →
      Reaches (st 2 c s) (fun t => t.micro = s.micro ∧ t.seqs = s.seqs ∧ t.bit (sq q.val 0x860) 31 = true))) ∧
  (∀ (w : BitVec 165) (j : Fin 5), (badGroups w.toNat).testBit j.val =
    decide (((List.range 32).countP (fun k => w.getLsbD (32 * j.val + k)) + b2n (w.getLsbD (160 + j.val))) % 2 = 0)) ∧
  badGroups 0 ≠ 0

/-- Suspension and the queue commands (R104–R108, R113, R157): a stop request that meets a resumption point leaves the routine in the frame, or at its first
microword back at the head of its queue, and lets APRE answer 0, an idle array 1; the frame's routine goes on once the lane is empty; RESUME ends a halt and FLUSH empties the halted queue too; an auto
swap, which the key segment in effect must admit, for a key load only inside it (R404), exchanges the shadow row with the row of its presentation. -/
def Obligations.SuspensionAndSwaps : Prop :=
  ∀ (p : Quad) (r : Routine) (d : Reg) (i : Initiator) (x : SeqId) (t : Transfer) (a : BitVec 12) (s : State),
    let q := s.driver p
    let answers : State → Word → Prop := fun u v => (u.core q).run = .running ∧ (u.core q).pc = (s.core q).pc + 4 ∧ (d ≠ 0 → (u.core q).reg d = v)
    let asked := (s.core q).run = .waiting (.apre d) ∧ (s.seq q).frame = none ∧ s.stopping q = none ∧ (s.seq q).flush = false
    (asked → (s.seq q).run = some r → atResumption s p r = true →
      Reaches (exec (.suspension p) s) (fun u => (u.seq q).frame = some (.routine r) ∧ (u.seq q).run = none ∧ (u.seq q).queue = (s.seq q).queue ∧ answers u 0)) ∧
    (asked → (s.seq q).run = some r → r.issued = 0 → r.steps = 0 → (s.seq q).badWord = false →
      Reaches (exec (.suspension p) s) (fun u => (u.seq q).frame = some .boundary ∧ (u.seq q).run = none ∧ (u.seq q).queue = r.q :: (s.seq q).queue ∧ answers u 0)) ∧
    (asked → (s.seq q).run = none → (s.seq q).queue = [] → (s.seq q).qHalt = false →
      Reaches (exec (.suspension p) s) (fun u => (u.seq q).frame = none ∧ answers u 1)) ∧
    (asked → (s.seq q).run = none → (s.seq q).queue ≠ [] →
      Reaches (exec (.suspension p) s) (fun u => (u.seq q).frame = some .boundary ∧ (u.seq q).queue = (s.seq q).queue ∧ answers u 0)) ∧
    ((s.seq q).resuming = true → (s.seq q).run = none → (s.seq q).lane = [] → (s.seq q).frame = some (.routine r) →
      Reaches (exec (.resumeRestore p) s) (fun u => (u.seq q).run = some r ∧ (u.seq q).frame = none ∧ (u.seq q).resuming = false)) ∧
    (maySeq i x.val = true → (s.seq x.val).lHalt = false → (s.seq x.val).qHalt = true →
      exec (.resume i x) s = .next (s.modSeq x.val (fun y => { y with qHalt := false })) ∧
      exec (.flush i x) s = .next (s.modSeq x.val (fun y => { y with qHalt := false, queue := [] }))) ∧
    (s.xfer p = some t → t.autoSwap = some a → (s.seq q).quiet = true → s.allReady (s.quads p) = true → s.canIssue p = true →
      s.inKey p a.toNat = t.key → s.arr.rowErr = [] →
      Reaches (exec (.autoSwap p) s) (fun u => ∀ j, InPart p s j →
        (u.plane a.toNat).getLsbD j = s.arr.sh.getLsbD j ∧ u.arr.sh.getLsbD j = (s.plane a.toNat).getLsbD j))

/-- The array's registers (R22, R23, R83–R85, R180, R25): a shape that no busy partition opposes is pending, with SHAPE still reading the old code and a further
write replacing the pending one (log entry 34), and takes effect once nothing of the old shape is in flight; an edge mode takes effect at once when no
instruction executes, in a suspension too; ARR_KEYSEG refuses a segment past row 4,096; a takeover puts S4 in the place of
the failed sequencer. -/
def Obligations.ArrayRegisters : Prop :=
  ∀ (i : Initiator) (p : Quad) (j : Fin 32) (v : Word) (b : Byte) (s : State),
    (v.toNat ≤ 7 → (∀ qs, qs ∈ shapeParts s.shape → (shapeParts v.toNat).contains qs = true ∨ (s.seq (s.driver (qs.headD 0))).busy = false) →
      Reaches (exec (.shapeWrite .mgmt v) s) (fun t => t.arr.newShape = some (BitVec.ofNat 8 v.toNat) ∧ t.bit (cr 9 0) 8 = true ∧ t.shape = s.shape)) ∧
    (s.arr.newShape = some b → s.arr.trees = [] → s.arr.transfers = [] →
      Reaches (exec .shapeTakesEffect s) (fun t => t.shape = b.toNat ∧ t.arr.newShape = none ∧ t.bit (cr 9 0) 8 = false ∧ t.arr.mem = s.arr.mem)) ∧
    (Reaches (exec (.edgeModeWrite .mgmt p v) s) (fun t =>
      if (s.seq (s.driver p)).run = none then tget (konst 0x55) t.arr.edge p.val = BitVec.ofNat 8 v.toNat
      else tget (konst none) t.arr.newEdge p.val = some (BitVec.ofNat 8 v.toNat) ∧ t.arr.edge = s.arr.edge)) ∧
    (i = .mgmt ∨ i = .pilot → Reaches (exec (.keysegWrite i p v) s) (fun t =>
      if bits v.toNat 0 12 + bits v.toNat 16 13 ≤ 4096 then t.keyBase p = bits v.toNat 0 12 ∧ t.keyLen p = bits v.toNat 16 13
      else t.keyBase p = s.keyBase p ∧ t.keyLen p = s.keyLen p ∧ t.bit (cr 9 (0x200 + 8 * p.val)) 31 = true)) ∧
    (Reaches (exec (.fopWrite .mgmt j v) s) (fun t => t.fld (cr 9 (0x400 + 8 * j.val)) 0 12 = bits v.toNat 0 12 ∧
      t.bit (cr 9 (0x400 + 8 * j.val)) 31 = v.getLsbD 31)) ∧
    (s.arr.takeover = none → (s.admits (act 13 p.val 0)).1 = true →
      Reaches (exec (.takeover p) s) (fun t => t.arr.takeover = some p ∧ (t.core p.val).run = .held))

-- Reach (chapter 05)

/-- Landings and results (R124, R126–R132, R311): the oldest offer of each tree lands in its register of the partition's sequencer, and the clear of K that an
offer with FCLR asks for waits while the partition is stalled; a device match gives every
offering partition the combined result; a seam vector or reduction flit that arrives on an edge that is UP waits in its buffer. -/
def Obligations.TreeLandings : Prop :=
  ∀ (p : Quad) (o : Offer) (os : List Offer) (t : Tree) (e : EdgeId) (h : HalfId) (r : RedFlit) (v : BitVec 512) (s : State), o.scope = 0 → o.got = none →
    let q := s.driver p
    let any := decide (o.bits ≠ 0)
    ((s.trees p).wick = o :: os → Reaches (exec (.wickLanding p) s) (fun u => (u.trees p).wick = os ∧
      (if o.exc then (u.core q).sr = (if any then (s.core q).sr ||| 0x400 else (s.core q).sr) ∧ (u.seq q).asm = (s.seq q).asm
       else (u.seq q).asm.getLsbD o.pos.toNat = any ∧ (∀ k, k ≠ o.pos.toNat → (u.seq q).asm.getLsbD k = (s.seq q).asm.getLsbD k) ∧
        (if o.fin then (u.core q).w = BitVec.ofNat 64 ((u.seq q).asm.toNat % 2 ^ (o.pos.toNat + 1)) else (u.core q).w = (s.core q).w)))) ∧
    ((s.trees p).count = o :: os → Reaches (exec (.countLanding p) s) (fun u => (u.trees p).count = os ∧
      (u.core q).t = BitVec.ofNat 64 ((List.range (2 ^ 20)).countP (fun i => o.bits.getLsbD i)))) ∧
    ((s.trees p).first = o :: os → (s.seq q).run = none → tget (konst 0) s.arr.clr p.val = 0 → Reaches (exec (.firstResponderLanding p) s) (fun u =>
      (u.trees p).first = os ∧
      (o.bits = 0 → (u.core q).f = 0) ∧ ∀ i, i < 2 ^ 20 → o.bits.getLsbD i = true → (∀ j, j < i → o.bits.getLsbD j = false) →
        (u.core q).f = BitVec.ofNat 32 (2 ^ 31 + i) ∧
        let others : Nat → Bool := fun j => o.fclr && o.bits.getLsbD j && j != i
        if s.stalled p then u.arr.k = s.arr.k ∧ ∀ j, (tget (konst 0) u.arr.clr p.val).getLsbD j = others j
        else tget (konst 0) u.arr.clr p.val = 0 ∧ ∀ j, u.arr.k.getLsbD j = (s.arr.k.getLsbD j && !others j))) ∧
    (s.inTree = false → s.firsts t (s.deviceOffer t) = some os → Reaches (exec (.deviceScopeMatch t) s) (fun u =>
      ∀ p, p ∈ s.offering → (u.trees p).of t = giveTo (s.deviceOffer t) (combine t os) (os.any (·.fclr)) ((s.trees p).of t))) ∧
    ((s.half e.val 0).link = .up → s.inTree = false → (s.half e.val 0).rxRed.length < 16 →
      exec (.reductionFlitReceive e r) s = .next (s.modHalf e.val 0 (fun x => { x with rxRed := x.rxRed ++ [r] }))) ∧
    ((s.half e.val h.val).link = .up → (s.half e.val h.val).rxEv.length < 64 →
      exec (.edgeVectorReceive e h v) s = .next (s.modHalf e.val h.val (fun x => { x with rxEv := x.rxEv ++ [v] })))

-- Plane I/O (chapter 06)

/-- Corner turning (R139, R150–R163): GO with a sound descriptor starts the transfer, and is refused while one runs; a pass of an IN transfer fills the turn
store with the bits of its records once that is free, and reads lines ahead before; a captured pass of an OUT transfer drains into the line buffer and is then
written, and the last one of all ends the transfer; FILL and CAPTURE move one presentation between the turn store and the shadow rows, and CAPTURE makes the
zeroing of GO that a stall held; CANCEL, a stream timeout and a closed stream port end the transfer, a cancelled one that captured planes for the fabric first
passing them through it. A pass moves no line while a bucket gives its engine no token ever (R140, R263). The staging scrub goes from one line stored wrong to the
next, a step that is the model's (log entry 46), with ECS results that are free (log entry 2); the refresh interval follows the stack's temperature (R361).
Neither acts on a stack that is in self-refresh. -/
def Obligations.PlaneTransfers : Prop :=
  ∀ (i : Initiator) (k : Quad) (t : Transfer) (hb mb : List Byte) (ls : List (BitVec 512)) (l : Nat) (temp : Int) (s s1 s2 : State),
    let p := (s.partOf k.val).headD k.val
    let w := t.sent_ k.val
    let dw := t.drained_ k.val
    let have_ := t.buf_ k.val
    let rest := (t.passLines k.val w).drop have_.length
    let recs := t.recordsOf k.val w (have_ ++ ls)
    let made := outLines (outBits t (s.reached t k.val) k.val dw)
    let excess := made.length - bufLines
    let last := (s.quads p).all (fun q => q == k.val || decide (t.passes ≤ t.sent_ q)) && decide (w + 1 = t.passes)
    let n := bits (ofBytes hb) (8 * 0x32) 8
    let d := readPtd (s.quads k.val) (ofBytes hb) ((List.range n).map (fun x => bits (ofBytes mb) (64 * x) 64))
    let a := s.ptdAddr k.val
    let s0 := enginesRun (s.quads k.val) s
    (mayEngine i k.val s = true → s.goOk k.val = true → s0.quads k.val = s.quads k.val → (∀ q, q ∈ s.quads k.val → (s.stack q).failed = false) → mapped a 64 = true →
      longRead (.engine k) 16 a 64 s0 = (.ok, hb, s1) → 0 < n → n ≤ 64 → mapped (a + 64) (8 * n) = true →
      longRead (.engine k) 80 (a + 64) (8 * n) s1 = (.ok, mb, s2) → d.bad = false → addressBad (s.quads k.val) d.t = false → keyBad s0 k.val d.t = false → d.t.fab = false →
      Reaches (exec (.go i k) s) (fun u =>
        u.xfer k.val = some (if d.t.out && s2.stalledElse k.val then { d.t with zero := quadSet (s2.quads k.val) } else d.t))) ∧
    (mayEngine i k.val s = true → s.goOk k.val = false → exec (.go i k) s = .next (s.setB (ct k.val 0x10) 31)) ∧
    (mayEngine i k.val s = true → s.quads k.val ≠ [] → s.xfer k.val = some t → (t.out = false ∨ ∀ q, q ∈ s.quads k.val → s.undrained t q = false) →
      Reaches (exec (.cancel i k) s) (fun u => u.xfer k.val = none ∧ u.fld (ct k.val 0x10) 20 4 = 8 ∧ u.fld (ct k.val 0x10) 18 2 = 3 ∧ u.arr.mem = s.arr.mem)) ∧
    (mayEngine i k.val s = true → s.quads k.val ≠ [] → s.xfer k.val = some t → t.out = true → t.fab = true → (∃ q, q ∈ s.quads k.val ∧ s.undrained t q = true) →
      Reaches (exec (.cancel i k) s) (fun u => ∃ t', u.xfer k.val = some t' ∧ t'.ending = true ∧ t'.turn = t.turn ∧ u.arr.mem = s.arr.mem)) ∧
    (s.xfer p = some t → t.fail = none → w < t.passes → t.fab = false → t.out = false → s1.xfer p = some t →
      (t.passStart w ≤ s.reached t k.val → s.engineWaits k false rest = false → readPassLines k rest s = (.ok, ls, s1) → t.cnt_ k.val ≤ 262144 →
        Reaches (exec (.enginePass k []) s) (fun u => ∃ t', u.xfer p = some t' ∧ t'.sent_ k.val = w + 1 ∧ t'.buf_ k.val = [] ∧
          ∀ e b j, e ∈ t.passEntries w → b < e.1.dlen → j < t.cnt_ k.val →
            (tget (konst 0) t'.turn (e.2 + b)).getLsbD (recPe k.val j) = inBit e.1 (recs.getD j 0) b)) ∧
      (s.reached t k.val < t.passStart w → s.engineWaits k false (rest.take (bufLines - have_.length)) = false →
        readPassLines k (rest.take (bufLines - have_.length)) s = (.ok, ls, s1) →
        Reaches (exec (.enginePass k []) s) (fun u => ∃ t', u.xfer p = some t' ∧ t'.buf_ k.val = have_ ++ ls ∧ t'.turn = t.turn ∧ t'.sent = t.sent))) ∧
    (s.xfer p = some t → t.fail = none → dw < t.passes → t.fab = false → t.out = true → t.ending = false → dw ≤ w → t.passStart (dw + 1) ≤ s.reached t k.val →
      s.engineWaits k true ((made.take excess).map (·.addr)) = false → writeLines k t.merge (made.take excess) s = (.ok, s1) → s1.xfer p = some t →
      Reaches (exec (.enginePass k []) s) (fun u => u.mem = s1.mem ∧
        u.xfer p = some { t with drained := tset (konst 0) t.drained k.val (dw + 1), out_ := tset (konst []) t.out_ k.val (made.drop excess) })) ∧
    (s.xfer p = some t → w < t.passes → t.out = true → t.ending = false → w < dw →
      s.engineWaits k true ((t.lines_ k.val).map (·.addr)) = false → writeLines k t.merge (t.lines_ k.val) s = (.ok, s1) → s1.xfer p = some t → s1.quads p = s.quads p →
      Reaches (exec (.enginePass k []) s) (fun u => u.mem = s1.mem ∧ if last then u.xfer p = none
        else u.xfer p = some { t with sent := tset (konst 0) t.sent k.val (w + 1), buf := tset (konst []) t.buf k.val [], out_ := tset (konst []) t.out_ k.val [] })) ∧
    (s.xfer p = some t → t.out = false → t.pres < t.total → t.pres < t.passStart w → s.stalledElse p = false →
      s.arr.ready &&& quadClusters k.val = 0 → Reaches (exec (.fill k) s) (fun u => u.arr.ready &&& quadClusters k.val = quadClusters k.val ∧
        ∀ j, u.arr.sh.getLsbD j = if (quadPlane k.val).getLsbD j then (tget (konst 0) t.turn t.pres).getLsbD j else s.arr.sh.getLsbD j)) ∧
    (s.xfer p = some t → s.stalledElse p = false → t.ending = false → t.zero.getLsbD k.val = true →
      Reaches (exec (.capture k) s) (fun u => (∃ t', u.xfer p = some t' ∧ t'.zero.getLsbD k.val = false) ∧ u.arr.ready &&& quadClusters k.val = quadClusters k.val ∧
        ∀ j, u.arr.sh.getLsbD j = (s.arr.sh.getLsbD j && !(quadPlane k.val).getLsbD j))) ∧
    (s.xfer p = some t → s.stalledElse p = false → t.ending = false → t.zero.getLsbD k.val = false → t.mark.getLsbD k.val = false → t.capture.getLsbD k.val = true →
      t.pres < t.passStart (dw + 1) →
      Reaches (exec (.capture k) s) (fun u => ∃ t', u.xfer p = some t' ∧ t'.capture.getLsbD k.val = false ∧
        ∀ j, (quadPlane k.val).getLsbD j = true → (tget (konst 0) t'.turn t.pres).getLsbD j = s.arr.sh.getLsbD j)) ∧
    (s.xfer p = some t → t.fab = true → t.out = true → dw < t.passes → t.fail = none → s.fld (ct k.val 0x18) 0 4 ≠ 0 →
      Reaches (exec (.fabricTimeout k) s) (fun u => u.xfer p = none)) ∧
    (s.xfer p = some t → t.fab = true → t.out = true → dw < t.passes → t.fail = none → t.ending = false → dw ≤ w → t.passStart (dw + 1) ≤ s.reached t k.val →
      s.portOpen (6 + k.val) = false → Reaches (exec (.enginePass k []) s) (fun u => u.xfer p = none)) ∧
    (s.fld (mc k.val 0x10) 0 16 ≠ 0 → s.stackUp k.val = true →
      (s.scrubLine k.val = none → exec (.stagingScrub k) s = .next ((s.modStack k.val (fun x => { x with ecs := s.drawn 0, scrub := 0 })).draw)) ∧
      (s.scrubLine k.val = some l → Reaches (exec (.stagingScrub k) s) (fun u => (u.stack k.val).scrub = l + 1))) ∧
    (s.stackUp k.val = false → exec (.stagingScrub k) s = .next s) ∧
    ((s.stack k.val).refresh = true → exec (.stackRefreshAdjust k temp) s = .next s) ∧
    ((s.stack k.val).refresh = false → s.domUp (21 + k.val) = true → Reaches (exec (.stackRefreshAdjust k temp) s) (fun u => u.mem = s.mem ∧
      (u.stack k.val).interval = (if temp ≤ 85000 then 4 else if temp ≤ 95000 then 2 else 1) ∧
      (105000 < temp → (u.stack k.val).slow = true) ∧ (temp ≤ 100000 → (u.stack k.val).slow = false)))

-- Array integrity (chapter 07)

/-- Scrubbing, migration and substitution (R172–R187): a pass visits the rows of every array domain in order; a window's end halves the counters; a copy reads and writes one row a
step, in a stolen or a forced cycle; the switch makes the spare column or cluster answer, and the record goes to the repair maps unless STORE or FW_INSTALL
holds the NVM writer (R437). That a pass which is due while the last is unfinished begins again is log entry 43. -/
def Obligations.ArrayIntegrity : Prop :=
  ∀ (p : Quad) (d : Fin 16) (t : Fin 64) (cl : Fin 66) (lc : Fin 64) (g : Migration) (x : Substitution) (c : Nat × Nat) (l q : Nat) (r : RepairRec) (rs : List RepairRec) (s : State),
    let a := s.arr
    let pc := t.val * 66 + cl.val
    let idle := (s.seq (s.driver p)).run = none
    let sound := a.rowErr = [] ∧ a.writeBacks = []
    (s.bit (cr 6 0) 0 = true → s.fld (cr 6 0x10) 0 16 ≠ 0 →
      Reaches (exec .scrubPassStart s) (fun u => ∀ d, d < 16 → tget (konst 4096) u.arr.scrubRow d = 0)) ∧
    (s.stolen p = true → sound → a.migrations = [] → a.substs = [] → a.scrubLate = [] → Reaches (exec (.scrubStep p) s) (fun u => u.arr.mem = a.mem ∧
      ∀ e, e ∈ s.upDomains p → tget (konst 4096) u.arr.scrubRow e = min 4096 (tget (konst 4096) a.scrubRow e + 1) ∨ 4096 < tget (konst 4096) a.scrubRow e)) ∧
    (twf (konst 0) a.colCnt = true → Reaches (exec (.counterWindowEnd d) s) (fun u => ∀ k, tget (konst 0) u.arr.colCnt k =
      if tileDomain (k / 304 / 66) = d.val ∧ tget (konst false) a.colRet k = false then tget (konst 0) a.colCnt k / 2 else tget (konst 0) a.colCnt k)) ∧
    (a.candidates.find? (·.1 == pc) = some c → s.bit (cr 6 0) 1 = true → a.migrations.any (·.pc == pc) = false →
      s.retired pc = false → (List.range 64).find? (fun x => s.physOf t.val x == pc) = some lc.val →
      (List.range 288).find? (fun l => s.physCol pc l == c.2) = some l → (s.freeCols pc).head? = some q → s.blocker (act 1 pc 0) = none →
      Reaches (exec (.columnMigration t cl) s) (fun u => u.arr.migrations = a.migrations ++ [⟨pc, l, s.physCol pc l, q, 0, none, false⟩] ∧
        u.acts = s.acts ++ [act 1 pc (t.val * 2 ^ 24 + lc.val * 2 ^ 16 + l)] ∧ u.arr.mem = a.mem ∧ u.creg = s.creg)) ∧
    (sound → a.migrations = [g] → a.substs = [] → g.ended = false → s.inReach p g.pc = true → s.bit (cr 6 0) 1 = true →
      let copied : State → Prop := fun u => u.arr.mem = a.mem ∧
        u.arr.migrations = [{ g with copy := if g.row < 4096 then some g.row else none, row := g.row + 1, ended := decide (4096 ≤ g.row) }]
      (s.stolen p = true → Reaches (exec (.migrationCopyStep p) s) copied) ∧ (s.fld (cr 6 0) 4 4 ≠ 0 → idle → Reaches (exec (.forcedSteal p) s) copied)) ∧
    (idle → a.migrations = [g] → g.ended = true → (s.quads p).contains (tileQuad (g.pc / 66)) = true → g.lcol < 288 → g.p < 304 →
      Reaches (exec (.columnSwitch p) s) (fun u => u.physCol g.pc g.lcol = g.q ∧ tget (konst false) u.arr.colRet (g.pc * 304 + g.p) = true ∧
        u.arr.migrations = [] ∧ u.mapDue = s.mapDue ++ [.column g.pc g.lcol g.q g.p] ∧ u.arr.mem = a.mem)) ∧
    (s.substCause t.val lc.val = true → a.substs.any (fun g => g.tile == t.val && g.cl == lc.val) = false → s.canSubst (s.physOf t.val lc.val) = true →
      s.freeCluster t.val = some q → s.blocker (act 2 (s.physOf t.val lc.val) 0) = none →
      Reaches (exec (.clusterSubstitution t lc) s) (fun u => u.arr.substs = a.substs ++ [⟨t.val, lc.val, q, 0, none, false⟩])) ∧
    (idle → a.substs = [x] → x.ended = true → (s.quads p).contains (tileQuad x.tile) = true → x.cl < 64 →
      Reaches (exec (.clusterSubstitutionSwitch p) s) (fun u => u.physOf x.tile x.cl = x.tile * 66 + x.target ∧ u.arr.substs = [] ∧
        u.mapDue = s.mapDue ++ [.cluster x.tile x.cl x.target] ∧ u.arr.mem = a.mem)) ∧
    (s.writerHeld = true → exec .repairMapWrite s = .next s) ∧
    (s.writerHeld = false → s.mapDue = r :: rs → Reaches (exec .repairMapWrite s) (fun u => u.mapDue = rs ∧ u.maps = s.maps ++ [r] ∧
      u.acts = if rs = [] then s.acts.filter (fun x => !(x.kind == 10 && x.unit == 0)) else s.acts))

-- Seam links (chapter 13)

/-- Half-edges (R297–R304, R307–R309, R319): the states of Table SEAM-3 and what takes a half-edge from one to the next; the code of a training; credits,
acknowledgements and NAKs, the eighth of one SEQ in a row taking the half-edge DOWN at either end; flits in order, as they come or as their codewords correct
them; a lane that retrains, returns or is steered away by the partner. That a training latches the code, so that FEC28 acts at the next one, and that flits sent
again go at once in their order, is log entry 40; which CTL is owed is log entry 46. No half-edge is enabled while the TAP keeps them DOWN (R454). -/
def Obligations.SeamHalfEdges : Prop :=
  ∀ (e : EdgeId) (h : HalfId) (v : Word) (lanes : Nat) (epoch ber : Byte) (q : BitVec 9) (c : CtlFlit) (k : Fin 34) (w : Word) (l : LmfSteer)
    (raw fixed : BitVec 560) (symbols : List (List (BitVec 10))) (ev : BitVec 512) (t1 t2 t3 t4 : Int) (s : State),
    let x := s.half e.val h.val
    let ctl : CtlFlit := ⟨x.expSeq - 1, x.nakDue, x.frEv, x.frRed, x.frM0, x.frM1, s.epoch⟩
    let got := x.flitIn symbols
    let goes : Out → HalfLink → Prop := fun out st => Reaches out (fun u => (u.half e.val h.val).link = st ∧ u.fld (sm e.val 0x10) (4 * h.val) 3 = st.code)
    let allowed : Prop := bits v.toNat 6 2 ≠ 3 ∧ bits v.toNat 6 2 ≤ Config.rate.toNat ∧ bits v.toNat 12 4 ≤ Config.swing.toNat ∧ s.lanesWith e.val v.toNat ≤ Config.lanes.toNat
    let free : Prop := s.dom (25 + e.val) = 0 ∧ s.boot.tap.disturbs = false
    (free → allowed → x.link = .disabled → v.toNat.testBit h.val = true →
      goes (exec (.halfEdgeEnable .mgmt e v) s) .detect ∧ goes (exec (.seamCtlWrite .mgmt e v) s) .detect) ∧
    (free → allowed → x.link ≠ .disabled → v.toNat.testBit h.val = false → goes (exec (.seamCtlWrite .mgmt e v) s) .disabled) ∧
    (s.dom (25 + e.val) = 0 → bits v.toNat 6 2 ≠ 3 → ¬ allowed → Reaches (exec (.seamCtlWrite .mgmt e v) s) (fun u => u.halves = s.halves ∧ u.bit (sm e.val 0x10) 31 = true)) ∧
    (x.link = .detect → goes (exec (.partnerDetected e h) s) .train) ∧
    (x.link = .train → lanes < 8 → goes (exec (.trainingComplete e h lanes epoch) s) .detect) ∧
    (x.link = .train → 8 ≤ lanes → goes (exec (.trainingComplete e h lanes epoch) s) .up ∧
      Reaches (exec (.trainingComplete e h lanes epoch) s) (fun u => (u.half e.val h.val).partner = some epoch ∧ u.nl e.val h.val = min lanes 16 ∧
        (u.half e.val h.val).parity = fecParity (min (s.fld (sm e.val 0) 6 2) Config.rate.toNat) (s.bit (sm e.val 0) 9))) ∧
    (x.link = .up → goes (exec (.linkDown e h) s) .down) ∧
    (x.link = .down → s.bit (sm e.val 0) 8 = true → s.boot.tap.disturbs = false → goes (exec (.autoRetrain e h) s) .train) ∧
    (x.link = .up → x.nakRun ≠ 0 → x.nakSeq = q → 7 ≤ x.nakRun → goes (exec (.nakReceive e h q) s) .down) ∧
    (x.link = .up → x.nakRun < 7 → Reaches (exec (.nakReceive e h q) s) (fun u =>
      u.half e.val h.val = { x with nakSeq := q, nakRun := if x.nakRun ≠ 0 ∧ x.nakSeq = q then x.nakRun + 1 else 1
                                    resend := x.replay.dropWhile (fun f => f.1 != q) }.flow)) ∧
    (x.link = .up → x.out = [] → x.lmf = [] → ackTo c.ack x.resend = [] → c.nak = none → exec (.creditUpdate e h c) s = .next (s.setHalf e.val h.val { x with
      replay := ackTo c.ack x.replay, resend := ackTo c.ack x.resend, crEv := x.crEv + (c.freedEv - x.repEv).toNat, crRed := x.crRed + (c.freedRed - x.repRed).toNat
      crM0 := x.crM0 + (c.freedMsg0 - x.repM0).toNat, crM1 := x.crM1 + (c.freedMsg1 - x.repM1).toNat, repEv := c.freedEv, repRed := c.freedRed
      repM0 := c.freedMsg0, repM1 := c.freedMsg1
      nakRun := if (ackTo c.ack x.replay).any (fun f => f.1 == x.nakSeq) then x.nakRun else 0 })) ∧
    (x.link = .up → (x.nakDue = none ∨ x.nakOut < 7) → Reaches (exec (.ctlFlitDue e h) s) (fun u => u.half e.val h.val =
      { { x with ctl := some ctl, nakDue := none, nakOut := if x.nakDue.isSome then x.nakOut + 1 else x.nakOut }.emit (encodeFlit 0 (.ctl ctl)) with slots := 0 }.flow)) ∧
    (x.link = .up → x.nakDue ≠ none → 7 ≤ x.nakOut → goes (exec (.ctlFlitDue e h) s) .down) ∧
    (max 1 (s.fld (sm e.val 8) 0 8) ≤ ber.toNat → Reaches (exec (.laneBerWindow e k ber w) s) (fun u => u.fld (lane e.val k.val) 40 8 = ber.toNat)) ∧
    (s.laneState e.val k.val < 2 → (s.admits (act 5 e.val 0)).1 = true → Reaches (exec (.laneRetrain e k) s) (fun u => u.laneState e.val k.val = 3)) ∧
    (s.laneState e.val k.val = 3 → k.val < 32 → Reaches (exec (.laneRetrainEnd e k) s) (fun u => u.laneState e.val k.val = 0 ∧ u.running 5 e.val = false)) ∧
    (s.laneState e.val l.lane.val = 0 → l.toSpare = true →
      Reaches (exec (.lmfReceive e h l) s) (fun u => u.laneState e.val l.lane.val = if l.retire then 2 else 3)) ∧
    (x.link = .up → x.parity = 0 → flitOk raw = true → flitBody raw = .ev ev → flitSeq raw = x.expSeq → x.rxEv.length < 64 →
      exec (.flitReceive e h raw symbols) s = .next (s.setHalf e.val h.val { x with expSeq := x.expSeq + 1, discard := false, nakOut := 0, rxEv := x.rxEv ++ [ev] })) ∧
    (x.link = .up → x.parity = 0 → flitOk raw = false → Reaches (exec (.flitReceive e h raw symbols) s) (fun u =>
      u.half e.val h.val = { x with discard := true, nakDue := some x.expSeq })) ∧
    (x.link = .up → x.parity ≠ 0 → flitOk got.1 = false →
      (got.2 = some fixed → flitOk fixed = true → flitBody fixed = .ev ev → flitSeq fixed = x.expSeq → x.rxEv.length < 64 →
        Reaches (exec (.flitReceive e h raw symbols) s) (fun u => u.fld (sm e.val 0x200) 0 32 = min (2 ^ 32 - 1) (s.fld (sm e.val 0x200) 0 32 + 1) ∧
          u.half e.val h.val = { x.passed with expSeq := x.expSeq + 1, discard := false, nakOut := 0, rxEv := x.rxEv ++ [ev] })) ∧
      (got.2 = none → Reaches (exec (.flitReceive e h raw symbols) s) (fun u =>
        u.half e.val h.val = { x.passed with discard := true, nakDue := some x.expSeq }))) ∧
    ((s.half e.val 0).link = .up → s.timeSrc ≠ 2 → Reaches (exec (.timeExchange e t1 t2 t3 t4) s) (fun u =>
      u.r32 (sm e.val 0x208) = (BitVec.ofInt 32 (((t2 - t1) + (t4 - t3)) / 2)).toNat ∧ u.now = s.now))

-- Interrupt controllers (chapter 09)

/-- Sources and their registers (R226–R230, R236, R237, R239): a line event pends its source where SENSE sees one and counts an edge; a SEND is one event of
a message source, and WREJ elsewhere; writes of PENDING, COUNT and CFG by the served core or the management core, the hardware set of a level line winning
(R16, R229); a timer that has run out delivers, and wakes the core's domain (R230, R238); POP drops the oldest machine check.
That the cycle after a command derives PENDING again, and that a line stands at its last sample between commands, is the model's choice, log entry 35. -/
def Obligations.InterruptSources : Prop :=
  ∀ (i : Initiator) (n : Fin 6) (j : Fin 1024) (k : Fin 32) (v : Word) (ext : Bool) (t : Nat) (s : State), j.val < 1022 →
    let c := icuCfg n.val j.val
    let line := s.line j.val ext
    let prev := tget (konst false) s.samples (n.val * 1024 + j.val)
    let sense := s.fld c 24 3
    let rises : Prop := (sense = 2 ∧ prev = false ∧ line = true) ∨ (sense = 3 ∧ prev = true ∧ line = false) ∨ (sense = 4 ∧ prev ≠ line)
    let level : Prop := (sense = 0 ∧ line = true) ∨ (sense = 1 ∧ line = false)
    (hasLine j.val = true → isMessage j.val = false → s.target n.val j.val = true →
      Reaches (exec (.lineEvent n j ext) s) (fun u =>
        (rises → u.icuBit n.val 0x200 j.val = true ∧ u.icuCount n.val j.val = min 255 (s.icuCount n.val j.val + 1)) ∧
        (¬ rises → u.icuCount n.val j.val = s.icuCount n.val j.val) ∧ (level → s.icuBit n.val 0x300 j.val = false → u.icuBit n.val 0x200 j.val = true) ∧
        u.icuBit n.val 0x300 j.val = s.icuBit n.val 0x300 j.val ∧ tget (konst false) u.samples (n.val * 1024 + j.val) = line)) ∧
    (∀ c : CoreId, isMessage (v.toNat % 1024) = true → s.target n.val (v.toNat % 1024) = true → Reaches (exec (.send (.core c) n v) s) (fun u =>
      u.icuBit n.val 0x200 (v.toNat % 1024) = true ∧ u.icuCount n.val (v.toNat % 1024) = min 255 (s.icuCount n.val (v.toNat % 1024) + 1))) ∧
    (∀ c : CoreId, isMessage (v.toNat % 1024) = false → exec (.send (.core c) n v) s = .next (s.setB (icu n.val 0) 31)) ∧
    (mayIcu i n.val = true → Reaches (exec (.pendingWrite i n k v) s) (fun u =>
      ∀ b, b < 32 → 32 * k.val + b < 1022 →
        let l := 32 * k.val + b
        let stands := s.line l (s.fab.firq.getLsbD (l - 64)) = s.lastSample n.val l
        (v.toNat.testBit b = true → u.icuBit n.val 0x200 l = true) ∧
        (v.toNat.testBit b = false → stands → s.icuCount n.val l = 0 → s.lvl n.val l = false → u.icuBit n.val 0x200 l = false) ∧
        (stands → s.lvl n.val l = true → s.icuBit n.val 0x300 l = false → u.icuBit n.val 0x200 l = true))) ∧
    (mayIcu i n.val = true → Reaches (exec (.countWrite i n j v) s) (fun u => u.icuCount n.val j.val = v.toNat % 256 ∧
      (v.toNat % 256 ≠ 0 → u.icuBit n.val 0x200 j.val = true))) ∧
    (mayIcu i n.val = true → bits v.toNat 24 3 < 5 → Reaches (exec (.cfgWrite i n j v) s) (fun u => u.fld c 0 8 = bits v.toNat 0 8 ∧
      u.fld c 16 8 = bits v.toNat 16 8 ∧ u.fld c 24 3 = bits v.toNat 24 3 ∧ u.target n.val j.val = (if i = .mgmt then v.getLsbD 31 else s.target n.val j.val))) ∧
    (mayIcu i n.val = true → 5 ≤ bits v.toNat 24 3 → exec (.cfgWrite i n j v) s = .next (s.setB (icu n.val 0) 31)) ∧
    (tget (konst none) s.timers (n.val * 1024 + j.val) = some t →
      (t + 1000 * s.fld (icu n.val (0x3000 + 4 * j.val)) 0 16 ≤ s.ran → Reaches (exec (.coalescingTimer n j) s) (fun u =>
        u.coalesced n.val j.val = true ∧ (n.val < 5 → s.deliverable n.val (bits (s.core n.val).sr.toNat 20 8) j.val = true →
          s.dom (16 + n.val) = 3 → s.heldOff (16 + n.val) = false → u.dom (16 + n.val) = 4))) ∧
      (s.ran < t + 1000 * s.fld (icu n.val (0x3000 + 4 * j.val)) 0 16 → exec (.coalescingTimer n j) s = .next s)) ∧
    exec (.mcctlPop .mgmt) s = .next { s with mcq := s.mcq.tail }

-- Scratchpad banks (chapter 10)

/-- Scratchpad banks (R240–R255): an access by the owner to an ON bank reads or writes its bytes and no others, another initiator is NOT_OWNER; of two writes
of one word in one nc the one at port B is discarded with COLLISION; the rotate alias reads a word rotated, where the ring reaches its bank (R265, R267); ownership is handed over, power states change,
and a row test gives back what it saved. -/
def Obligations.ScratchpadBanks : Prop :=
  ∀ (b : BankId) (i : Initiator) (off : BitVec 16) (sz : Size) (v v2 : Dword) (a : BitVec 22) (n : Fin 9) (w : Word) (c : BitVec 6) (t : RowTest) (s : State),
    let n8 := sz.bytes
    let base := bankAddr b.val off.toNat
    let calm : Prop := s.bankPend b.val = false ∧ (s.bank b.val).newOwner = none ∧ s.bankPwr b.val = 0 ∧ (s.bank b.val).test = none ∧ s.flaw = []
    let power : Nat → Out → Prop := fun st out => Reaches out (fun u => u.bankPwr b.val = st)
    let free : Prop := (s.bank b.val).test = none ∧ (s.bank b.val).waking = false
    let at_ := 0x4080000000 + a.toNat
    let clear : Initiator → Nat → Prop := fun i x => (∀ n, s.cutting n = none) ∧ s.packets = [] ∧ s.probing = false ∧ s.issues i = true ∧
      s.passes (sourcePort i) false x = true ∧ ∀ d, wakes x = some d → s.dom d = 0
    (calm → off.toNat % n8 = 0 → s.owns b.val i = true →
      Reaches (exec (.bankAccess b (some ⟨i, off, sz, none, some v⟩) none) s) (fun u => (∀ k, k < n8 → u.byte (base + k) = BitVec.ofNat 8 (v.toNat / 2 ^ (8 * k))) ∧
        (∀ x, x < base ∨ base + n8 ≤ x → u.byte x = s.byte x) ∧ tget (konst none) u.resps (respKey i) = some ⟨0, .ok, []⟩) ∧
      Reaches (exec (.bankAccess b (some ⟨i, off, sz, none, none⟩) none) s) (fun u => u.mem = s.mem ∧
        tget (konst none) u.resps (respKey i) = some ⟨0, .ok, s.bytes base n8⟩) ∧
      (b.val < 4 → Reaches (exec (.bankAccess b (some ⟨i, off, sz, none, some v⟩) (some ⟨.hostBlock, off, sz, none, some v2⟩)) s) (fun u =>
        (∀ k, k < n8 → u.byte (base + k) = BitVec.ofNat 8 (v.toNat / 2 ^ (8 * k))) ∧ (∀ x, x < base ∨ base + n8 ≤ x → u.byte x = s.byte x) ∧
        u.bit (bk b.val 0x10) 31 = true ∧ tget (konst none) u.resps (respKey .hostBlock) = some ⟨0, .collision, []⟩))) ∧
    (s.bankPend b.val = false → off.toNat % n8 = 0 → s.owns b.val i = false →
      Reaches (exec (.bankAccess b (some ⟨i, off, sz, none, some v⟩) none) s) (fun u => u.mem = s.mem ∧ u.bit (bk b.val 0x10) 30 = true ∧
        tget (konst none) u.resps (respKey i) = some ⟨0, .notOwner, []⟩)) ∧
    (clear i at_ → s.isolatedFor i 0 at_ = true → 0 < n.val → Reaches (exec (.rotateAliasAccess i a n none) s) (fun u => u.mem = s.mem ∧
      tget (konst none) u.resps (respKey i) = some ⟨0, .targetIsolated, List.replicate n.val 0⟩)) ∧
    (clear i at_ → s.isolatedFor i 0 at_ = false → b.val = a.toNat / 65536 → calm → 0 < n.val → s.owns b.val i = true →
      (∀ d, decodePort at_ = some d → s.noReturn (sourcePort i) d (.rd .b1) .ok = false) → Reaches (exec (.rotateAliasAccess i a n none) s) (fun u =>
      tget (konst none) u.resps (respKey i) = some ⟨0, .ok, (List.range n.val).map (fun k =>
        s.byte (bankAddr b.val (a.toNat / 8 % 8192 * 8 + (a.toNat % 8 + k) % 8)))⟩)) ∧
    (clear .mgmt (0x4200000000 + bk b.val 0) → s.isolatedFor .mgmt 0 (0x4200000000 + bk b.val 0) = false → b.val ≠ 63 → ownerValid (w.toNat % 64) = true →
      s.bankPend b.val = false → s.blocker (act 4 b.val 0) = none →
      Reaches (exec (.ownerWrite .mgmt b w) s) (fun u => u.bankPend b.val = true ∧ (u.bank b.val).newOwner = some (BitVec.ofNat 6 w.toNat) ∧ u.owner b.val = s.owner b.val)) ∧
    (b.val ≠ 63 → (s.bank b.val).newOwner = some c → (s.bank b.val).held = [] → s.traceQ = [] →
      Reaches (exec (.handoverComplete b) s) (fun u => u.owner b.val = c.toNat ∧ u.bankPend b.val = false ∧ u.mem = s.mem)) ∧
    (s.bankPwr b.val = 0 → s.fld (bk b.val 8) 8 16 ≠ 0 → (s.bank b.val).test = none → power 1 (exec (.bankIdleRetention b) s)) ∧
    (mayPower i b.val s = true → free → s.bankPwr b.val = 0 → power 1 (exec (.bankRetentionCmd i b) s)) ∧
    (mayPower i b.val s = true → free → s.bankPwr b.val ≤ 1 → b.val ≠ 63 → Reaches (exec (.bankOffCmd i b) s) (fun u => u.bankPwr b.val = 2 ∧
      ∀ x, x < bankAddr b.val 0 ∨ bankAddr b.val 65536 ≤ x → u.byte x = s.byte x)) ∧
    (mayPower i b.val s = true → free → s.bankPwr b.val = 2 → power 3 (exec (.bankWakeCmd i b) s)) ∧
    (s.bankWakes b.val = true → (s.bank b.val).stalled = [] → (s.bank b.val).cmds = [] → s.traceQ = [] → power 0 (exec (.bankWakeComplete b) s)) ∧
    (s.bit (bk b.val 0x20) 31 = true → calm → s.blocker (act 3 b.val b.val) = none → Reaches (exec (.rowTestStart b) s) (fun u =>
      (u.bank b.val).test.map (·.row) = some (s.dueRow b.val) ∧ u.bit (bk b.val 0x10) 25 = true ∧ u.mem = s.mem)) ∧
    ((s.bank b.val).test = some t → (s.bank b.val).cmds = [] → t.row < 1024 → Reaches (exec (.rowTestRestore b false) s) (fun u =>
      (u.bank b.val).test = none ∧ u.bit (bk b.val 0x10) 25 = false ∧
      ∀ k, k < 8 → u.num (bankAddr b.val (64 * t.row + 8 * k)) 8 = (t.buf.getD k (0, false)).1.toNat))

-- Rings (chapter 11)

/-- Requests on the rings (R258–R265, R267): a request whose address decodes and to whose stop a route leads is in its source port's store under a tag of its
own, the fabric's while its ring initiator port is open (R345); one whose address decodes to nothing is UNMAPPED at once, and one to which no route leads
TARGET_ISOLATED; a read or a write delivered to sound staging
memory sets out its response, and a posted write its delivery notice; the response completes the request at its initiator; a delivered request that is not
answered isolates its port, and its stop answers. -/
def Obligations.RingRequests : Prop :=
  ∀ (i : Initiator) (c : CoreId) (a : BitVec 40) (sz : Size) (v : Dword) (line : BitVec 512) (d : List (BitVec 512)) (posted : Bool) (p x : Packet) (st : RStat)
    (data : List Byte) (s : State),
    let routed : RingOp → Initiator → Prop := fun op i => s.issues i = true ∧ ∃ x, decodePort a.toNat = some x ∧ s.noRoute (netIdx op.net) (sourcePort i).1 x.1 = false
    let fresh : Prop := ∀ x, x ∈ s.packets → x.tag < s.nextTag ∧ x.ref < s.nextTag
    let enters : Out → RingOp → Initiator → Prop := fun out op i => fresh → routed op i → Reaches out (fun t => t.nextTag = s.nextTag + 1 ∧
      ∃ q, q ∈ t.packets ∧ q.tag = s.nextTag ∧ q.init = i ∧ q.addr = a ∧ q.op = some op ∧ (q.stage = .waiting ∨ q.stage = .flying))
    let at_ := p.addr.toNat
    let reply : State → Initiator → Nat → RStat → List Byte → Prop := fun t i tag st x => tget (konst none) t.resps (respKey i) = some ⟨tag, st, x⟩
    let served : Prop := Ejects p s ∧ p.answered = false ∧ Returns p s ∧ s.isolated p.dstop.val p.dport = false ∧ SoundMemory s ∧ s.dirBusy = [] ∧
      ∀ op, p.op = some op → s.snoopLost p.init op p.linesOf = false
    enters (exec (.rd i a sz) s) (.rd sz) i ∧ enters (exec (.wr i a sz v) s) (.wr sz v) i ∧ enters (exec (.wrp i a sz v) s) (.wrp sz v) i ∧
    enters (exec (.rdl i a sz) s) (.rdl sz) i ∧ enters (exec (.wrl i a ⟨d, posted⟩) s) (.wrl (d.take 8) posted) i ∧ enters (exec (.rds c a) s) .rds (.core c) ∧
    enters (exec (.rdx c a) s) .rdx (.core c) ∧ enters (exec (.upg c a) s) .upg (.core c) ∧ enters (exec (.wbk c a line) s) (.wbk line) (.core c) ∧
    enters (exec (.evs c a) s) .evs (.core c) ∧
    (s.issues i = false → exec (.rd i a sz) s = .next s) ∧
    (s.issues i = true → decodePort a.toNat = none → Reaches (exec (.rd i a sz) s) (fun t => reply t i s.nextTag .unmapped (List.replicate sz.bytes 0) ∧ t.packets = s.packets)) ∧
    (s.packets = [] → s.cutting 0 = none → s.issues i = true → ¬ routed (.rd sz) i → decodePort a.toNat ≠ none →
      Reaches (exec (.rd i a sz) s) (fun t => reply t i s.nextTag .targetIsolated (List.replicate sz.bytes 0) ∧ t.packets = [])) ∧
    (served → p.op = some (.rd sz) → at_ + sz.bytes ≤ stagingEnd → Reaches (exec (.packetEjection p.tag) s) (fun t =>
      Back p (.rsp .ok (s.bytes at_ sz.bytes)) t ∧ t.mem = s.mem)) ∧
    (served → p.op = some (.rdl sz) → s.noRoute 3 p.dstop.val p.sstop.val = false → at_ / 64 * 64 + 64 * sz.bytes ≤ stagingEnd →
      Reaches (exec (.packetEjection p.tag) s) (fun t => Back p (.rsp .ok []) t ∧ Back p (.lines (s.bytes (at_ / 64 * 64) (64 * sz.bytes))) t ∧ t.mem = s.mem)) ∧
    (served → at_ % sz.bytes = 0 → at_ + sz.bytes ≤ stagingEnd →
      let writes : State → Prop := fun t => (∀ k, k < sz.bytes → t.byte (at_ + k) = BitVec.ofNat 8 (v.toNat / 2 ^ (8 * k))) ∧
        ∀ x, x < at_ ∨ at_ + sz.bytes ≤ x → t.byte x = s.byte x
      (p.op = some (.wr sz v) → Reaches (exec (.packetEjection p.tag) s) (fun t => Back p (.rsp .ok []) t ∧ writes t)) ∧
      (p.op = some (.wrp sz v) → p.stage ≠ .held → Reaches (exec (.packetEjection p.tag) s) (fun t => Back p .dlv t ∧ writes t))) ∧
    (Ejects p s → p.net = .rsp → p.cargo = .rsp st data → s.packet p.ref = some x → x.tag ≠ p.tag → x.data = none → x.discard = false →
      (x.readsLines = false ∨ st ≠ .ok) → Reaches (exec (.packetEjection p.tag) s) (fun t => t.packet x.tag = none ∧
        reply t x.init x.tag st (if st = .ok then data else x.zeros))) ∧
    (fresh → s.packet p.tag = some p → p.stage = .served → p.posted = false → p.answered = false → Returns p s → (∀ d, p.bridge = some d → s.domUp d = true) →
      p.dport < 8 → Reaches (exec (.isolationTimeout p.tag) s) (fun t => t.isolated p.dstop.val p.dport = true ∧
        Back p (.rsp .targetIsolated (if p.readsLines then [] else p.zeros)) t))

/-- Packets that a retirement cuts (R269, R270): a segment retires at the third failure of one flit, or when its replays within 1 ms reach THR, before which a
replay is counted alone; the packets cut on it wait for RETRY, on which the source sends the packet again, for at most 4 times; then the requester has
RETRY_EXHAUSTED, also where it is the response that is lost, of which R270 names no receiver (log entry 43). -/
def Obligations.RingRetirement : Prop :=
  ∀ (n : Net) (stop : StopId) (ring : Fin 4) (third : Bool) (cut : List Nat) (p x y : Packet) (st : RStat) (data : List Byte) (s : State),
    let m := netIdx n
    let old := s.replaysOf m ring.val stop.val
    let due : Prop := third = true ∨ max 1 (s.fld (cr 0x40 0x18) 0 8) ≤ old.length + 1
    let given : Prop := ring.val < ringsOf m ∧ s.segOut m ring.val stop.val = false
    let resent : Prop := Ejects p s ∧ p.net = .rsp ∧ s.packets.find? (fun y => y.cargo == .retry && y.ref == x.tag) = some p ∧ s.packet x.tag = some x ∧
      x.tag ≠ p.tag ∧ x.stage = .cut
    (given → due → s.fbusy m = false → s.rbusy m = false → s.blocker (act 8 m 0) = none → Reaches (exec (.ringSegmentRetirement n ring stop ⟨third, cut⟩) s) (fun t =>
      t.fbusy m = true ∧ t.rbusy m = true ∧ t.cutting m = some (ring.val * 16 + stop.val) ∧ t.netBank m = 1 - s.netBank m ∧
      ∀ y, y ∈ s.packets → cut.contains y.tag = true → y.on m ring.val stop.val = true →
        (∃ z, z ∈ t.packets ∧ z.tag = y.tag ∧ z.stage = .cut) ∧ ∃ r, r ∈ t.packets ∧ r.cargo = .retry ∧ r.ref = y.tag)) ∧
    (given → ¬ due → Reaches (exec (.ringSegmentRetirement n ring stop ⟨third, cut⟩) s) (fun t => t.replaysOf m ring.val stop.val = s.ran :: old ∧
      t.creg = s.creg ∧ t.packets = s.packets)) ∧
    (resent → x.resends < 4 → s.noRoute (netIdx x.net) x.sstop.val x.dstop.val = false → Reaches (exec (.retryNotice x.tag) s) (fun t =>
      ∃ y, y ∈ t.packets ∧ y.tag = x.tag ∧ y.cargo = x.cargo ∧ y.resends = x.resends + 1 ∧ (y.stage = .waiting ∨ y.stage = .flying))) ∧
    (resent → 4 ≤ x.resends → x.op.isSome = true → x.posted = false → x.discard = false → Reaches (exec (.retryNotice x.tag) s) (fun t => t.packet x.tag = none ∧
      tget (konst none) t.resps (respKey x.init) = some ⟨x.tag, .retryExhausted, x.zeros⟩)) ∧
    (resent → 4 ≤ x.resends → x.cargo = .rsp st data → s.packet x.ref = some y → y.tag ≠ x.tag → y.tag ≠ p.tag → y.op.isSome = true → y.posted = false → y.discard = false →
      Reaches (exec (.retryNotice x.tag) s) (fun t => t.packet y.tag = none ∧ tget (konst none) t.resps (respKey y.init) = some ⟨y.tag, .retryExhausted, y.zeros⟩))

/-- The directory and the rings' service (R263, R265–R268, R271, R272): a snooped agent gives its copy up or shares it, and answers; the last response grants
the line and sets out the requester's; a flip sends every stop to the standby bank and ends when all have switched; a route write changes the standby
entry; tokens refill up to the burst; an enabled probe counts anew. -/
def Obligations.RingService : Prop :=
  ∀ (c : CoreId) (a : BitVec 40) (x : DirTxn) (y q : Packet) (inval : Bool) (n : Net) (p : StopId) (dat : Bool) (nc : Nat) (k : Fin 32) (v : Word) (s : State),
    let l := a.toNat / 64
    let m := netIdx n
    let idle : Prop := s.fbusy m = false ∧ s.rbusy m = false
    let sel := s.r32 (cr 0x40 0x10)
    let snp : (Cargo → Bool) → Prop := fun f => Ejects q s ∧ q.net = .snp ∧
      s.packets.find? (fun p => p.addr.toNat / 64 == l && p.init == .core c && f p.cargo) = some q
    let r := agentOf x.req.init
    (snp (fun g => g == .snoop true || g == .snoop false) → q.cargo = .snoop inval → s.noRoute 2 (agentPort c).1 (homePort l).1 = false →
      Reaches (exec (.snoop c a) s) (fun t =>
        (if inval then (t.dline l).holders.getLsbD c.val = false
         else (t.dline l).excl = false ∧ (t.dline l).dirty = false ∧ (t.dline l).holders = (s.dline l).holders) ∧
        ∃ z, z ∈ t.packets ∧ z.cargo = .snoopRsp ∧ z.init = .core c ∧ z.addr.toNat / 64 = l)) ∧
    (snp (fun g => g == .snoopRsp) → (s.dbusy l).now = some x → (s.dbusy l).queue = [] → x.await = agent c → s.packet x.req.tag = some y → y.tag ≠ q.tag →
      y.stage = .served → y.answered = false → y.posted = false → Returns y s → SoundMemory s → l * 64 + 64 ≤ stagingEnd → Reaches (exec (.snoopResponse c a) s) (fun t =>
        (t.dbusy l).now = none ∧ (t.dline l).holders.getLsbD r.val = true ∧ (x.req.op ≠ some .rds → (t.dline l).excl = true ∧ (t.dline l).holders = agent r) ∧
        ∃ st d, Back y (.rsp st d) t)) ∧
    (Reaches (exec (.isoReadmit .mgmt p v) s) (fun t => ∀ b, b < 8 →
      t.bit (cr 0x40 (0x100 + 4 * p.val)) b = (s.bit (cr 0x40 (0x100 + 4 * p.val)) b && !v.getLsbD b))) ∧
    (idle → s.blocker (act 7 m 0) = none → Reaches (exec (.ringFlip .mgmt (BitVec.ofNat 4 (2 ^ m))) s) (fun t =>
      t.fbusy m = true ∧ t.netBank m = 1 - s.netBank m ∧ t.routes = s.routes ∧ ∀ q, q < 16 → t.stopBank m q = s.stopBank m q)) ∧
    (s.fbusy m = true ∨ s.rbusy m = true → exec (.ringFlip .mgmt (BitVec.ofNat 4 (2 ^ m))) s =
      .next ((match s.blocker (act 7 m 0) with | some b => s.refuse (act 7 m 0) b | none => s).setB ringStat 31)) ∧
    (s.fbusy m = true → Still s → Reaches (exec (.stopRouteSwitch n p) s) (fun t => t.stopBank m p.val = s.netBank m ∧
      ((∀ q : Fin 16, q ≠ p → s.stopBank m q.val = s.netBank m) → t.fbusy m = false))) ∧
    (s.fbusy (bits sel 8 2) = false → s.rbusy (bits sel 8 2) = false → Reaches (exec (.routeTableWrite .mgmt v) s) (fun t =>
      t.route (1 - s.netBank (bits sel 8 2)) (bits sel 8 2) (bits sel 4 4) (bits sel 0 4) = ⟨v.getLsbD 3, v.toNat % 4⟩ ∧
      ∀ n' src dest, n' < 4 → src < 16 → dest < 16 → s.netBank n' < 2 → t.route (s.netBank n') n' src dest = s.route (s.netBank n') n' src dest)) ∧
    (Still s → s.traceQ = [] → Reaches (exec (.tokenRefill p dat nc) s) (fun t =>
      t.token p.val dat = min (s.token p.val dat + (s.bucket p.val dat).1 * nc) ((s.bucket p.val dat).2 * 1024) ∧ t.creg = s.creg ∧ t.packets = s.packets)) ∧
    (v.getLsbD 31 = true → s.bit (cr 0x41 (0x40 * k.val)) 31 = false → Reaches (exec (.probeEnable .mgmt k v) s) (fun t =>
      t.bit (cr 0x41 (0x40 * k.val)) 31 = true ∧ t.r64 (cr 0x41 (0x40 * k.val + 0x20)) = 0 ∧ t.r32 (cr 0x41 (0x40 * k.val + 0x28)) = 0))

-- Power, clocks, time (chapters 14, 15)

/-- Power domains (R36, R264, R351–R355): ON and CG are exchanged by gating; a gated domain drains where PGEN and the condition of Table PWR-1 allow it, else
SLEEP is recorded as refused; a drained domain turns OFF, drains on while a request is outstanding, or stays for work that has come; a wake, and a wake source
that is present, reaches WAKING, an array domain with the OFF domains
of its partition; a powered-up array domain is zeroed.
Where a command's trigger is absent nothing changes: the model's choice, log entry 5. -/
def Obligations.PowerDomains : Prop :=
  ∀ (d : DomId) (s : State),
    let st := s.dom d.val
    let dst := pw (0x300 + 8 * d.val)
    let goes : Out → Nat → Prop := fun out v => Reaches out (fun t => t.dom d.val = v)
    let gate : Out → Nat → Prop := fun out v => Reaches out (fun t => t.dom d.val = v ∧ t.r32 dst / 8 = s.r32 dst / 8 ∧ OnlyRegs [dst] s t)
    let wakes : Out → Prop := fun out => Reaches out (fun t => t.dom d.val = 4 ∧
      (d.val < 16 → ∀ x, x ∈ (s.partOf (domQuad d.val)).flatMap quadDomains → s.dom x = 3 → t.dom x = 4))
    (st = 0 → gate (exec (.clockGate d) s) 1) ∧ (st ≠ 0 → exec (.clockGate d) s = .next s) ∧
    (st = 1 → gate (exec (.clockResume d) s) 0) ∧ (st ≠ 1 → exec (.clockResume d) s = .next s) ∧
    (st = 1 → s.pgen d.val = true → s.mayDrain d.val = true → Reaches (exec (.domainDrain d) s) (fun t => t.dom d.val = 2 ∧ t.pnr d.val = 0 ∧
      t.mem = s.mem ∧ t.arr = s.arr ∧ t.cores = s.cores)) ∧
    (st ≠ 1 ∨ s.pgen d.val = false ∨ s.mayDrain d.val = false → exec (.domainDrain d) s = .next s) ∧
    (st ≤ 1 → s.pgen d.val = true → s.mayDrain d.val = true → goes (exec (.sleep .mgmt d) s) 2) ∧
    (s.pgen d.val = false ∨ s.mayDrain d.val = false → Reaches (exec (.sleep .mgmt d) s) (fun t => t.dom d.val = st ∧ t.bit (pw 8) 29 = true)) ∧
    (st = 2 → s.pnr d.val = 0 → goes (exec (.wake .mgmt d) s) 0) ∧
    (st = 2 → s.pnr d.val ≠ 0 → Reaches (exec (.wake .mgmt d) s) (fun t => t.dom d.val = 2 ∧ t.pnr d.val = 2)) ∧
    (st = 3 → s.heldOff d.val = false → wakes (exec (.wake .mgmt d) s) ∧ (s.wakeSource d.val = true → wakes (exec (.domainWake d) s))) ∧
    (s.wakeSource d.val = false ∨ (st = 3 ∧ s.heldOff d.val = true) → exec (.domainWake d) s = .next s) ∧
    (st = 2 → s.pnr d.val = 0 → s.mayDrain d.val = false → gate (exec (.powerDownComplete d) s) 0) ∧
    (st = 2 → s.pnr d.val ≠ 2 → (s.pnr d.val = 0 → s.mayDrain d.val = true ∧ s.outstanding d.val = false) → s.wakeHeld d.val = false → goes (exec (.powerDownComplete d) s) 3) ∧
    (st = 2 → s.pnr d.val = 0 → s.mayDrain d.val = true → s.outstanding d.val = true → exec (.powerDownComplete d) s = .next s) ∧
    (st = 2 → s.pnr d.val = 2 → s.heldOff d.val = false → goes (exec (.powerDownComplete d) s) 4) ∧
    (st = 4 → s.packets = [] → s.fab.waiting = [] → twf (konst 0) s.arr.mem = true → Reaches (exec (.domainWakeComplete d) s) (fun t => t.dom d.val = 0 ∧ (∃ v, t.vset d.val = clampSet d.val v) ∧
      t.mem = s.mem ∧ t.cores = s.cores ∧
      ∀ j, if d.val < 16 ∧ (domPlane d.val).getLsbD j = true then (∀ a, (t.plane a).getLsbD j = false) ∧ t.arr.sh.getLsbD j = false ∧ t.arr.k.getLsbD j = true ∧
          t.arr.x.getLsbD j = false ∧ t.arr.c.getLsbD j = false ∧ t.arr.e.getLsbD j = false ∧ t.arr.n.getLsbD j = false
        else ∀ a, (t.plane a).getLsbD j = (s.plane a).getLsbD j))

/-- Array clock, adaptive voltage, throttle and current (R357–R364, Table PWR-2): a sound frequency, of 3,000 MHz at most, is pending until the partitions idle; a voltage step moves the set
point by 5 mV within its range, downwards after 100 readings, and in a domain that is OFF does nothing (an absent trigger, log entry 5); a request goes out at a change of 5 mV once start-up step B5 has taken the rails over (R373); TL rises and falls with the readings, CL with the
current; a second reading at 125,000 m°C is the thermal trip. ILIM is 720 A at reset and refused above it,
with CEIL and an error-log entry, and the fuses read alike in every state (R363). -/
def Obligations.ClocksAndThrottle : Prop :=
  ∀ (d : DomId) (v : Word) (uv : BitVec 20) (r : Fin 2) (tj : List (DomId × Int)) (pilot : Int) (amps us : Nat) (s : State),
    let m := bits v.toNat 0 12
    let lo := if d.val < 16 then 600000 else if 21 ≤ d.val ∧ d.val ≤ 28 then 700000 else 650000
    let hi := min (if d.val < 16 then 800000 else 850000) (Config.vmax.toNat * 1000)
    let clamp : Nat → Nat := fun v => min (max v lo) hi
    let above := tget (konst 0) s.power.above d.val
    let sets : Out → Nat → Nat → Prop := fun out v n => Reaches out (fun t => t.vset d.val = v ∧ tget (konst 0) t.power.above d.val = n ∧
      (∀ e, e ≠ d.val → e < 33 → t.vset e = s.vset e) ∧ t.dom d.val = s.dom d.val)
    let avs := cr 0x4e (8 * r.val)
    let levels : Out → Nat → Nat → Prop := fun out tl cl => Reaches out (fun t => t.tl = tl ∧ t.cl = cl ∧ t.fld (pw 0x10) 8 3 = max tl cl)
    let ilim := s.fld (pw 0x18) 0 16
    let calm : Prop := s.boot.held = none ∧ s.boot.trip = false
    Config.fmax.toNat ≤ 3000 ∧ (m % 50 ≠ 0 ∨ m < 1000 → exec (.aclkWrite .mgmt v) s = .next (s.setB (pw 8) 30)) ∧
    (m % 50 = 0 → 1000 ≤ m → Config.fmax.toNat < m → Reaches (exec (.aclkWrite .mgmt v) s) (fun t => t.bit (pw 8) 31 = true ∧ t.r32 (pw 0x20) = s.r32 (pw 0x20))) ∧
    (m % 50 = 0 → 1000 ≤ m → m ≤ Config.fmax.toNat → Reaches (exec (.aclkWrite .mgmt v) s) (fun t => t.fld (pw 0x20) 0 12 = m ∧ t.bit (pw 0x20) 31 = true ∧ OnlyRegs [pw 0x20] s t)) ∧
    ((∀ p, p < 4 → s.quads p = [] ∨ s.partIdle p = true) → Reaches (exec .aclkChange s) (fun t => t.bit (pw 0x20) 31 = false ∧
      t.fld (pw 0x20) 0 12 = s.fld (pw 0x20) 0 12 ∧ OnlyRegs [pw 0x20] s t)) ∧
    (s.dom d.val ≠ 3 → sets (exec (.avfsStep d .low) s) (clamp (s.vset d.val + 5000)) 0 ∧ sets (exec (.avfsStep d .inside) s) (clamp (s.vset d.val)) 0 ∧
      (above < 99 → sets (exec (.avfsStep d .high) s) (clamp (s.vset d.val)) (above + 1)) ∧
      (99 ≤ above → sets (exec (.avfsStep d .high) s) (clamp (s.vset d.val - 5000)) 0)) ∧ (s.dom d.val = 3 → ∀ m, exec (.avfsStep d m) s = .next s) ∧
    (uv.toNat + 30000 < s.vset d.val → Reaches (exec (.droopStretch d uv) s) (fun t => t.creg = s.creg ∧
      tget (konst 0) t.power.stretches d.val = tget (konst 0) s.power.stretches d.val + 1)) ∧
    (s.power.avs = false ∨ (s.railWant r.val < s.railAsked r.val + 80 ∧ s.railAsked r.val < s.railWant r.val + 80) → ∀ b, exec (.avsRequest r b) s = .next s) ∧
    (s.power.avs = true → s.railAsked r.val + 80 ≤ s.railWant r.val ∨ s.railWant r.val + 80 ≤ s.railAsked r.val →
      Reaches (exec (.avsRequest r true) s) (fun t => t.fld avs 48 16 = s.railWant r.val ∧ t.railAsked r.val = s.railWant r.val) ∧
      Reaches (exec (.avsRequest r false) s) (fun t => t.fld avs 48 16 = s.fld avs 48 16 ∧ t.bit (cr 0x4e 0x10) 31 = true)) ∧
    (calm → pilot < 105000 → (∀ e, e ∈ tj → e.2 < 105000) → Reaches (exec (.thermalReading tj pilot) s) (fun t => t.tl = s.tl ∧ t.cl = s.cl ∧ t.power.pilotTemp = pilot ∧
      ∀ e, tj = [e] → s.dom e.1.val ≠ 3 → -2147483648 ≤ e.2 → t.tj e.1.val = e.2)) ∧
    (calm → 105000 ≤ pilot → pilot < 125000 → (∀ e, e ∈ tj → e.2 < 125000) → s.power.tlRise = none →
      levels (exec (.thermalReading tj pilot) s) (min 7 (s.tl + 1)) s.cl) ∧
    (calm → 125000 ≤ pilot → s.power.hot.contains 33 = true → Reaches (exec (.thermalReading tj pilot) s) (fun t => t.devState = stAlarm ∧ t.boot.trip = true ∧
      ∀ d, d < 33 → t.dom d = 3)) ∧
    ((∀ d, d < 33 → s.dom d = 3 ∨ s.tj d < 103000) → s.power.pilotTemp < 103000 → levels (exec .thermalDecay s) (s.tl - 1) s.cl) ∧
    (ilim < amps → levels (exec (.currentLimitStep amps us) s) s.tl (min 7 (s.cl + us))) ∧
    (amps * 100 < ilim * 95 → levels (exec (.currentLimitStep amps us) s) s.tl (s.cl - (s.power.cool + us) / 100)) ∧
    (bits v.toNat 0 16 ≤ 720 → Reaches (exec (.limitWrite .mgmt v) s) (fun t => t.fld (pw 0x18) 0 16 = bits v.toNat 0 16 ∧ OnlyRegs [pw 0x18] s t)) ∧
    (720 < bits v.toNat 0 16 → s.errq = none → Reaches (exec (.limitWrite .mgmt v) s) (fun t => t.r32 (pw 0x18) = s.r32 (pw 0x18) ∧ t.bit (pw 8) 31 = true ∧
      ∃ e : ErrEntry, e.cls = 12 ∧ tget (konst ErrEntry.zero) t.errLast 12 = e ∧ (s.errlog.length < errCap → t.errlog = s.errlog ++ [e]))) ∧
    State.reset.fld (pw 0x18) 0 16 = 720 ∧ (∀ u : State, (pageRead 8 0x28 8 u).1 = Config.fmax.toNat + Config.vmax.toNat * 65536 + 720 * 2 ^ 32)

/-- SMBus and device time (R365–R371, R448, R455): the block reads and the refusal of the sideband, which answers nothing under TESTMODE or without VIO18; a set or stepped time is VALID and loses LOCK; a rate beyond 500 ppm
is refused; alarm, pulses at the second's offset, and the PTP messages of the management port with their stamps.
The packet error check and the sessions that PTP messages are listed under are the model's choices, log entries 45 and 44.
Where a command's trigger is absent nothing changes: the model's choice, log entry 5. -/
def Obligations.SidebandAndTime : Prop :=
  ∀ (hot : Int) (mw v : Word) (t0 : Dword) (lock : Nat) (k : PtpKind) (f : PtpFrame) (s : State),
    let check : Nat → List Byte → Byte := fun cmd b => BitVec.ofNat 8 (([2 * s.smbAddr, cmd, 2 * s.smbAddr + 1, b.length].map (BitVec.ofNat 8) ++ b).foldl pecByte 0)
    let answer : Out → Nat → List Byte → Prop := fun out cmd b => out = .next (s.modPower (fun p => { p with smb := b, pec := check cmd b }))
    let unlocked : State → Prop := fun t => t.bit (tm 0x14) 31 = true ∧ t.bit (tm 0x14) 30 = false ∧ t.time.lockAt = none
    let pulsed : Nat → State → Prop := fun j t => ∀ n, n < 6 → s.target n j = true → s.fld (icuCfg n j) 24 3 = 2 → tget (konst false) s.samples (n * 1024 + j) = false →
      t.icuBit n 0x200 j = true ∧ t.icuCount n j = min 255 (s.icuCount n j + 1)
    let discards : Prop := f.outgoing = true ∧ ptpMaster k = true ∧ s.bit (cr 0 0x10) 7 = false
    let on : Prop := s.bit (cr 0x4c 0) 31 = true ∧ (f.carrier = .ip4 → s.bit (cr 0x4c 0) 25 = true) ∧ (f.carrier = .ip6 → s.bit (cr 0x4c 0) 26 = true)
    let stamps : Bool := decide (ptpType f.bytes < 4) && s.ptpStamps (ptpKindOf f.bytes)
    (s.smbOn = true → s.boot.sleep = false → (∀ d, d < 33 → s.tj d ≤ hot) → (∃ d, d < 33 ∧ s.tj d = hot) → answer (exec .smbTemperature s) 1 (toBytes 4 (BitVec.ofInt 32 hot).toNat)) ∧
    (s.smbOn = true → s.boot.sleep = true → answer (exec .smbTemperature s) 1 (toBytes 4 (BitVec.ofInt 32 s.power.pilotTemp).toNat)) ∧
    (s.smbOn = true → exec (.smbPackagePower mw) s = .next (s.modPower (fun p => { p with smb := toBytes 4 mw.toNat, pec := check 2 (toBytes 4 mw.toNat), draw := mw }))) ∧
    (s.smbOn = true → answer (exec .smbDeviceState s) 3 (toBytes 1 s.devState) ∧ answer (exec .smbThrottleLevel s) 4 (toBytes 1 (s.fld (pw 0x10) 8 3)) ∧
      answer (exec .smbSerialNumber s) 5 (toBytes 8 Config.serial.toNat)) ∧
    (s.smbOn = false → exec .smbTemperature s = .next s ∧ exec .smbDeviceState s = .next s ∧ exec .smbThrottleLevel s = .next s ∧ exec .smbSerialNumber s = .next s ∧
      exec .smbRefused s = .next s) ∧
    (s.smbOn = true → Reaches (exec .smbRefused s) (fun t => t.bit (cr 0x4e 0x10) 30 = true ∧ t.power = { s.power with nacks := s.power.nacks + 1 } ∧ t.mem = s.mem)) ∧
    Reaches (exec (.timeSet .mgmt t0) s) (fun t => t.now = t0 ∧ t.frac = 0 ∧ unlocked t) ∧
    Reaches (exec (.timeStep .mgmt t0) s) (fun t => t.now = s.now + t0 ∧ t.frac = s.frac ∧ unlocked t) ∧
    (v.toInt < -128000000 ∨ 128000000 < v.toInt → exec (.timeAdjWrite .mgmt v) s = .next (s.setB (tm 0x14) 27)) ∧
    (-128000000 ≤ v.toInt → v.toInt ≤ 128000000 → Reaches (exec (.timeAdjWrite .mgmt v) s) (fun t => t.r32 (tm 0x18) = v.toNat ∧ t.now = s.now ∧
      (s.timeSrc ≠ 1 → OnlyRegs [tm 0x18] s { t with time := s.time }))) ∧
    (s.r64 (tm 0x28) ≠ 0 → s.r64 (tm 0x28) ≤ s.now.toNat → Reaches (exec .timeAlarm s) (fun t => t.r64 (tm 0x28) = 0 ∧ pulsed 60 t ∧ t.now = s.now)) ∧
    (s.r64 (tm 0x28) = 0 ∨ s.now.toNat < s.r64 (tm 0x28) → exec .timeAlarm s = .next s) ∧
    (s.bit (tm 0x30) 63 = true → s.bit (tm 0x14) 31 = true → s.ppsPassed = true → stReady ≤ s.devState → Reaches (exec .ppsOut s) (fun t => t.time.ppsHigh = true ∧ pulsed 61 t)) ∧
    (s.bit (tm 0x30) 63 = false ∨ s.bit (tm 0x14) 31 = false ∨ s.ppsPassed = false ∨ s.devState < stReady → exec .ppsOut s = .next s) ∧
    (s.bit (tm 0x30) 62 = false ∨ s.ppsSoon = true → exec .ppsIn s = .next s) ∧
    (s.bit (tm 0x30) 62 = true → s.ppsSoon = false → Reaches (exec .ppsIn s) (fun t => t.r64 (tm 0x38) = 2 ^ 63 + s.now.toNat % 2 ^ 63 ∧
      (s.timeSrc ≠ 3 → t.now = s.now) ∧ (s.timeSrc = 3 → s.stepTh ≤ (withinSecond s.now.toNat).natAbs → t.now = s.now - BitVec.ofInt 64 (withinSecond s.now.toNat) ∧ unlocked t))) ∧
    (s.time.lockAt = some lock → s.bit (tm 0x14) 30 = true → lock + 64000000000 ≤ s.ran → -128000000 ≤ v.toInt → v.toInt ≤ 128000000 →
      Reaches (exec (.holdCalibration v) s) (fun t => t.r32 (tm 0x1c) = v.toNat ∧ OnlyRegs [tm 0x1c] s t)) ∧
    (s.time.lockAt = none → exec (.holdCalibration v) s = .next s) ∧
    (discards → Reaches (exec (.ptpEventMessage k f) s) (fun t => t.fld (tm 0x14) 0 16 = min 65535 (s.fld (tm 0x14) 0 16 + 1) ∧ t.time.stamp = s.time.stamp)) ∧
    (¬ discards → ¬ on ∨ (f.outgoing = true ∧ ptpMaster k = true ∧ s.bit (cr 0x4c 0) 24 = false) → exec (.ptpEventMessage k f) s = .next s) ∧
    (¬ discards → on → f.outgoing = true → (ptpMaster k = true → s.bit (cr 0x4c 0) 24 = true) →
      (s.dict.mgeWait = [] → s.mgeRoom (frameBytes (ptpSession f, f.bytes)) = true → Reaches (exec (.ptpEventMessage k f) s) (fun t =>
        t.dict.out = s.dict.out ++ [(ptpSession f, if stamps then s.oneStep f.bytes else f.bytes)] ∧
        t.time.stamp = (if stamps then some ⟨ptpKindOf f.bytes, true, s.now, s.frac⟩ else s.time.stamp) ∧ t.now = s.now)) ∧
      (s.mgeRoom (frameBytes (ptpSession f, f.bytes)) = false → Reaches (exec (.ptpEventMessage k f) s) (fun t =>
        t.dict.mgeWait = s.dict.mgeWait ++ [(ptpSession f, f.bytes)] ∧ t.dict.out = s.dict.out ∧ t.r32 (cr 0x4c 0x10) = min (2 ^ 32 - 1) (s.r32 (cr 0x4c 0x10) + 1)))) ∧
    (on → f.outgoing = false → exec (.ptpEventMessage k f) s =
      .next (if s.ptpStamps k then s.modTime (fun t => { t with stamp := some ⟨k, false, s.now, s.frac⟩ }) else s))

-- Resets, start-up and sleep (chapter 16)

/-- Resets and sleep (R364, R374–R386, R433, R448, R450, R454): each reset of the device restarts it with its cause in PILOT_RCAUSE; the watchdog, its warning and
its kick; a rail fault holds the start-up, whether it comes before or after the reset; SYS_RST resets and releases single cores; wake events end pilot-only sleep, and those of a nap wake
the domains that Table BOOT-6 keeps and the store enables (log entry 46), an ICU5 source only where it is deliverable; the pins, which need VIO18 (R455), and the TAP,
which keeps every half-edge DOWN while it disturbs the part (log entry 25).
Where a command's trigger is absent nothing changes: the model's choice, log entry 5.
What a reset leaves outside the spec's lists is the model's reading, log entries 3 and 24. -/
def Obligations.ResetAndSleep : Prop :=
  ∀ (env old : BootEnv) (vio : Bool) (v : Word) (c : Fin 5) (q : SeqId) (n : NapWake) (w : PilotWake) (m : TapMode) (s : State),
    let th := 16 * b2n s.boot.trip
    let keyed : Nat → Prop := fun x => v.toNat = 0x52530000 + x
    let again : Prop := env.otpFault = false ∧ s.lifeField ≤ 1 ∧ s.power.pilotTemp < 100000 ∧ s.imageGood 0 = false ∧ s.imageGood 1 = false
    let lost : Out → Nat → Prop := fun out st => Reaches out (fun t => t.devState = st ∧ (∀ d, d < 33 → t.dom d = 3) ∧ (∀ k, t.core k = Core.reset) ∧
      ∀ a, t.byte a = if nvmBase ≤ a then s.byte a else memDefault a)
    let others : State → Prop := fun t => (∀ k, k ≠ c.val → t.core k = s.core k) ∧ t.devState = s.devState
    let taps : Out → TapMode → Prop := fun out m => Reaches out (fun t => t.boot.tap = m ∧ ∀ e h, e < 4 → h < 2 → (t.half e h).link =
      if m.disturbs = true then .down else if s.boot.tap.disturbs = true ∧ s.bit (sm e 0) h = false then .disabled else (s.half e h).link)
    (Restarts 1 env s (exec (.pilotPowerUp env) s)) ∧ lost (exec .pilotPowerLoss s) stOff ∧
    (s.devState ≠ stOff → s.boot.vio18 = true → s.boot.sleep = false → Restarts (2 + th) env s (exec (.sysrstN env) s)) ∧
    (s.devState = stOff ∨ s.boot.vio18 = false → exec (.sysrstN env) s = .next s) ∧
    (s.devState ≠ stOff → s.devState ≠ stPilot → Reaches (exec (.railFault ⟨vio, env⟩) s) (fun t => Restarted (2 + th) s t ∧ t.devState = stPilot ∧ t.boot.held = some env ∧ t.boot.railsBad = true ∧
      t.boot.vio18 = (s.boot.vio18 && !vio))) ∧
    (s.devState = stOff ∨ s.devState = stPilot → exec (.railFault ⟨vio, env⟩) s = .next (s.modBoot (fun b => { b with railsBad := true, vio18 := b.vio18 && !vio }))) ∧
    (s.boot.railsBad = true → s.boot.vio18 = true → s.devState ≠ stOff → s.boot.sleep = false → Reaches (exec (.sysrstN env) s) (fun t => t.devState = stPilot ∧ t.boot.held = some env)) ∧
    (s.boot.held = none → exec (.railsInWindow env) s = .next (s.modBoot (fun b => { b with railsBad := false, vio18 := true }))) ∧
    (s.boot.held = some old → old.testMode = true → Reaches (exec (.railsInWindow env) s) (fun t => t.devState = s.devState ∧ t.boot.held = some { env with testMode := true } ∧
      t.boot.railsBad = false ∧ t.boot.vio18 = true)) ∧
    (s.boot.held = some old → old.testMode = false → again → Reaches (exec (.railsInWindow env) s) (fun t => t.devState = stBoot ∧ t.boot.held = none ∧ t.boot.rom = true ∧ t.epoch = s.epoch + 1)) ∧
    (s.boot.held ≠ none → s.boot.railsBad = true → exec .railTimeout s = .next (s.setB (cr 1 0) 1)) ∧
    (s.boot.held = none ∨ s.boot.railsBad = false → exec .railTimeout s = .next s) ∧
    (s.wdRuns = true → Restarts (4 + th) env s (exec (.watchdogExpiry env) s) ∧ exec .watchdogWarning s = .next (s.modBoot (fun b => { b with warn := true })) ∧
      (env.testMode = true → Reaches (exec (.watchdogExpiry env) s) (fun t => t.fld (cr 1 0) 7 3 =
        if s.devState = stBoot then (if s.fld (cr 1 0) 8 2 = 3 then 7 else s.fld (cr 1 0) 7 3 + 2) else s.fld (cr 1 0) 7 3))) ∧
    (s.wdRuns = false → exec (.watchdogExpiry env) s = .next s ∧ exec .watchdogWarning s = .next s) ∧
    Reaches (exec (.kick .mgmt v) s) (fun t => t.boot.warn = (if v.toNat / 65536 = 0xA5C3 then false else s.boot.warn) ∧
      t.fld (cr 1 8) 0 5 = (if 10 ≤ v.toNat % 32 ∧ v.toNat % 32 ≤ 20 then v.toNat % 32 else s.fld (cr 1 8) 0 5) ∧ t.cores = s.cores) ∧
    (v.toNat / 65536 = 0x5253 → v.getLsbD 15 = true → Restarts (8 + th) env s (exec (.softwareReset .mgmt v env) s)) ∧
    (v.toNat / 65536 ≠ 0x5253 → exec (.softwareReset .mgmt v env) s = .next s ∧ exec (.sequencerReset .mgmt v) s = .next s ∧ exec (.sequencerRun .mgmt v) s = .next s) ∧
    (keyed (2 ^ c.val) → (s.core c.val).run ≠ .halted → Reaches (exec (.sequencerReset .mgmt v) s) (fun t => t.core c.val = { Core.reset with dfTimes := (s.core c.val).dfTimes } ∧
      t.r32 (sq c.val 0x38) = 0 ∧ t.r32 (sq c.val 0x20) = 0 ∧ t.mem = s.mem ∧ others t)) ∧
    (keyed (2 ^ (10 + c.val)) → (s.core c.val).run = .held → Reaches (exec (.sequencerRun .mgmt v) s) (fun t => t.mem = s.mem ∧ others t ∧
      t.core c.val = { s.core c.val with run := .running, started := false, pc := 0x100, cs := ⟨BitVec.ofNat 40 s.imageBase, 0x200000, true, false, true⟩ })) ∧
    (keyed (2 ^ (10 + c.val)) → (s.core c.val).run ≠ .held → exec (.sequencerRun .mgmt v) s = .next s) ∧
    ((s.core q.val).run = .held ∨ (s.core q.val).started = true → exec (.sequencerStartTimeout q) s = .next s) ∧
    ((s.core q.val).run ≠ .held → (s.core q.val).started = false → s.arr.takeover = none → q.val < 4 → s.bit (cr 7 0x18) 31 = true → s.blocker (act 13 q.val 0) = none →
      Reaches (exec (.sequencerStartTimeout q) s) (fun t => t.arr.takeover.map (·.val) = some q.val ∧ (t.core q.val).run = .held ∧ t.dom (16 + q.val) = 3)) ∧
    ((s.core q.val).run ≠ .held → (s.core q.val).started = false → s.arr.takeover = none → s.bit (cr 7 0x18) 31 = false →
      Reaches (exec (.sequencerStartTimeout q) s) (fun t => t.arr = s.arr ∧ t.cores = s.cores ∧ t.mem = s.mem)) ∧
    (s.boot.sleep = false → exec (.pilotWakeEvent w env) s = .next s) ∧
    (s.boot.sleep = true → (s.bit (cr 1 0x10) 0 = true → Restarts (0x20 + th) env s (exec (.pilotWakeEvent .timeAlarm env) s)) ∧
      (s.boot.vio18 = true → s.bit (cr 1 0x10) 1 = true → Restarts (0x20 + th) env s (exec (.pilotWakeEvent .perstN env) s)) ∧
      (s.boot.vio18 = true → s.bit (cr 1 0x10) 2 = true → Restarts (0x20 + th) env s (exec (.pilotWakeEvent .canRxd env) s)) ∧
      (s.bit (cr 1 0x10) 2 = false → exec (.pilotWakeEvent .canRxd env) s = .next s) ∧ (s.boot.vio18 = true → Restarts (0x22 + th) env s (exec (.pilotWakeEvent .sysrstN env) s))) ∧
    (s.boot.vio18 = false → w ≠ .timeAlarm → exec (.pilotWakeEvent w env) s = .next s) ∧
    (n = .icu5 → s.best 5 (bits (s.core 5).sr.toNat 20 8) = none → exec (.napWake n) s = .next s) ∧
    (s.boot.nap = true → (n = .icu5 → s.best 5 (bits (s.core 5).sr.toNat 20 8) ≠ none) → Reaches (exec (.napWake n) s) (fun t => t.boot.nap = false ∧
      (∀ d, t.dom d = if s.dom d = 3 ∧ ((16 ≤ d ∧ d ≤ 24) ∨ (25 ≤ d ∧ d ≤ 28 ∧ s.storedEnables (d - 25) ≠ 0)) then 0 else s.dom d) ∧
      (t.core 5).run = (if (s.core 5).run = .waiting .wfi then .running else (s.core 5).run) ∧
      (s.dom (16 + c.val) = 3 → (s.core c.val).run = .held → (t.core c.val).run = .running ∧ (t.core c.val).pc = 0x100 ∧ (t.core c.val).cs.base.toNat = s.imageBase))) ∧
    (s.boot.nap = false → exec (.napWake n) s = .next s) ∧
    Reaches (exec (.perstN true) s) (fun t => t.host.perst = true ∧ (∀ p : Fin 2, (t.link p.val).state = .down) ∧ (s.domUp 29 = true → t.bit (cr 0x38 0x1100) 2 = true)) ∧
    (exec (.perstN false) s = .next (s.modHost (fun h => { h with perst := false }))) ∧
    (s.boot.vio18 = true → taps (exec .trstN s) .idcode) ∧ (s.boot.vio18 = false → exec .trstN s = .next s ∧ exec (.extest m) s = .next s) ∧
    (m.disturbs = true → s.boot.railsBad = true → exec (.extest m) s = .next s) ∧
    (s.boot.vio18 = true → (m.disturbs = true → s.boot.railsBad = false) → taps (exec (.extest m) s) m)

-- Security (chapter 17)

/-- Alarms and erasure (R395–R403, R406): a condition is latched and logged once; under SESSION and ALL it takes the device to ALARM, its domains OFF, the
session keys and the key windows erased, and under ALL the marker set; the completed erasure of ALL locks the device; policies are strengthened freely
and never weakened without a grant of the last 10 s, nor below their floor; in OFF no sensor runs, and an unsampled mesh is not driven; key windows stay in staging memory.
Where a command's trigger is absent nothing changes: the model's choice, log entry 5. -/
def Obligations.SecurityMonitor : Prop :=
  ∀ (v : Word) (w : Dword) (k : Fin 4) (src pol : Nat) (level : Bool) (s : State),
    let held : Nat → Prop := fun d => d < 33 ∧ d ≠ 29 ∧ d ≠ 31 ∧ d ≠ 32
    let erasing : Nat → State → Prop := fun lv t => t.devState = (if s.devState = stLocked then stLocked else stAlarm) ∧ (∀ d, held d → t.dom d = 3) ∧
      t.bit secSnuf 30 = true ∧ t.fld secSnuf 28 2 = lv ∧ (s.bit secSnuf 30 = false → t.sec.keyRegs = [] ∧
        (∀ a, a < stagingEnd → s.inKeyWindow a = true → t.byte a = memDefault a) ∧ (lv = 2 → t.sec.marker = true ∧ t.sec.step5 = true))
    let latched : Nat → State → Prop := fun j t => t.bit secAlarm j = true ∧ t.sec.total.toNat = min (s.sec.total.toNat + 1) (2 ^ 32 - 1)
    let alarms : Out → Nat → Prop := fun out j => (s.bit secAlarm j = true → out = .next s) ∧
      (s.bit secAlarm j = false → s.devState ≠ stOff → Reaches out (fun t => latched j t ∧ (s.policy j = 0 ∨ s.testing = true → t.devState = s.devState ∧ t.mem = s.mem ∧ t.cores = s.cores) ∧
        (s.policy j ≠ 0 → s.testing = false → erasing (s.policy j) t)))
    let one : Prop := ∀ j, j < 11 → bits v.toNat (2 * j) 2 = if j = src then pol else s.fld secPol (2 * j) 2
    let win := cr 3 (0x100 + 8 * k.val)
    let fits := (bits w.toNat 0 20 + bits w.toNat 32 20) * 2 ^ 20 ≤ stagingEnd
    (s.devState = stOff → exec .vglitchPilot s = .next s ∧ exec .vglitchCore s = .next s ∧ exec .clkglitch s = .next s ∧ exec .light s = .next s ∧
      exec .tlow s = .next s ∧ exec (.mantleSample level) s = .next s) ∧
    alarms (exec .vglitchPilot s) 2 ∧ alarms (exec .vglitchCore s) 3 ∧ alarms (exec .clkglitch s) 4 ∧ alarms (exec .light s) 5 ∧ alarms (exec .tlow s) 6 ∧
    (s.devState ≠ stOff → s.meshOff = false → level = s.sec.drive → Reaches (exec (.mantleSample level) s) (fun t => t.sec.differed = false ∧ t.creg = s.creg ∧
      t.sec.lfsr.toNat = (s.sec.lfsr.toNat * 2 + (if s.sec.lfsr.getLsbD 14 = s.sec.lfsr.getLsbD 13 then 0 else 1)) % 32768)) ∧
    (s.devState ≠ stOff → s.meshOff = true → exec (.mantleSample level) s = .next (s.modSec (fun x => { x with differed := false, diffs := [] })) ∧
      s.mantleDrv = false ∧ s.mantlePull = none) ∧
    (s.meshOff = false → s.mantleDrv = s.sec.drive ∧ s.mantlePull = some (!s.sec.drive)) ∧
    (s.devState ≠ stOff → s.meshOff = false → level ≠ s.sec.drive → s.sec.differed = true → s.bit secAlarm 0 = false → Reaches (exec (.mantleSample level) s) (latched 0)) ∧
    (s.bit secSnuf 30 = true → Reaches (exec .erasureComplete s) (fun t => t.bit secSnuf 30 = false ∧ t.bit secSnuf 31 = true ∧ t.sec.total.toNat = min (s.sec.total.toNat + 1) (2 ^ 32 - 1) ∧
      (s.sec.step5 = true → t.sec.slots = [] ∧ t.sec.seeds = none ∧ t.sec.marker = false ∧ t.devState = stLocked ∧ ∀ d, held d → t.dom d = 3) ∧
      (s.sec.step5 = false → s.fld secSnuf 28 2 ≠ 2 → t.devState = s.devState ∧ t.sec.slots = s.sec.slots))) ∧
    (s.bit secSnuf 30 = false → exec .erasureComplete s = .next s) ∧
    (v.toNat / 65536 = 0x534E → v.toNat % 4 = 1 ∨ v.toNat % 4 = 2 → s.testing = false → Reaches (exec (.erase .mgmt v) s) (fun t => latched 8 t ∧ erasing (v.toNat % 4) t)) ∧
    (v.toNat / 65536 ≠ 0x534E → exec (.erase .mgmt v) s = .next s) ∧
    (src < 11 → src ≠ 8 → pol < 3 → one → polRank (s.fld secPol (2 * src) 2) < polRank pol → Reaches (exec (.policyWrite .mgmt v) s) (fun t =>
      t.fld secPol (2 * src) 2 = pol ∧ OnlyRegs [secPol] s { t with sec := s.sec })) ∧
    (src < 11 → src ≠ 8 → pol < 3 → one → polRank pol < polRank (s.fld secPol (2 * src) 2) → polRank (bits polFloor (2 * src) 2) ≤ polRank pol →
      ((∀ g, g ∈ s.sec.lower → g.1 = src → g.2.1 = pol → g.2.2 + 10000000000 < s.ran) → Reaches (exec (.policyWrite .mgmt v) s) (fun t =>
        t.bit secStat 31 = true ∧ OnlyRegs [secStat] s { t with sec := s.sec })) ∧
      ((∃ g, g ∈ s.sec.lower ∧ g.1 = src ∧ g.2.1 = pol ∧ s.ran ≤ g.2.2 + 10000000000) → Reaches (exec (.policyWrite .mgmt v) s) (fun t =>
        t.fld secPol (2 * src) 2 = pol ∧ OnlyRegs [secPol] s { t with sec := s.sec }))) ∧
    (src < 11 → src ≠ 8 → pol < 3 → one → polRank pol < polRank (s.fld secPol (2 * src) 2) → polRank pol < polRank (bits polFloor (2 * src) 2) →
      Reaches (exec (.policyWrite .mgmt v) s) (fun t => { t with sec := s.sec } = s)) ∧
    (s.bit secSnuf 30 = false → fits → Reaches (exec (.kwinWrite .mgmt k w) s) (fun t => t.fld win 0 20 = bits w.toNat 0 20 ∧
      t.fld win 32 20 = bits w.toNat 32 20 ∧ t.bit win 63 = w.getLsbD 63 ∧ t.mem = s.mem)) ∧
    (s.bit secSnuf 30 = false → ¬ fits → exec (.kwinWrite .mgmt k w) s = .next (s.setB secStat 31))

/-- Grants, attestation and images (R391–R396, R400, R405, R411): a nonce is issued at most ten times a second; a grant consumes it and is accepted only as R395
states, and then acts by its kind, a lifecycle change ending by what the copies of the field read back; a report takes the next index; SVN_COMMIT and
FW_INSTALL act on images that verify, and an image B that does not verify leaves image A as it was.
An attestation and FW_INSTALL run while later requests are served, and complete, the oldest first, at a step on an empty queue: the model's choice, log entry 19.
Where a command's trigger is absent nothing changes: the model's choice, log entry 5. Which OTP copies fail is free: log entry 2. -/
def Obligations.GrantsAndImages : Prop :=
  ∀ (x : Session) (blob nonce sd : List Byte) (arg till a n : Nat) (ts : List FwTask) (s : State), Hears x s →
    let st := s.devState
    let check := (grantCheck blob s).1
    let sized := 64 ≤ blob.length ∧ blob.length ≤ 65536
    let used : Out → (State → Prop) → Prop := fun out f => Reaches out (fun t => t.sec.nonce = none ∧ Answered x (hdr 0x21 0 0x8002) s t ∧ f t)
    let within : List Nat → Nat := fun l => (l.filter (fun t => decide (s.ran < t + 1000000000))).length
    let src := s.dval 0x1031 1
    let len := min (s.dval 0x1031 2) 0x200000
    let signing := s.dict.tasks.any FwTask.signs
    let b1 := s.setBytes (nvmBase + 0x200000) (s.bytes a n)
    let b2 := b1.setBytes nvmBase (s.bytes a n)
    let copies := (List.range s.sec.life.length).map (fun i => if (Config.otpFails s.free).getLsbD i then s.sec.life.getD i 0 else s.sec.life.getD i 0 ||| BitVec.ofNat 2 arg)
    let good := s.imageGood 0 = true ∧ s.imageGood 1 = true
    (within s.sec.nonceReads < 10 → Reaches (exec (.grantNonce x) s) (fun t => Answered x (hdr 0x12 0 0x8001 ++ toBytes 4 32) s t ∧
      ∃ v, v.length = 32 ∧ t.sec.nonce = some v ∧ (t.sess x).xfer = some ⟨false, 0x8001, 0, 32, v, 0⟩)) ∧
    (10 ≤ within s.sec.nonceReads → Reaches (exec (.grantNonce x) s) (fun t => Denied x 0x8001 0 12 s t ∧ t.sec.nonce = s.sec.nonce)) ∧
    (sized → grantKind blob = 1 → check = some (1, arg, till) → used (exec (.grantSession x blob) s) (fun t =>
      s.ceiling x = 3 → (t.sess x).level3 = some (BitVec.ofNat 64 till))) ∧
    (sized → grantKind blob = 1 → check = none → Reaches (exec (.grantSession x blob) s) (fun t => t.sec.nonce = none ∧ Denied x 0x8002 0 6 s t)) ∧
    (sized → grantKind blob = 2 → st = stLocked → s.life = 1 → s.sec.reenrol = none → check = some (2, arg, till) →
      Reaches (exec (.grantReenrolment x blob) s) (fun t => t.sec.nonce = none ∧ t.sec.reenrol = some x ∧ t.dict.out = s.dict.out)) ∧
    (sized → grantKind blob = 2 → st ≠ stLocked → Reaches (exec (.grantReenrolment x blob) s) (fun t => Denied x 0x8002 0 8 s t ∧ t.sec = s.sec)) ∧
    (sized → grantKind blob = 3 → st = stReady ∨ st = stDegraded → 2 ≤ s.reqLevel x → check = some (3, arg, till) → arg = 1 ∨ arg = 3 →
      lifeRank s.lifeField < lifeRank arg → Reaches (exec (.grantLifecycle x blob) s) (fun t => t.sec.nonce = none ∧ t.sec.life = copies ∧
        if t.lifeField = arg then Answered x (hdr 0x21 0 0x8002) s t else Denied x 0x8002 0 10 s t)) ∧
    (sized → grantKind blob = 4 → check = some (4, arg, till) → used (exec (.grantPolicy x blob) s) (fun t =>
      t.sec.lower = (arg / 4, arg % 4, s.ran) :: s.sec.lower ∧ t.r32 secPol = s.r32 secPol)) ∧
    (s.sec.reenrol = some x → Reaches (exec .reenrolmentComplete s) (fun t => t.sec.reenrol = none ∧ t.sec.enrol = s.sec.enrol + 1 ∧ t.sec.next = 0 ∧ t.sec.high = 0 ∧
      t.sec.oldLogs = s.sec.oldLogs ++ [s.sec.log] ∧ t.sec.log = [] ∧ t.fld secAlarm 0 11 = 0 ∧ Answered x (hdr 0x21 0 0x8002) s t)) ∧
    (s.sec.reenrol = none → exec .reenrolmentComplete s = .next s) ∧
    (1 ≤ s.reqLevel x → st ≠ stLocked → s.life = 1 → s.sec.seeds = some sd → nonce.length = 32 → s.sec.next < 2 ^ 40 →
      (signing = false → within s.sec.attests < 10 → Reaches (exec (.attestation x nonce) s) (fun t => t.dict.tasks = s.dict.tasks ++ [.attest x nonce] ∧
        t.dict.out = s.dict.out ∧ t.sec.next = s.sec.next ∧ t.mem = s.mem)) ∧
      (signing = true → Reaches (exec (.attestation x nonce) s) (fun t => Denied x 0x8005 1 9 s t ∧ t.dict.tasks = s.dict.tasks ∧ t.sec = s.sec)) ∧
      (signing = false → 10 ≤ within s.sec.attests → Reaches (exec (.attestation x nonce) s) (fun t => Denied x 0x8005 1 12 s t ∧ t.dict.tasks = s.dict.tasks ∧ t.sec = s.sec))) ∧
    (s.dict.tasks = .attest x nonce :: ts → nonce.length = 32 →
      Reaches (.next (fwTurn s)) (fun t => t.dict.tasks = ts ∧ t.sec.next = s.sec.next + 1 ∧ t.sec.high = (if s.sec.next = s.sec.high then s.sec.high + 1024 else s.sec.high) ∧
        Answered x (hdr 0x21 1 0x8005) s t ∧ (t.sess x).report.length = 10149 ∧ (t.sess x).report.take 4 = toBytes 4 0x54414E5A ∧ ((t.sess x).report.drop 40).take 40 = toBytes 8 s.sec.next ++ nonce)) ∧
    (Operator x s → s.blocker (act 12 0 0) = none → good → Reaches (exec (.svnCommit x 0) s) (fun t => t.mem = s.mem ∧ Answered x (hdr 0x21 4 0x1030) s t ∧
      t.sec.svn = max s.sec.svn (min (s.num (nvmBase + 0xC) 1) (s.num (nvmBase + 0x20000C) 1)))) ∧
    (Operator x s → s.blocker (act 12 0 0) = none → ¬ good → Reaches (exec (.svnCommit x 0) s) (fun t => t.sec = s.sec ∧ Denied x 0x1030 4 6 s t)) ∧
    (Operator x s → regionOk src len = true → s.blocker (act 11 0 0) = none → Reaches (exec (.fwInstall x 0) s) (fun t => t.dict.tasks = s.dict.tasks ++ [.install x src len] ∧
      act 11 0 0 ∈ t.acts ∧ t.dict.out = s.dict.out ∧ t.mem = s.mem)) ∧
    (Operator x s → regionOk src len = true → (s.blocker (act 11 0 0)).isSome = true → Reaches (exec (.fwInstall x 0) s) (fun t => Denied x 0x1030 5 9 s t ∧ t.dict.tasks = s.dict.tasks ∧ t.mem = s.mem)) ∧
    (Operator x s → regionOk src len = false → Reaches (exec (.fwInstall x 0) s) (fun t => t.mem = s.mem ∧ Denied x 0x1030 5 6 s t ∧ t.dict.tasks = s.dict.tasks)) ∧
    (s.dict.tasks = .install x a n :: ts → n ≤ 0x200000 → SoundAt (7, 0) a n s → b1.installed 1 n = false → Reaches (.next (fwTurn s)) (fun t => t.dict.tasks = ts ∧ Denied x 0x1030 5 6 s t ∧
      act 11 0 0 ∉ t.acts ∧ ∀ k, k < 0x200000 → t.byte (nvmBase + k) = s.byte (nvmBase + k))) ∧
    (s.dict.tasks = .install x a n :: ts → n ≤ 0x200000 → SoundAt (7, 0) a n s → b1.installed 1 n = true → b2.installed 0 n = true → Reaches (.next (fwTurn s)) (fun t =>
      t.dict.tasks = ts ∧ Answered x (hdr 0x21 5 0x1030) s t ∧ act 11 0 0 ∉ t.acts ∧
      ∀ k, k < n → t.byte (nvmBase + k) = s.byte (a + k) ∧ t.byte (nvmBase + 0x200000 + k) = s.byte (a + k))) ∧
    (s.pending = [] → step s = .next (designTurn s.ran (canTurn (fwTurn (tick s))))) ∧
    (s.dict.tasks = [] → fwTurn s = s)

-- The dictionary (chapter 18)

/-- Requests and commands of the dictionary (R407–R429): a read answers the value of its entry; a write takes effect, or is refused with the first code of
Table DICT-5; transfers go segment by segment and are discarded; the mailbox answers a new REQSEQ; STORE, RESTORE, RESET, NAP, sleep, SEQ_RESET,
LOGOUT and FAB_CLEAR.
Where a command's trigger is absent nothing changes: the model's choice, log entry 5.
A request is served and answered in one command, and what follows its response waits until that has left its port: the model's choices, log entry 19. In a nap a
domain turns OFF as Table PWR-1 lets it drain: log entry 46. Whether a copy of the store verifies is free: log entry 2. -/
def Obligations.NazenRequests : Prop :=
  ∀ (x : Session) (i n : BitVec 16) (sub : Byte) (e : DEntry) (z code : Nat) (v d : List Byte) (len : Word) (w : DictXfer) (f : FnId) (env : BootEnv) (s : State),
    let room := msgLen x - 4
    let total := (w.len + room - 1) / room
    let got := w.data ++ d.take (min room (w.len - w.data.length))
    let open_ : Prop := Hears x s ∧ (s.sess x).xfer = some w
    let box := slotAddr f.val
    let polled : Prop := s.served (.mailbox f) = true ∧ s.boot.nap = false ∧ (s.bank 3).newOwner = none ∧ s.bankPwr 3 = 0 ∧ (s.bank 3).test = none ∧ s.flaw = [] ∧
      s.owns 3 .mgmt = true ∧ s.isolatedFor .mgmt 0 box = false ∧ s.dom 31 = 0 ∧ QuietRings .mgmt s
    let stored : Nat → (Nat × Nat → Nat) → State → Prop := fun i val t =>
      if Config.storeFails s.free then t.dict.copyA.gen = s.dict.copyA.gen ∧ t.dict.copyB.gen = s.dict.copyB.gen ∧ t.dict.result = 10 ∧ Denied x i 0 10 s t ∧
        (if s.dict.copyA.gen ≤ s.dict.copyB.gen then t.dict.copyB = s.dict.copyB ∧ t.dict.copyA.ok = false else t.dict.copyA = s.dict.copyA ∧ t.dict.copyB.ok = false)
      else max t.dict.copyA.gen t.dict.copyB.gen = max s.dict.copyA.gen s.dict.copyB.gen + 1 ∧
        t.dict.result = 0 ∧ Answered x (hdr 0x21 0 i) s t ∧ ∀ k, k ∈ storedKeys → t.storeCopy.value t k = val k % 2 ^ 64
    let held : Nat → Prop := fun d => d < 33 ∧ d ≠ 29 ∧ d ≠ 31 ∧ d ≠ 32
    let leaves_ : Prop := s.dict.canWait = [] ∧ s.dict.mgeWait = [] ∧ s.canRoom = true ∧ s.mgeRoom (frameBytes (x, hdr 0x21 0 0)) = true
    let queued : Prop := s.dict.canWait ≠ [] ∧ ∃ k g, x = .can k g ∧ g.dest ≠ 0
    (Hears x s → checkRead x i.toNat sub.toNat s = (0, e) → e.size = some z → z ≤ room → i ≠ 0x8005 → i ≠ 0x9001 → Reaches (exec (.read x i sub) s) (fun t =>
      Answered x (hdr 0x11 sub.toNat i.toNat ++ toBytes z (entryVal (s.reqLevel x) i.toNat sub.toNat s)) s t ∧ t.mem = s.mem ∧ t.cores = s.cores ∧ t.arr = s.arr)) ∧
    (Hears x s → checkRead x i.toNat sub.toNat s = (code, e) → code ≠ 0 → Reaches (exec (.read x i sub) s) (Denied x i.toNat sub.toNat code s)) ∧
    (Hears x s → checkWrite x i.toNat sub.toNat (ofBytes (v.take 4)) s = (code, e) → code ≠ 0 → Reaches (exec (.write x i sub v) s) (fun t =>
      Denied x i.toNat sub.toNat code s t ∧ t.mem = s.mem ∧ t.dict.vals = s.dict.vals)) ∧
    (Operator x s → v.length = 4 → Reaches (exec (.write x 0x1031 2 v) s) (fun t => t.dval 0x1031 2 = ofBytes v ∧ Answered x (hdr 0x21 2 0x1031) s t)) ∧
    (Operator x s → leaves_ → v.length = 1 → 1 ≤ ofBytes v → ofBytes v ≤ 126 → s.fld (cr 0x4d 0) 8 4 < 4 → s.fld (cr 0x4d 0) 12 4 < 5 → Reaches (exec (.write x 0x1100 0 v) s) (fun t =>
      t.fld (cr 0x4d 0) 0 7 = ofBytes v ∧ Answered x (hdr 0x21 0 0x1100) s t)) ∧
    (segOk x n.toNat = false → exec (.uploadReq x n) s = .next s ∧ exec (.downloadSeg x n d) s = .next s) ∧
    (open_ → segOk x n.toNat = true → (w.down = true → Reaches (exec (.uploadReq x n) s) (fun t => Denied x 0 0 13 s t ∧ (t.sess x).xfer = some w)) ∧
      (w.down = false → Reaches (exec (.downloadSeg x n d) s) (fun t => Denied x 0 0 13 s t ∧ (t.sess x).xfer = some w))) ∧
    (open_ → segOk x n.toNat = true → w.down = false → total = n.toNat + 1 → Reaches (exec (.uploadReq x n) s) (Answered x (hdr 0x14 0 n.toNat ++ (w.data.drop (n.toNat * room)).take room) s)) ∧
    (Hears x s → segOk x n.toNat = true → (s.sess x).xfer = none → Reaches (exec (.uploadReq x n) s) (Denied x 0 0 13 s) ∧ Reaches (exec (.downloadSeg x n d) s) (Denied x 0 0 13 s)) ∧
    (Hears x s → checkWrite x i.toNat sub.toNat (2 ^ 32 - 1) s = (0, e) → lenOk e i.toNat len.toNat = true → Reaches (exec (.downloadInit x i sub len) s) (fun t =>
      (t.sess x).xfer = some ⟨true, i, sub, len.toNat, [], 0⟩ ∧ Answered x (hdr 0x23 0 0) s t)) ∧
    (open_ → segOk x n.toNat = true → w.down = true → n.toNat = w.seg % 65536 → got.length < w.len → Reaches (exec (.downloadSeg x n d) s) (fun t =>
      (t.sess x).xfer = some { w with data := got, seg := w.seg + 1 })) ∧
    (open_ → segOk x n.toNat = true → w.down = true → n.toNat ≠ w.seg % 65536 → Reaches (exec (.downloadSeg x n d) s) (fun t => (t.sess x).xfer = some w ∧ Answered x (hdr 0x23 0 w.seg) s t)) ∧
    (open_ → segOk x n.toNat = true → Operator x s → w.down = true → n.toNat = w.seg % 65536 → w.index = 0x1031 → w.sub = 2 → w.len = 4 → got.length = 4 → Reaches (exec (.downloadSeg x n d) s) (fun t =>
      (t.sess x).xfer = none ∧ t.dval 0x1031 2 = ofBytes got)) ∧
    (Hears x s → Reaches (exec (.abort x n) s) (fun t => (t.sess x).xfer = none ∧ t.mem = s.mem ∧ t.dict.out = s.dict.out)) ∧
    ((s.sess x).xfer = some w → (s.sess x).last + 1000000000 ≤ s.ran → Reaches (exec (.transferTimeout x) s) (fun t => (t.sess x).xfer = none ∧ t.creg = s.creg)) ∧
    (s.ran < (s.sess x).last + 1000000000 → exec (.transferTimeout x) s = .next s) ∧
    (polled → s.num box 4 = (tget (konst 0) s.dict.served f.val).toNat → exec (.mailboxPoll f) s = .next s) ∧
    (polled → s.num box 4 ≠ (tget (konst 0) s.dict.served f.val).toNat → s.num (box + 0x40) 4 = 0x10200010 → Reaches (exec (.mailboxPoll f) s) (fun t =>
      t.bytes (box + 0xC0) 64 = pad 64 (hdr 0x11 0 0x1020 ++ [BitVec.ofNat 8 s.devState]) ∧ t.num (box + 0x80) 8 = s.num box 4 ∧
      t.bytes (box + 0x88) 56 = List.replicate 56 0)) ∧
    (s.boot.fw = true → s.domUp 32 = true → s.dval 0x1101 3 ≠ 0 → s.bit (cr 0x4d 0) 31 = true →
      Reaches (exec .heartbeat s) (Sent (.can 0 heartbeatFrame) (toBytes 4 s.devState ++ toBytes 8 s.now.toNat) s)) ∧
    (s.dval 0x1101 3 = 0 → exec .heartbeat s = .next s) ∧
    (Operator x s → s.blocker (act 9 0 0) = none → Reaches (exec (.store x 0x53544F52) s) (stored 0x1010 (fun k => entryVal 2 k.1 k.2 s))) ∧
    (Operator x s → s.blocker (act 9 0 0) = none → Reaches (exec (.restoreDefaults x 0x44464C54) s) (stored 0x1011 (fun k => s.entryDefault k.1 k.2))) ∧
    (Operator x s → len ≠ 0x53544F52 → Reaches (exec (.store x len) s) (fun t => Denied x 0x1010 0 6 s t ∧ t.dict.copyA = s.dict.copyA ∧ t.dict.copyB = s.dict.copyB)) ∧
    (Operator x s → leaves_ → Restarts (8 + 16 * b2n s.boot.trip) env s (exec (.reset x 0x5253 env) s)) ∧
    (Operator x s → queued → Reaches (exec (.reset x 0x5253 env) s) (fun t => t.dict.due = s.dict.due ++ [(.can, s.dict.canWait.length + 1, .reset env)] ∧ t.boot = s.boot ∧
      t.devState = s.devState ∧ t.cores = s.cores)) ∧
    (Operator x s → leaves_ → s.devState ≠ stRun → Reaches (exec (.nap x 0) s) (fun t => t.boot.nap = true ∧ Answered x (hdr 0x21 2 0x1030) s t ∧
      (∀ b, b < 63 → s.bankPwr b = 0 → t.bankPwr b = 1) ∧ (∀ d, held d → t.dom d = 3 ∨ t.dom d = s.dom d) ∧ (∀ d, d < 21 → s.mayDrain d = true → t.dom d = 3) ∧
      ((∀ k, k < 4 → s.xfer k = none) → s.packets = [] → t.mem = s.mem ∧ ∀ d, 21 ≤ d → d < 25 → s.mayDrain d = true → t.dom d = 3) ∧
      (s.boot.tap.disturbs = false → ∀ d, 25 ≤ d → d < 29 → t.dom d = 3) ∧ t.dom 30 = 3 ∧ t.fab.frames = [])) ∧
    (Operator x s → s.devState = stRun → Reaches (exec (.nap x 0) s) (fun t => Denied x 0x1030 2 8 s t ∧ t.boot = s.boot)) ∧
    (Operator x s → leaves_ → s.devState ≠ stRun → s.linkAwake = false → Reaches (exec (.pilotSleep x 0) s) (fun t => t.boot.sleep = true ∧ t.boot.railsEn = false ∧
      t.devState = stPilot ∧ (∀ d, d < 33 → t.dom d = 3) ∧ ∀ a, nvmBase ≤ a → t.byte a = s.byte a)) ∧
    (Operator x s → s.devState ≠ stRun → s.linkAwake = true → Reaches (exec (.pilotSleep x 0) s) (fun t => Denied x 0x1030 3 8 s t ∧ t.boot = s.boot)) ∧
    (Operator x s → len.toNat ≤ 4 → (s.core len.toNat).run ≠ .halted → Reaches (exec (.seqReset x len) s) (fun t => Answered x (hdr 0x21 7 0x1030) s t ∧ t.mem = s.mem ∧
      t.core len.toNat = { Core.reset with dfTimes := (s.core len.toNat).dfTimes, run := .running, started := false, pc := 0x100,
                                           cs := ⟨BitVec.ofNat 40 s.imageBase, 0x200000, true, false, true⟩ })) ∧
    (Hears x s → Reaches (exec (.logout x 0) s) (fun t => (t.sess x).level3 = none ∧ Answered x (hdr 0x21 8 0x1030) s t)) ∧
    (Operator x s → s.fab.cur = none → s.fab.waiting = [] → Reaches (exec (.fabClear x 0) s) (fun t => t.fabState = 0 ∧ t.fab.frames = [] ∧ Answered x (hdr 0x21 9 0x1030) s t)) ∧
    (Operator x s → room = 60 → s.dval 0x9001 1 = 0x4200000018 → s.bit (cr 0x40 0x11c) 3 = false → QuietRings .mgmt s → Reaches (exec (.registerDataRead x) s)
      (Answered x (hdr 0x11 2 0x9001 ++ toBytes 8 (s.r64 (cr 0 0x18))) s)) ∧
    (Operator x s → s.dval 0x9001 1 < 0x4200000000 → Reaches (exec (.registerDataRead x) s) (Denied x 0x9001 2 6 s))

/-- Maintenance, ports and logs (R15, R29, R214, R413, R418–R421, R430, R436–R441): each activity of index 0x7100 starts, or is refused and recorded where the
admission table forbids it; frames wait for their ceiling; logs, repair maps and single registers are written.
Where a command's trigger is absent nothing changes: the model's choice, log entry 5. What followed a response that waited, and the frames of ARP, are the model's:
log entry 19; which request of the network came is free: log entry 2. -/
def Obligations.ManagementAndMaintenance : Prop :=
  ∀ (x : Session) (v : Word) (q : Nat) (up : Bool) (m : Session × List Byte) (ms : List (Session × List Byte)) (er : ErrEntry) (ers : List ErrEntry)
    (r : RepairRec) (rs : List RepairRec) (sq_ : SeqId) (c : CoreId) (b : Activity) (bytes : List Byte) (fragment : Bool) (mac : BitVec 48)
    (ip target : BitVec 32) (s : State),
    let tile := bits v.toNat 24 6
    let cl := bits v.toNat 16 7
    let col := bits v.toNat 0 9
    let pc := s.physOf tile cl
    let edge := bits v.toNat 16 2
    let lane := bits v.toNat 0 6
    let net := bits v.toNat 24 2
    let bank := v.toNat
    let starts : Out → Nat → (State → Prop) → Prop := fun out sub f => Reaches out (fun t => Answered x (hdr 0x21 sub 0x7100) s t ∧ f t)
    let reg : BitVec 40 := 0x4200060008
    let stat : BitVec 40 := 0x4200060020
    let none_ : Prop := ∀ d, d ∈ s.dict.due → 1 < d.2.1
    let listed : List Byte → Prop := fun l => l.headD 0 ∈ [0x10, 0x13, 0x20, 0x22, 0x24, 0x7F] ∧ (l.headD 0 ∈ [0x13, 0x24] → l.getD 1 0 = 0)
    let counted : Nat → State → Prop := fun k t => tget (konst 0) t.dict.malformed k = tget (konst 0) s.dict.malformed k + 1 ∧ t.creg = s.creg ∧ t.dict.out = s.dict.out
    let lost := fragment = true ∨ bytes.length < 8 ∨ 68 < bytes.length ∨ bytes.take 2 ≠ [0x5A, 0x4E]
    (Operator x s → cl < 64 → col < 288 → s.blocker (act 1 pc v.toNat) = none → (s.freeCols pc).head? = some q → starts (exec (.maintColumnMigration x v) s) 1 (fun t =>
      t.arr.migrations = s.arr.migrations ++ [⟨pc, col, s.physCol pc col, q, 0, none, false⟩])) ∧
    (Operator x s → cl < 64 → col < 288 → s.freeCols pc ≠ [] → s.blocker (act 1 pc v.toNat) = some b → Reaches (exec (.maintColumnMigration x v) s) (fun t =>
      Denied x 0x7100 1 9 s t ∧ t.arr = s.arr ∧ t.bit (cr 7 8) 63 = true)) ∧
    (Operator x s → cl < 64 → s.blocker (act 2 pc v.toNat) = none → s.canSubst pc = true → s.freeCluster tile = some q →
      starts (exec (.maintClusterSubstitution x v) s) 2 (fun t => t.arr.substs = s.arr.substs ++ [⟨tile, cl, q, 0, none, false⟩])) ∧
    (Operator x s → lane < 34 → s.laneState edge lane < 2 → s.blocker (act 5 edge v.toNat) = none →
      starts (exec (.maintLaneRetrain x v) s) 3 (fun t => t.laneState edge lane = 3)) ∧
    (Operator x s → lane < 34 → s.laneState edge lane < 2 → s.blocker (act 5 edge v.toNat) = none →
      starts (exec (.maintLaneRetirement x v) s) 4 (fun t => t.laneState edge lane = 2)) ∧
    (Operator x s → bits v.toNat 20 2 < ringsOf net → s.fbusy net = false → s.rbusy net = false → s.blocker (act 8 net v.toNat) = none →
      starts (exec (.maintRingSegmentRetirement x v) s) 5 (fun t => t.fbusy net = true ∧ t.rbusy net = true)) ∧
    (Operator x s → bank < 64 → s.bit (bk bank 0x20) 31 = true → s.bankPwr bank = 0 → s.bankPend bank = false → (s.bank bank).test = none → s.blocker (act 3 bank bank) = none →
      starts (exec (.maintBankRowTest x v) s) 6 (fun t => (t.bank bank).test.isSome = true ∧ t.bit (bk bank 0x10) 25 = true)) ∧
    (none_ → s.dict.canWait = m :: ms → s.canRoom = true → Reaches (exec (.transmitCeilingRelease .can) s) (fun t => t.dict.out = s.dict.out ++ [m] ∧ t.dict.canWait = ms)) ∧
    (s.dict.due = [(.can, 1, .sleep)] → s.dict.canWait = [m] → s.canRoom = true → Reaches (exec (.transmitCeilingRelease .can) s) (fun t => t.dict.out = s.dict.out ++ [m] ∧
      t.boot.sleep = true ∧ t.dict.due = [])) ∧
    (none_ → s.dict.mgeWait = m :: ms → s.mgeRoom (frameBytes m) = true → Reaches (exec (.transmitCeilingRelease .mge) s) (fun t => t.dict.out = s.dict.out ++ [(mgeLeave m s).1] ∧ t.dict.mgeWait = ms)) ∧
    (s.dict.canWait = m :: ms → s.canRoom = false → exec (.transmitCeilingRelease .can) s = .next s) ∧
    Reaches (exec .busOff s) (fun t => t.bit (cr 0x4d 8) 31 = true ∧ t.fld (cr 0x4d 8) 8 8 = 0 ∧ t.fld (cr 0x4d 8) 0 8 = 0 ∧ t.bit (cr 0x4d 8) 29 = false ∧ OnlyRegs [cr 0x4d 8] s t) ∧
    Reaches (exec (.mgeLinkChange up) s) (fun t => t.bit (cr 0x4c 8) 31 = up ∧ (s.bit (cr 0x4c 8) 31 ≠ up → t.bit (cr 0x4c 8) 30 = true) ∧ OnlyRegs [cr 0x4c 8] s t) ∧
    (¬ listed bytes → Reaches (exec (.malformedMessage ⟨.mailbox, bytes, fragment⟩) s) (counted 0) ∧
      (s.bit (cr 0x4d 0) 31 = true → Reaches (exec (.malformedMessage ⟨.can, bytes, fragment⟩) s) (counted 1))) ∧
    (listed bytes → exec (.malformedMessage ⟨.mailbox, bytes, fragment⟩) s = .next s ∧ exec (.malformedMessage ⟨.can, bytes, fragment⟩) s = .next s) ∧
    (s.bit (cr 0x4c 0) 31 = true → (lost → Reaches (exec (.malformedMessage ⟨.mge, bytes, fragment⟩) s) (fun t => t.dict = s.dict ∧ OnlyRegs [cr 0x4c 8] s t ∧
        t.fld (cr 0x4c 8) 0 16 = min (s.fld (cr 0x4c 8) 0 16 + 1) 65535)) ∧
      (¬ lost → ¬ listed (bytes.drop 4) → Reaches (exec (.malformedMessage ⟨.mge, bytes, fragment⟩) s) (counted 2)) ∧
      (¬ lost → listed (bytes.drop 4) → exec (.malformedMessage ⟨.mge, bytes, fragment⟩) s = .next s)) ∧
    (s.boot.fw = true → s.domUp 32 = true → s.bit (cr 0x4c 0) 31 = true →
      exec .arpNdIcmpEcho s = .next (answerProbe (Config.netProbe s.free) s.draw)) ∧
    (s.bit (cr 0x4c 0) 31 = true → s.bit (cr 0x4c 0) 25 = true → s.dval 0x1110 2 = target.toNat → target ≠ 0 →
      Sent (.net .arp (0xffff#96 ++ ip))
        ([0, 1, 8, 0, 6, 4, 0, 2] ++ (toBytes 6 mgeMac).reverse ++ (toBytes 4 target.toNat).reverse ++ (toBytes 6 mac.toNat).reverse ++ (toBytes 4 ip.toNat).reverse) s
        (answerProbe (.arp mac ip target) s)) ∧
    (s.bit (cr 0x4c 0) 31 = false → exec .arpNdIcmpEcho s = .next s ∧ exec (.malformedMessage ⟨.mge, bytes, fragment⟩) s = .next s) ∧
    (exec (.errlogPop .mgmt 1) s = .next { s with errlog := s.errlog.tail }) ∧
    (s.flogDue = er :: ers → s.boot.fw = true → s.domUp 32 = true → Reaches (exec .faultLogWrite s) (fun t => t.flogDue = ers ∧
      t.bytes (flogSlot (flogNext s.flogTotal)) 32 = toBytes 32 er.word ∧ t.num (flogSlot 0) 8 = (s.flogTotal + 1) % 2 ^ 64 ∧
      ∀ a, a < flogSlot 0 ∨ flogSlot 16384 ≤ a → t.byte a = s.byte a)) ∧
    (s.writerHeld = true → s.mapDue = r :: rs → Reaches (exec .nvmSliceBoundary s) (fun t => t.mapDue = rs ∧ t.maps = s.maps ++ [r] ∧
      t.acts = if rs = [] then s.acts.filter (fun a => !(a.kind == 10 && a.unit == 0)) else s.acts)) ∧
    (s.writerHeld = false → exec .nvmSliceBoundary s = .next s) ∧
    (s.isolatedFor .mgmt 0 reg.toNat = false → QuietRings .mgmt s → Reaches (exec (.registerWrite .mgmt reg .b4 (BitVec.ofNat 64 v.toNat)) s) (fun t => t.r32 (cr 6 8) = v.toNat ∧
      tget (konst none) t.resps (respKey .mgmt) = some ⟨0, .ok, []⟩)) ∧
    (c ≠ 5 → s.isolatedFor (.core c) 0 reg.toNat = false → QuietRings (.core c) s → Reaches (exec (.registerWrite (.core c) reg .b4 (BitVec.ofNat 64 v.toNat)) s) (fun t => t.r32 (cr 6 8) = s.r32 (cr 6 8) ∧
      tget (konst none) t.resps (respKey (.core c)) = some ⟨0, .unmapped, []⟩)) ∧
    (s.isolatedFor .mgmt 0 stat.toNat = false → QuietRings .mgmt s → Reaches (exec (.registerWrite .mgmt stat .b4 0x80000000) s) (fun t => t.bit (cr 6 0x20) 31 = false ∧
      ∀ k, k < 31 → t.bit (cr 6 0x20) k = s.bit (cr 6 0x20) k)) ∧
    Reaches (exec (.slockWrite .mgmt sq_ v) s) (fun t => t.fld (sq sq_.val 0x20) 0 6 = bits v.toNat 0 6 ∧ OnlyRegs [sq sq_.val 0x20] s t) ∧
    (c.val = sq_.val → Reaches (exec (.slockWrite (.core c) sq_ v) s) (fun t => OnlyRegs [sq sq_.val 0x20] s t ∧
      ∀ k, k < 6 → t.bit (sq sq_.val 0x20) k = (s.bit (sq sq_.val 0x20) k || v.getLsbD k))) ∧
    (c.val ≠ sq_.val → c ≠ 5 → Reaches (exec (.slockWrite (.core c) sq_ v) s) (fun t => t.r32 (sq sq_.val 0x20) = s.r32 (sq sq_.val 0x20)))

-- The seam message router (chapter 13)

/-- Seam messages (R310–R318): a well-formed transmit entry is numbered, kept in the retry store and injected; a head goes out on the edge its table names with
one hop less, or is dropped or answered; a message is delivered in the order of its pair, acknowledged, and freed or resent, one cut short being
asked for again, one that the router cannot store yet staying at the front of its VC; tables flip, edges leave and return, what an edge's wormholes leave ending
in a poisoned tail.
How many messages the router holds is the model's reading, log entry 46.
Where a command's trigger is absent nothing changes: the model's choice, log entry 5. -/
def Obligations.SeamMessages : Prop :=
  ∀ (c : CoreId) (e : EdgeId) (m : SeamMsg) (x : SeamMsg) (k : Nat) (a b : List (SeamMsg × Nat)) (d : BitVec 16) (n : BitVec 16) (v : Word)
    (es : BitVec 4) (out : Nat) (by_ : Activity) (s : State),
    let stat := srt 0x28
    let flip : Activity := ⟨6, s.diffEdges.headD 64, s.diffEdges.tail, 0⟩
    let ttl := BitVec.ofNat 16 (s.fld (srt 8) 16 9)
    let entry := s.bytes (s.ringBase 0x30 + s.txHead * 512) 512
    let tx := s.srtOn = true ∧ s.ringLog 0x30 ≠ 0 ∧ s.txHead ≠ s.txTail % s.ringLen 0x30 ∧ s.router.store.length < 256 ∧ SoundAt routerPort (s.ringBase 0x30 + s.txHead * 512) 512 s
    let dest := (s.txMsg entry).dest.toNat
    let ready := s.srtOn = true ∧ s.ringLog 0x38 ≠ 0 ∧ m.mt = 0 ∧ m.data.length = m.len.toNat
    let slot := s.ringBase 0x38 + s.rxTail * 512
    let behind := ∃ y, y ∈ s.router.held ∧ y.src = m.src
    let x0 := s.half e.val 0
    let stands := s.bit stat 28 = false ∧ (msgFlits m).isPrefixOf x0.rxM0 = true ∧ (msgFlits m).isPrefixOf x0.rxM1 = false
    let head := s.router.inject.head? = some m ∧ s.bit stat 28 = false ∧ m.dest.toNat ≠ s.ownAddr
    let injects : State → List SeamMsg → Prop := fun t ms => t.router.inject = s.router.inject ++ ms
    let failed : State → Nat → SeamMsg → Prop := fun t why y => t.r64 (srt 0x48) = 2 ^ 63 + why * 2 ^ 56 + y.eseq.toNat * 65536 + y.dest.toNat ∧ t.bit stat 29 = true
    let oldest := s.router.store = a ++ (x, k) :: b ∧ x.dest = m.src ∧ ∀ y, y ∈ a → y.1.dest ≠ m.src
    let resent : Out → Prop := fun out => Reaches out (fun t => injects t ((s.router.store.filter (fun y => y.1.dest == d)).map (·.1)) ∧
      t.router.store = s.router.store.map (fun y => if y.1.dest = d then (y.1, y.2 + 1) else y) ∧ t.creg = s.creg)
    (s.srtOn = false → Reaches (exec (.srtAddrWrite .mgmt v) s) (fun t => t.ownAddr = v.toNat % 65536 ∧ OnlyRegs [srt 0] s t)) ∧
    (s.srtOn = true → exec (.srtAddrWrite .mgmt v) s = .next (s.setB stat 30)) ∧
    (tx → s.txOk entry = true → Reaches (exec .messageSend s) (fun t => t.txHead = (s.txHead + 1) % s.ringLen 0x30 ∧ injects t [s.txMsg entry] ∧
      t.router.store = s.router.store ++ [(s.txMsg entry, 0)] ∧ (t.pair dest).send = (s.pair dest).send + 1 ∧ t.mem = s.mem)) ∧
    (tx → s.txOk entry = false → Reaches (exec .messageSend s) (fun t => t.txHead = (s.txHead + 1) % s.ringLen 0x30 ∧ t.router = s.router ∧ t.bit stat 29 = true)) ∧
    (head → s.outEdge m = some out → m.ttl ≠ 0 → Reaches (exec (.headFlitRoute none m) s) (fun t => t.router.inject = s.router.inject.tail ∧
      t.half out 0 = (msgFlits { m with ttl := m.ttl - 1 }).foldl (fun h f => h.send (.msg (s.dateline out) f.1 f.2.1 f.2.2)) (s.half out 0))) ∧
    (head → s.outEdge m = some out → m.ttl = 0 → Reaches (exec (.headFlitRoute none m) s) (fun t => t.router.inject = s.router.inject.tail ∧ t.halves = s.halves ∧
      t.fld stat 0 16 = min (s.fld stat 0 16 + 1) 65535)) ∧
    (head → s.outEdge m = none → m.mt = 0 → Reaches (exec (.headFlitRoute none m) s) (fun t => t.halves = s.halves ∧
      t.router.inject = s.router.inject.tail ++ [⟨m.src, m.dest, 0, s.epoch, 0, 0, ttl, 1, 3, []⟩])) ∧
    (stands → m.dest.toNat ≠ s.ownAddr → s.outEdge m = some out → out ≠ e.val → m.ttl ≠ 0 → Reaches (exec (.headFlitRoute (some e) m) s) (fun t =>
      t.half e.val 0 = { x0 with rxM0 := x0.rxM0.drop (msgFlits m).length, frM0 := x0.frM0 + BitVec.ofNat 8 (msgFlits m).length } ∧
      t.half out 0 = (msgFlits { m with ttl := m.ttl - 1 }).foldl (fun h f => h.send (.msg (s.dateline out) f.1 f.2.1 f.2.2)) (s.half out 0) ∧ t.router = s.router)) ∧
    (stands → m.dest.toNat = s.ownAddr → s.holds m = true → exec (.headFlitRoute (some e) m) s = .next s) ∧
    ((msgFlits m).isPrefixOf x0.rxM0 = false → (msgFlits m).isPrefixOf x0.rxM1 = false → exec (.headFlitRoute (some e) m) s = .next s) ∧
    (ready → ¬ behind → (s.pair m.src.toNat).recv = none → s.rxFull = false → SoundAt routerPort slot (16 + m.data.length) s → Reaches (exec (.messageDelivery m) s) (fun t =>
      t.bytes slot (16 + m.data.length) = toBytes 2 m.src.toNat ++ toBytes 2 m.len.toNat ++ toBytes 1 m.kind.toNat ++ toBytes 3 0 ++ toBytes 8 s.now.toNat ++ m.data ∧
      t.rxTail = (s.rxTail + 1) % s.ringLen 0x38 ∧ (t.pair m.src.toNat).recv = some (m.eseq + 1, m.epoch) ∧
      injects t [⟨m.src, BitVec.ofNat 16 s.ownAddr, 0, s.epoch, 0, 0, ttl, 1, 0, []⟩])) ∧
    (ready → behind ∨ ((s.pair m.src.toNat).recv = none ∧ s.rxFull = true) → exec (.messageDelivery m) s =
      .next (if s.router.held.length < 8 then s.modRouter (fun r => { r with held := r.held ++ [m] }) else s)) ∧
    (ready → ¬ behind → (s.pair m.src.toNat).recv = some (d, m.epoch) → 1 ≤ (d - m.eseq).toNat → (d - m.eseq).toNat ≤ 32768 → Reaches (exec (.messageDelivery m) s) (fun t =>
      t.mem = s.mem ∧ t.creg = s.creg ∧ injects t [⟨m.src, BitVec.ofNat 16 s.ownAddr, 0, s.epoch, 0, 0, ttl, 1, 1, []⟩])) ∧
    (s.srtOn = false → m.mt = 0 → m.data.length = m.len.toNat → Reaches (exec (.messageDelivery m) s) (fun t => t.mem = s.mem ∧
      injects t [⟨m.src, BitVec.ofNat 16 s.ownAddr, 0, s.epoch, 0, 0, ttl, 1, 2, []⟩])) ∧
    (m.mt = 0 → m.data.length < m.len.toNat → Reaches (exec (.messageDelivery m) s) (fun t => t.mem = s.mem ∧ t.creg = s.creg ∧
      injects t [⟨m.src, BitVec.ofNat 16 s.ownAddr, 0, s.epoch, 0, 0, ttl, 2, 0, []⟩])) ∧
    (oldest → m.st = 0 → Reaches (exec (.dackReceive m) s) (fun t => t.router.store = a ++ b ∧ t.creg = s.creg)) ∧
    (oldest → m.st = 2 → Reaches (exec (.dackReceive m) s) (fun t => t.router.store = a ++ b ∧ failed t 2 x)) ∧
    (oldest → m.st = 3 → Reaches (exec (.dackReceive m) s) (fun t => t.router.store = a ++ b ∧ failed t 1 x)) ∧
    ((∀ y, y ∈ s.router.store → y.1.dest ≠ m.src) → exec (.dackReceive m) s = .next s) ∧
    ((∀ y, y ∈ s.router.store → y.1.dest = d → y.2 < 4) → resent (exec (.messageRetryReceive d) s) ∧ resent (exec (.messageResendTimeout d) s)) ∧
    (s.router.store = [(x, k)] → x.dest = d → 4 ≤ k → Reaches (exec (.messageResendTimeout d) s) (fun t => t.router.store = [] ∧ injects t [] ∧ failed t 3 x)) ∧
    (s.bit stat 28 = true → s.blocker flip = none → exec (.srtFlip .mgmt) s = .next (s.setB stat 31)) ∧
    (s.blocker flip = some by_ → s.errq = none → Reaches (exec (.srtFlip .mgmt) s) (fun t => t.bit stat 31 = true ∧ t.r64 (cr 7 8) = 2 ^ 63 + 6 * 2 ^ 52 + by_.kind * 2 ^ 48 ∧
      t.fld (cr 7 0x10) 0 32 = min (s.fld (cr 7 0x10) 0 32 + 1) (2 ^ 32 - 1) ∧ (tget (konst ErrEntry.zero) t.errLast 14).code = 9 ∧ t.router = s.router)) ∧
    (s.bit stat 28 = false → s.blocker flip = none → Reaches (exec (.srtFlip .mgmt) s) (fun t =>
      t.router.bank = !s.router.bank ∧ t.router.flipLeft = 31 ∧ t.bit stat 28 = true ∧ t.router.tab = s.router.tab)) ∧
    Reaches (exec (.rete .mgmt es) s) (fun t => ∀ j, j < 4 → t.bit stat (24 + j) = (s.bit stat (24 + j) || es.getLsbD j)) ∧
    Reaches (exec (.readm .mgmt es) s) (fun t => ∀ j, j < 4 → if es.getLsbD j = true ∧ (s.half j 0).link = .up then t.bit stat (24 + j) = false
      else t.bit stat (24 + j) = s.bit stat (24 + j) ∧ (es.getLsbD j = true → s.bit stat (24 + j) = true → t.router.readmit.getLsbD j = true)) ∧
    ((s.half e.val 0).link ≠ .up → Reaches (exec (.edgeRoutingTimeout e) s) (fun t => t.bit stat (24 + e.val) = true ∧ (s.bit stat (24 + e.val) = false →
      t.half e.val 0 = { x0 with out := x0.out.filter (fun f => f.rank != 2), rxM0 := poisonTail x0.rxM0, rxM1 := poisonTail x0.rxM1 }))) ∧
    ((s.half e.val 0).link = .up → exec (.edgeRoutingTimeout e) s = .next s) ∧
    (s.router.held = [] → c ≠ 5 → Reaches (exec (.receiveRingHeadWrite (.core c) n) s) (fun t => t.rxHead = n.toNat ∧ t.fld (srt 0x38) 0 48 = s.fld (srt 0x38) 0 48 ∧ t.router = s.router))

-- The Yunaene fabric (chapter 14)

/-- Loads and the running fabric (R332, R334–R341, R344, R349): a load that is out of range fails, and so does one whose image cannot be read, whose frames
or whose CRC are wrong, with the fabric cleared; one that waits keeps its place; a full image whose frames and CRC are right starts up, and its phases lead to CONFIGURED; CLEAR unconfigures; scrubbing corrects; the flash reads, programs and
erases; the ring target port answers for the design, at once or when the design replies.
How long an operation of the flash is under way, and the settings that a hard block is cleared to, are the model's choices, log entry 41; what a port signals as it
opens is free, log entry 2.
Where a command's trigger is absent nothing changes: the model's choice, log entry 5. -/
def Obligations.FabricControl : Prop :=
  ∀ (i : Initiator) (region : BitVec 16) (r : Option (Fin 16)) (l : FabLoad) (a : BitVec 15) (v w : Dword) (k : Fin 64) (o : BitVec 32) (sz : Size) (p : Packet) (code index faddr : Nat) (s s4 : State),
    let load : FabLoad := ⟨BitVec.ofNat 64 (s.r64 (fb 0x10)), region, none, false⟩
    let base := load.image.toNat
    let read := memRead (8, 0) .fabric base 256 (enterLoading 0xFFFF (s.modFab (fun f => { f with cur := some load })))
    let h := read.2.1
    let body := (memRead (8, 0) .fabric (base + 256) (72 * hf h 8 4) s4).2.1
    let whole := region = 0xFFFF ∧ s.domUp 30 = true ∧ s.fab.cur = none ∧ s.fab.waiting = [] ∧ base % 64 = 0
    let framed := loadFrames none fullFrames (base + 256) (loadFuel fullFrames) fullFrames 0 (read.2.2.setR32 (fb 0x50) (hf h 0xC 2))
    let failed : State → Nat → Prop := fun t e => t.bit (fb 0x20) 31 = true ∧ t.r64 (fb 0x30) = e ∧ t.fabState = 0 ∧ t.fab.frames = [] ∧ t.fab.ram = [] ∧
      t.fab.cur = none ∧ t.fab.hard = HardBlocks.cleared ∧ t.fab.latch = [] ∧ t.fab.firq = 0 ∧ t.fab.pinOe = 0
    let gs := loadRegions l.region.toNat
    let phase : State → Nat → Nat → Prop := fun t st p => ∀ g, g ∈ gs → t.fld (fb 0x28) (2 * g) 2 = st ∧ tget (konst 0) t.fab.phase g = p
    let free := s.fab.cur = none ∧ s.fab.waiting = []
    let flash : State → Nat → Byte := fun t x => tget (konst 255) t.fab.flash x
    let reply : State → RStat → List Byte → Prop := fun t st d => tget (konst none) t.resps (respKey i) = some ⟨0, st, d⟩
    let unset := region ≠ 0xFFFF
    let new : RingOp → Prop := fun op => s.asked i o op = none
    let waits_ : RingOp → Prop := fun op => s.asked i o op = some p ∧ s.packet p.tag = some p ∧ Returns p s ∧ Still s
    (16 ≤ region.toNat → unset → Reaches (exec (.load .mgmt region) s) (fun t => t.bit (fb 0x20) 31 = true ∧ t.r64 (fb 0x30) = 2 ^ 56 ∧ t.fab = s.fab ∧ t.mem = s.mem)) ∧
    (region.toNat < 16 ∨ region = 0xFFFF → s.domUp 30 = true → s.fab.cur ≠ none →
      exec (.load .mgmt region) s = .next (s.modFab (fun f => { f with waiting := f.waiting ++ [load] }))) ∧
    (region.toNat < 16 ∨ region = 0xFFFF → s.dom 30 = 3 → s.heldOff 30 = false → Reaches (exec (.load .mgmt region) s) (fun t =>
      t.dom 30 = 4 ∧ t.fab.waiting = s.fab.waiting ++ [load] ∧ t.fab.cur = s.fab.cur)) ∧
    (region = 0xFFFF → s.domUp 30 = true → free → base % 64 ≠ 0 → Reaches (exec (.load .mgmt region) s) (fun t => failed t (2 ^ 56))) ∧
    (whole → read.1 ≠ .ok → Reaches (exec (.load .mgmt region) s) (fun t => failed t (10 * 2 ^ 56))) ∧
    (whole → read.1 = .ok → headerOk h 0xFFFF none = true → framed = .error (code, index, faddr, s4) → Reaches (exec (.load .mgmt region) s) (fun t =>
      failed t ((code * 2 ^ 56 + index % 2 ^ 24 * 2 ^ 32 + faddr) % 2 ^ 64) ∧ t.r32 (fb 0x50) = s4.r32 (fb 0x50))) ∧
    (whole → read.1 = .ok → headerOk h 0xFFFF none = true → framed = .ok s4 → crc32 body ≠ hf h 0x14 4 → Reaches (exec (.load .mgmt region) s) (fun t => failed t (2 * 2 ^ 56))) ∧
    (whole → read.1 = .ok → headerOk h 0xFFFF none = true → framed = .ok s4 →
      crc32 body = hf h 0x14 4 → Reaches (exec (.load .mgmt region) s) (fun t => t.fabState = 2 ∧ t.fab.full = Config.shake256 (h ++ body) ∧
        t.fab.frames = s4.fab.frames ∧ t.r32 (fb 0x50) = s4.r32 (fb 0x50) ∧ ∀ g, g < 16 → t.fld (fb 0x28) (2 * g) 2 = 2 ∧ tget (konst 0) t.fab.phase g = 1)) ∧
    (free → Reaches (exec (.clear .mgmt) s) (fun t => t.fabState = 0 ∧ t.fab.frames = [] ∧ t.fab.portmap = [] ∧ t.fab.winmap = [] ∧
      ∀ g, g < 16 → t.fld (fb 0x28) (2 * g) 2 = 0 ∧ tget (konst 0) t.fab.phase g = 0)) ∧
    (s.inPhase r 1 = some l → Reaches (exec (.clocksStart r) s) (fun t => phase t 2 2 ∧ t.fab.frames = s.fab.frames)) ∧
    (s.inPhase r 1 = none → exec (.clocksStart r) s = .next s) ∧
    (s.inPhase r 2 = some l → Reaches (exec (.internalPortsOpen r) s) (fun t => phase t 2 3 ∧ t.fab.frames = s.fab.frames ∧
      ∀ j, j < 6 → s.portRegion j ∈ gs → (t.micro_ j).rdy = (Config.portSignals s.free j).1 ∧ (t.micro_ j).cq = (Config.portSignals s.free j).2.1)) ∧
    (s.inPhase r 3 = some l → l.job = none → s.fab.waiting = [] → Reaches (exec (.ioEnable r) s) (fun t => phase t 3 4 ∧ t.fab.cur = none ∧ t.bit (fb 0x20) 26 = true ∧
      (l.region = 0xFFFF → t.fabState = 3))) ∧
    (s.bit (fb 0) 1 = true → twf (konst Frame512.zero) s.fab.frames = true → (∀ e, e ∈ s.fab.frames → e.2.flaw ≠ .uncorrectable) → Reaches (exec .fabricScrubPass s) (fun t =>
      ∀ x, (tget (konst Frame512.zero) t.fab.frames x).data = (tget (konst Frame512.zero) s.fab.frames x).data ∧
        (s.scrubs x = true → (tget (konst Frame512.zero) t.fab.frames x).flaw = .none))) ∧
    (s.bit (fb 0) 1 = false → exec .fabricScrubPass s = .next s) ∧
    (s.designRuns = true → Reaches (exec (.flashRead a) s) (fun t => t.fab.flashOut.toNat = ofBytes ((List.range 8).map (fun j => flash s (8 * a.toNat + j))) ∧ t.fab.flash = s.fab.flash)) ∧
    (s.designRuns = true → Reaches (exec (.flashProgram a v) s) (fun t => (∀ x, flash t x = if x / 8 = a.toNat then flash s x &&& BitVec.ofNat 8 (v.toNat / 2 ^ (8 * (x % 8))) else flash s x) ∧
      t.fab.flashOp = some ⟨8 * a.toNat, 8, s.ran + 50000⟩)) ∧
    (s.designRuns = true → Reaches (exec (.flashErase k) s) (fun t => (∀ x, flash t x = if x / 4096 = k.val then 255 else flash s x) ∧
      tget (konst 0) t.fab.wear k.val = tget (konst 0) s.fab.wear k.val + 1 ∧ (10000 < tget (konst 0) t.fab.wear k.val → t.bit (fb 0x20) 27 = true) ∧
      t.fab.flashOp = some ⟨4096 * k.val, 4096, s.ran + 20000000⟩)) ∧
    (s.designRuns = false → exec (.flashRead a) s = .next s ∧ exec (.flashProgram a v) s = .next s ∧ exec (.flashErase k) s = .next s) ∧
    (new (.rd sz) → s.winStatus o.toNat = none → Reaches (exec (.ringTargetRequest i o sz none (some v)) s) (fun t => reply t .ok (toBytes sz.bytes v.toNat) ∧ t.mem = s.mem) ∧
      Reaches (exec (.ringTargetRequest i o sz none none) s) (fun t => (t.asked i o (.rd sz)).map (·.tag) = some s.nextTag ∧ t.resps = s.resps ∧ t.mem = s.mem)) ∧
    (new (.wr sz w) → s.winStatus o.toNat = none → Reaches (exec (.ringTargetRequest i o sz (some w) (some v)) s) (fun t => reply t .ok [] ∧ t.mem = s.mem) ∧
      Reaches (exec (.ringTargetRequest i o sz (some w) none) s) (fun t => (t.asked i o (.wr sz w)).map (·.tag) = some s.nextTag ∧ t.resps = s.resps ∧ t.mem = s.mem)) ∧
    (waits_ (.rd sz) → exec (.ringTargetRequest i o sz none none) s = .next s ∧
      Reaches (exec (.ringTargetRequest i o sz none (some v)) s) (fun t => Back p (.rsp .ok (toBytes sz.bytes v.toNat)) t ∧ t.mem = s.mem)) ∧
    (waits_ (.wr sz w) → exec (.ringTargetRequest i o sz (some w) none) s = .next s ∧
      Reaches (exec (.ringTargetRequest i o sz (some w) (some v)) s) (fun t => Back p (.rsp .ok []) t ∧ t.mem = s.mem)) ∧
    (new (.rd sz) → s.winStatus o.toNat = some .notReady → Reaches (exec (.ringTargetRequest i o sz none (some v)) s) (fun t => reply t .notReady (List.replicate sz.bytes 0))) ∧
    (new (.rd sz) → s.winStatus o.toNat = some .unmapped → Reaches (exec (.ringTargetRequest i o sz none (some v)) s) (fun t => reply t .unmapped (List.replicate sz.bytes 0)))

/-- The hard blocks that only the design reaches (R331, R333): the oscillators stay within their tolerances and the trim moves the rate upwards; whatever the
design does, a UART's FIFOs hold 64 bytes at most and the serial clocks stay within their limits; an I²C target takes part where the address is its own; a running
design acts when no command waits, and moves no flip-flop or RAM block of a region whose clocks have not started (R338).
When a design acts, and what a full FIFO does, are the model's choices, log entry 41; which act it makes is free, log entry 2. -/
def Obligations.FabricHardBlocks : Prop :=
  ∀ (a : HardAct) (h : HardBlocks) (k : Fin 2) (n : Fin 64) (u v : Byte) (addr : BitVec 10) (rd : Bool) (s : State),
    let bus := h.i2cOf k
    let mine := bus.mode.target = false ∨ i2cAddr bus.mode addr = bus.own
    let held : HardBlocks → Prop := fun h => ∀ k : Fin 2, (h.uartOf k).mode.rate ≤ 12500000 ∧ (h.uartOf k).tx.length ≤ 64 ∧ (h.uartOf k).rx.length ≤ 64 ∧
      (h.spiOf k).mode.rate ≤ 50000000
    (36000000 ≤ fixedHz ∧ fixedHz ≤ 44000000) ∧ (340000000 ≤ trimHz 0x80 ∧ trimHz 0x80 ≤ 460000000) ∧ (u.toNat ≤ v.toNat → trimHz u ≤ trimHz v) ∧
    held HardBlocks.cleared ∧ (held h → held (hardStep a h)) ∧
    ((h.uartOf k).tx.length < 64 → ((hardStep (.uartWrite k v) h).uartOf k).tx = (h.uartOf k).tx ++ [v]) ∧
    (((hardStep (.uartGot k v) h).uartOf k).tx = (h.uartOf k).tx ∧ (hardStep (.uartGot k v) h).trim = h.trim) ∧
    (hardStep (.trim v) h = { h with trim := v }) ∧
    ((hardStep (.spiByte k u v) h).spiOf k = { h.spiOf k with out := u, got := v }) ∧
    (mine → (hardStep (.i2cByte k addr rd v) h).i2cOf k = { bus with addr := i2cAddr bus.mode addr, read := rd, data := v, acked := true }) ∧
    (¬ mine → (hardStep (.i2cByte k addr rd v) h).i2cOf k = { bus with acked := false }) ∧
    ((hardTurn (.wearRead n) s).fab = { s.fab with flashOut := BitVec.ofNat 64 (tget (konst 0) s.fab.wear n.val) }) ∧
    (s.pending = [] → s.dict.tasks = [] → s.designRuns = true → Reaches (step s) (fun t => (∃ a, t.fab.hard = hardStep a s.fab.hard) ∧
      (∀ x, s.phase (x / 384) < 2 → tget (konst 0) t.fab.ff x = tget (konst 0) s.fab.ff x) ∧
      (∀ x, s.phase (x / 16) < 2 → tget (konst 0) t.fab.ram x = tget (konst 0) s.fab.ram x ∧ tget (konst 0) t.fab.ramOut x = tget (konst 0) s.fab.ramOut x) ∧
      ∀ x, (tget (konst Frame512.zero) t.fab.frames x).data = (tget (konst Frame512.zero) s.fab.frames x).data)) ∧
    (s.pending = [] → s.dict.tasks = [] → s.designRuns = false → Reaches (step s) (fun t => t.fab = s.fab))

-- The host interface and its queues (chapter 12)

/-- Queues (R281–R285, R291, R292, R294): a doorbell moves the tail or the head, puts its queue into ERROR, is kept, or is counted; descriptors are fetched in
ring order; enables, disables, assignments and grants take or are refused; configuration writes set what they name; entries that waited are written; a
function-level reset keeps what R294 says; a request of the host ends a nap (R385). A function in D3hot answers memory requests as unsupported: the model's choice, log entry 39.
Where a command's trigger is absent nothing changes: the model's choice, log entry 5. -/
def Obligations.HostQueues : Prop :=
  ∀ (f g : FnId) (q : QueueId) (i : Initiator) (v : Dword) (w : Word) (sz : Size) (j : Job) (sq_ st ev : Nat) (c6 : Fin 6) (c3 : Fin 3) (b1 b2 : Bool) (e : List Byte) (rest : List (Nat × Nat × List Byte)) (s : State),
    let k := s.queue q.val
    let own := k.owner.getD 0
    let up : Prop := s.hostUp = true ∧ s.boot.nap = false
    let on : Prop := up ∧ (s.fn f.val).d3 = false
    let turned_ : Out → Prop := fun out => out = .next (s.modHost (fun h => { h with ur := h.ur + 1, bar := [] }))
    let rung := sz = .b8 ∧ k.state = .enabled
    let ready := stReady ≤ s.devState
    let ringV : Out → Prop := fun out =>
      (ready → v.toNat < k.len → k.type = 1 → out = .next (s.setQueue q.val { k with tail := BitVec.ofNat 16 v.toNat })) ∧
      (ready → v.toNat < k.len → k.type ≠ 1 → out = .next (s.setQueue q.val { k with head := BitVec.ofNat 16 v.toNat })) ∧
      (ready → k.len ≤ v.toNat → Reaches out (fun t => (t.queue q.val).state = .error ∧ (t.queue q.val).err = 5)) ∧
      (¬ ready → out = .next (s.setQueue q.val { k with kept := some v }))
    let dropped : Nat → Out → Prop := fun h out => Reaches out (fun t => (t.fn h).dbdrop.toNat = min ((s.fn h).dbdrop.toNat + 1) 65535 ∧ t.host.queues = s.host.queues)
    let x := k.entry k.head.toNat
    let more := k.state = .enabled ∧ k.type = 1 ∧ k.owner = some f.val ∧ k.head ≠ k.tail ∧ k.jobs = []
    let k' := { k with ctx := BitVec.ofNat 64 (ctxMask v.toNat) }
    let err := (s.setQueue q.val k').enableErr (s.acting f.val) k'
    let entry : State → List Byte → Prop := fun t b => t.hostBytes own (k.entry k.tail.toNat) 64 = b ++ toBytes 4 (b2n k.ph) ∧
      (t.queue q.val).tail = BitVec.ofNat 16 ((k.tail.toNat + 1) % k.len)
    let room := k.full = false ∧ s.entryOk q.val = true
    let due := 0 < k.unsig ∧ k.first + k.coalT * 1000 ≤ s.ran
    let open_ := (s.fn own).msixEn = true ∧ (s.fn own).masked = false ∧ tget (konst false) (s.fn own).vecMask k.vec = false
    (on → rung → k.owner = some f.val → ringV (exec (.doorbell f q sz v) s)) ∧
    (up → (s.fn f.val).d3 = true → turned_ (exec (.doorbell f q sz v) s) ∧ turned_ (exec (.queueEnable f v) s) ∧ turned_ (exec (.queueDisable f v) s) ∧
      turned_ (exec (.queueAssign f w) s) ∧ turned_ (exec (.queueRelease f w) s) ∧ turned_ (exec (.fcfgWrite f w) s) ∧ turned_ (exec (.fselWrite f w) s) ∧
      turned_ (exec (.bar0Access f 0x10 .b8 (some v)) s) ∧ turned_ (exec (.bar4Access f 0 8 none) s)) ∧
    (s.hostUp = true → s.boot.nap = true → Reaches (exec (.doorbell f q sz v) s) (fun t => t.boot.nap = false) ∧
      Reaches (exec (.bar0Access f 0x10 .b8 none) s) (fun t => t.boot.nap = false) ∧ Reaches (exec (.unsupportedRequest f .ats) s) (fun t => t.boot.nap = false)) ∧
    (on → ¬ rung ∨ k.owner ≠ some f.val → dropped f.val (exec (.doorbell f q sz v) s)) ∧
    (s.boot.nap = false → rung → ringV (exec (.wqdbDoorbell .mgmt q sz v) s)) ∧
    (s.boot.nap = false → ¬ rung → k.owner = some f.val → dropped f.val (exec (.wqdbDoorbell .mgmt q sz v) s)) ∧
    (s.boot.nap = false → i ≠ .mgmt → Reaches (exec (.wqdbDoorbell i q sz v) s) (fun t => t.host = s.host)) ∧
    (s.hostUp = true → more → BitVec.ofNat 16 ((k.head.toNat + 1) % k.len) = k.tail → s.window f.val x 64 false = true → j = ⟨s.hostBytes f.val x 64, none, none, 0⟩ → 1 ≤ j.op → j.op ≤ 7 →
      exec (.descriptorFetch q .ok) s = .next (s.setQueue q.val { k with head := k.tail, jobs := [j] })) ∧
    (s.hostUp = true → more → s.window f.val x 64 false = false → Reaches (exec (.descriptorFetch q .ok) s) (fun t => (t.queue q.val).state = .error ∧ (t.queue q.val).err = 6)) ∧
    (s.hostUp = true → more → s.window f.val x 64 false = true → st < 64 → Reaches (exec (.descriptorFetch q (.failed st)) s) (fun t =>
      (t.queue q.val).state = .error ∧ (t.queue q.val).err = 7)) ∧
    (on → s.selQueue f.val = some q.val → k.state = .disabled → err = 0 → Reaches (exec (.queueEnable f v) s) (fun t => (∀ n, n ≠ q.val → t.queue n = s.queue n) ∧
      t.queue q.val = { k' with state := .enabled, err := 0, head := 0, tail := 0, ph := true, jobs := [], prev := none, unsig := 0, kept := none })) ∧
    (on → s.selQueue f.val = some q.val → k.state = .disabled → err ≠ 0 → Reaches (exec (.queueEnable f v) s) (fun t => (t.fn f.val).wrej = true ∧
      t.queue q.val = { k' with err := BitVec.ofNat 4 err })) ∧
    (on → s.selQueue f.val = some q.val → k.state ≠ .disabled → exec (.queueEnable f v) s = .next s) ∧
    (on → s.selQueue f.val = none → exec (.queueEnable f v) s = .next (s.wrej f.val) ∧ exec (.queueDisable f v) s = .next (s.wrej f.val)) ∧
    (on → s.selQueue f.val = some q.val → k.state = .enabled ∨ k.state = .error → exec (.queueDisable f v) s =
      if k.type = 1 then .next (s.setQueue q.val { k with state := .draining }) else if k.type = 2 ∧ s.named q.val = true then .next (s.wrej f.val)
      else .next (s.setQueue q.val { k with state := .disabled })) ∧
    (k.state = .draining → k.jobs = [] → (∀ y, y ∈ s.host.waiting → y.1 ≠ q.val) → exec (.queueDrainComplete q) s = .next (s.setQueue q.val { k with state := .disabled })) ∧
    (k.state = .draining → k.jobs ≠ [] → exec (.queueDrainComplete q) s = .next s) ∧
    (on → s.isPf f.val = true → w.toNat % 65536 = q.val → bits w.toNat 16 8 = g.val →
      if k.state = .disabled ∧ s.portQueue (s.portOf f.val) q.val = true ∧ s.portOf g.val = s.portOf f.val then
        exec (.queueAssign f w) s = .next (s.setQueue q.val { k with owner := some g.val, lost := 0 }) ∧
          exec (.queueRelease f w) s = .next (s.setQueue q.val { k with owner := none, lost := 0 })
      else exec (.queueAssign f w) s = .next (s.wrej f.val) ∧ exec (.queueRelease f w) s = .next (s.wrej f.val)) ∧
    (on → s.isPf f.val = true → s.acting f.val = g.val → bits w.toNat 0 12 = s.nvec g.val → 0 < s.nvec g.val → s.nvec g.val ≤ 2048 →
      (s.portFns (s.portOf f.val)).foldl (fun n h => n + s.nvec h) 0 ≤ s.portVectors → Reaches (exec (.fcfgWrite f w) s) (fun t => t.nvec g.val = s.nvec g.val ∧
        t.partMask g.val = bits w.toNat 24 4 ∧ t.fnLevel g.val = bits w.toNat 28 2 ∧ t.keyOk g.val = w.getLsbD 31)) ∧
    (on → s.isPf f.val = true → bits w.toNat 0 12 = 0 ∨ 2048 < bits w.toNat 0 12 → exec (.fcfgWrite f w) s = .next (s.wrej f.val)) ∧
    (on → s.isPf f.val = true → if s.portOf (w.toNat % 256) = s.portOf f.val then Reaches (exec (.fselWrite f w) s) (fun t => t.acting f.val = w.toNat % 256 ∧
        t.host.queues = s.host.queues) else exec (.fselWrite f w) s = .next (s.wrej f.val)) ∧
    (on → Reaches (exec (.bar0Access f 0x10 .b8 (some v)) s) (fun t => (t.fn f.val).qsel.toNat = v.toNat % 65536 ∧
        t.host.queues = s.host.queues ∧ (t.fn f.val).wrej = ((s.fn f.val).wrej || decide ((s.queue (v.toNat % 65536)).owner ≠ some (s.acting f.val)))) ∧
      Reaches (exec (.bar0Access f 0x10 .b8 none) s) (fun t => t.host.bar = toBytes 8 (s.fn f.val).qsel.toNat ∧ t.host.fns = s.host.fns)) ∧
    (up → sz.bytes < 4 → Reaches (exec (.bar0Access f 0x10 sz (some v)) s) (fun t => t.host.ur = s.host.ur + 1 ∧ t.host.fns = s.host.fns)) ∧
    (let b := f.val / 128; let o := f.val % 128 * 512 + bits w.toNat 0 6 * 8; let a := bankAddr b o; let d := BitVec.ofNat 17 (bits w.toNat 0 6 * 8)
     on → (s.bank b).newOwner = none → s.bankPwr b = 0 → (s.bank b).test = none → s.flaw = [] →
      Reaches (exec (.bar4Access f d 8 (some (toBytes 8 v.toNat))) s) (fun t => t.bytes a 8 = toBytes 8 v.toNat ∧ ∀ y, y < a ∨ a + 8 ≤ y → t.byte y = s.byte y) ∧
      Reaches (exec (.bar4Access f d 8 none) s) (fun t => t.host.bar = s.bytes a 8 ∧ t.mem = s.mem)) ∧
    (up → Reaches (exec (.unsupportedRequest f .ats) s) (fun t => t.host.ur = s.host.ur + 1 ∧ t.host.aer = s.host.aer + 1 ∧ t.host.queues = s.host.queues)) ∧
    (up → ready →
      Reaches (exec (.configurationRequest f (.msix b1) b2) s) (fun t => (t.fn f.val).msixEn = b1 ∧ (t.fn f.val).masked = b2 ∧
        (b1 = false ∨ b2 = true → t.host.msgs = s.host.msgs) ∧
        (b1 = true → b2 = false → ∀ vec, tget (konst false) (s.fn f.val).vecMask vec = false → tget (konst false) (t.fn f.val).vecPend vec = false)) ∧
      (if s.isPf f.val then Reaches (exec (.configurationRequest f (.vf b1) b2) s) (fun t => (t.fn f.val).vfEn = b1) else exec (.configurationRequest f (.vf b1) b2) s = .next s) ∧
      Reaches (exec (.configurationRequest f (.power b1) b2) s) (fun t => (t.fn f.val).d3 = b1 ∧ t.host.queues = s.host.queues) ∧
      Reaches (exec (.configurationRequest f (.payload c3) b2) s) (fun t => (t.fn f.val).mps = c3) ∧
      Reaches (exec (.configurationRequest f (.readRequest c6) b2) s) (fun t => (t.fn f.val).mrrs = c6)) ∧
    (s.boot.nap = false → ¬ ready → exec (.configurationRequest f (.msix b1) b2) s = .next s) ∧
    (s.host.waiting = (sq_, st, e) :: rest → e.length = 60 → (s.queue sq_).cq = q.val → k.state ≠ .error → room → (s.queue sq_).jobs = [] →
      Reaches (exec (.completionQueueRoom q) s) (fun t => t.host.waiting = rest ∧ entry t (withHead (s.queue sq_).head.toNat e))) ∧
    (s.host.waiting = (sq_, st, e) :: rest → (s.queue sq_).cq = q.val → k.state = .error → (s.queue sq_).jobs = [] → Reaches (exec (.completionQueueRoom q) s) (fun t =>
      t.host.waiting = rest ∧ t.host.queues = s.host.queues ∧ t.host.mem = s.host.mem)) ∧
    (twf (konst Queue.reset) s.host.queues = true → 0 < k.lost → ¬ (k.state = .enabled ∧ k.full = true) → s.eventQueue own = some ev → (s.queue ev).full = false → s.entryOk ev = true →
      Reaches (exec (.eventOverflow q) s) (fun t => (t.queue q.val).lost = 0 ∧ (t.queue ev).tail = BitVec.ofNat 16 (((s.queue ev).tail.toNat + 1) % (s.queue ev).len) ∧
        t.hostBytes own ((s.queue ev).entry (s.queue ev).tail.toNat) 64 = eventBytes 3 q.val k.lost s.now ++ toBytes 4 (b2n (s.queue ev).ph))) ∧
    (k.state = .enabled → k.full = true → exec (.eventOverflow q) s = .next s) ∧
    (due → open_ → Reaches (exec (.msixCoalesceTimeout q) s) (fun t => (t.queue q.val).unsig = 0 ∧ t.host.msgs = s.host.msgs ++ [(own, k.vec)])) ∧
    (due → ¬ open_ → Reaches (exec (.msixCoalesceTimeout q) s) (fun t => (t.queue q.val).unsig = 0 ∧ t.host.msgs = s.host.msgs ∧
      tget (konst false) (t.fn own).vecPend k.vec = true)) ∧
    (¬ due → exec (.msixCoalesceTimeout q) s = .next s) ∧
    (up → s.isPf f.val = false → s.queuesOf f.val = [] → s.devState ≠ stRun → Reaches (exec (.functionLevelReset f) s) (fun t =>
      t.fn f.val = { Fn.reset with fcfg := (s.fn f.val).fcfg, winBase := (s.fn f.val).winBase, winCtl := (s.fn f.val).winCtl } ∧ t.bit (cr 0x38 0x1100) 2 = true ∧
      t.host.queues = s.host.queues ∧ (∀ n, n ≠ f.val → t.fn n = s.fn n) ∧ ∀ n, n < 512 → t.byte (bankAddr (f.val / 128) (f.val % 128 * 512 + n)) = 0))

/-- The links (R274–R276, R375): a change of state or rate is shown at its port and flagged; training to L0 releases WAKE_N. A job starts in its queue's order and
turn, completes with the status that R287–R291 give, and its entry goes to its completion queue; a program is dispatched, and starts with the registers
of R289 once its sequencer takes it; planes and keys go to the engine of the lowest quadrant; COPY moves the bytes, some at a time; FABRIC_LOAD reaches the loader (R25, R27, R286–R291, R336, R404).
Where a command's trigger is absent nothing changes: the model's choice, log entry 5.
Jobs are carried out by commands of their own, the handler block is free, and turns pass in rising queue order: the model's choices, log entries 9, 21 and 39. -/
def Obligations.HostJobs : Prop :=
  ∀ (port : Fin 2) (l : LinkState) (gts : Byte) (width : BitVec 5) (q : QueueId) (j : Job) (st amount : Nat) (pq : Quad) (g : Prog) (e : Nat × Nat × Nat × Nat × Nat) (dl : Nat) (d : Ptd)
    (hb mb : List Byte) (s : State),
    let p := s.jobPart q.val
    let c := s.driver p
    let k := s.queue q.val
    let ck := s.queue k.cq
    let start := s.atOnce q.val 0 j = none
    let code := j.f 8 8
    let aligned := code % 4096 = 0 ∧ 0x1000 ≤ code ∧ j.f 0x24 2 + j.f 0x26 2 ≤ 4096
    let inside := regionOk (code - 4096) (j.f 0x10 4 + 4096) = true ∧ regionOk (j.f 0x18 8) (j.f 0x20 4) = true ∧ regionOk (j.f 0x28 8) (j.f 0x14 4) = true
    let runs : Nat → Prop := fun op => s.runningJob q.val [op] = some (0, j) ∧ k.jobs = [j]
    let mine := HasTurn p [1] (some p) q.val s
    let free := (s.prog p).isNone = true ∧ mine
    let idle := free ∧ s.coreFree c = true
    let waiting : Prog := ⟨q.val, BitVec.ofNat 32 j.jobid, false, none, none, false⟩
    let block := SoundAt (sourcePort (.core (Fin.ofNat 6 c))) (code - 4096) 4096 s
    let taken : State → Prop := fun t => t.core c = programCore (s.core c) j ∧ t.r32 (sq c 0x20) = 0x3f ∧
      t.prog p = some ⟨q.val, BitVec.ofNat 32 j.jobid, true, if j.f 0x30 4 = 0 then none else some (s.ran + 1000 * j.f 0x30 4), none, false⟩ ∧
      ∀ a, a < code - 4096 ∨ code ≤ a → t.byte a = s.byte a
    let ready := HasTurn (4 + p) [2, 3, 6] (some p) q.val s ∧ s.planeFree p = true
    let s' := turned (4 + p) q.val s
    let began : State → State := fun t => enginesRun ((beginJob q.val 0 t).quads p) (beginJob q.val 0 t)
    let goes : Bool → State → Out → Prop := fun key t0 out => Launches p code key hb mb t0 →
      Reaches out (fun t => ∃ z, t.xfer p = some { (ptdOf (t0.quads p) hb mb).t with key := key, job := some q.val, zero := z } ∧
        ((ptdOf (t0.quads p) hb mb).t.out = false → z = 0))
    let read := peekPtd p code s' = some d
    let segment := d.t.map.any (fun m => decide (m.daddr.toNat < s.keyBase p) || decide (s.keyBase p + s.keyLen p < m.daddr.toNat + m.dlen))
    let src := j.f 8 8
    let dst := j.f 16 8
    let n := j.f 24 8
    let owner := k.owner.getD 0
    let copies := Alone q.val j 4 s ∧ start ∧ HasTurn 8 [4] none q.val s ∧ s.channels < 16 ∧ j.f 32 1 = 0 ∧ j.moved = 0
    let moved : State → Nat → Nat → Prop := fun t lo hi => (∀ x, lo ≤ x → x < hi → t.byte (dst + x) = tget (konst 0) s.host.mem (s.hostKey owner src + x)) ∧
      ∀ a, a < dst + lo ∨ dst + hi ≤ a → t.byte a = s.byte a
    let keyIn : State := s'.modHost (fun h => { h with keyZero := tset (konst []) h.keyZero q.val (if j.f 16 1 = 1 then d.t.records (s.quads p) else []) })
    (s.boot.tap.disturbs = false → linkLegal s.bif l gts.toNat width.toNat = true → port = 0 ∨ s.bif = true → Reaches (exec (.pcieLinkChange port l ⟨gts, width⟩) s) (fun t =>
      t.link port.val = ⟨l, gts, width⟩ ∧ t.link (1 - port.val) = s.link (1 - port.val) ∧ t.host.queues = s.host.queues ∧
      ((s.link port.val).state ≠ l ∨ (s.link port.val).gts ≠ gts → t.bit (cr 0x38 0x1100) 3 = true) ∧ (l = .l0 → t.boot.wakeN = true))) ∧
    (s.boot.tap.disturbs = true ∨ linkLegal s.bif l gts.toNat width.toNat = false ∨ (port = 1 ∧ s.bif = false) → exec (.pcieLinkChange port l ⟨gts, width⟩) s = .next s) ∧
    (Alone q.val j 7 s → s.atOnce q.val 0 j = some st → Reaches (exec (.fence q) s) (fun t => Done q.val st t ∧ t.mem = s.mem)) ∧
    (Alone q.val j 7 s → s.atOnce q.val 0 j = some st → j.cs = false ∨ st ≠ 0 → s.devState ≠ stRun → ck.state ≠ .error → ck.full = false → s.host.waiting = [] → s.entryOk k.cq = true →
      Reaches (exec (.fence q) s) (fun t => t.hostBytes (ck.owner.getD 0) (ck.entry ck.tail.toNat) 64 =
        withHead k.head.toNat (completionBytes q.val j ⟨st, 0, 0, 0, 0⟩ s.now) ++ toBytes 4 (b2n ck.ph))) ∧
    (s.candidate q.val = none → exec (.fence q) s = .next s) ∧
    (Alone q.val j 1 s → s.atOnce q.val 0 j = some st → (s.prog p).isNone = true → Reaches (exec (.runProgram q .start) s) (fun t => Done q.val st t ∧ t.mem = s.mem ∧ t.cores = s.cores)) ∧
    (Alone q.val j 1 s → start → idle → aligned → inside → block → Reaches (exec (.runProgram q .start) s) taken) ∧
    (s.prog p = some waiting → runs 1 → s.coreFree c = true → aligned → inside → block → Reaches (exec (.runProgram q .start) s) taken) ∧
    (Alone q.val j 1 s → start → idle → ¬ aligned → Reaches (exec (.runProgram q .start) s) (fun t => Done q.val 2 t ∧ t.cores = s.cores ∧
      (s.devState = stReady → t.devState = stReady))) ∧
    (Alone q.val j 1 s → start → idle → aligned → ¬ inside → Reaches (exec (.runProgram q .start) s) (fun t => Done q.val 3 t ∧ t.cores = s.cores)) ∧
    (Alone q.val j 1 s → start → free → s.coreFree c = false → Reaches (exec (.runProgram q .start) s) (fun t => t.prog p = some waiting ∧ t.cores = s.cores ∧
      t.mem = s.mem ∧ t.devState = s.devState ∧ t.line (32 + c) false = true ∧ (t.queue q.val).jobs = [{ j with start := some s.now }])) ∧
    (s.prog p = some g → g.taken = true ∨ g.queue ≠ q.val ∨ s.coreFree c = false → exec (.runProgram q .start) s = .next s) ∧
    (s.progOf q.val = some (pq.val, g) → runs 1 → g.ended = some e → s.settled pq.val = true → Reaches (exec (.runProgram q .finish) s) (fun t => Done q.val e.1 t ∧ t.prog pq.val = none)) ∧
    (s.progOf q.val = some (pq.val, g) → runs 1 → g.ended = none ∨ s.settled pq.val = false → exec (.runProgram q .finish) s = .next s) ∧
    (s.prog pq.val = some g → g.deadline = some dl → dl ≤ s.ran → g.taken = true → g.ended = none → g.stop = false → (s.core (s.driver pq.val)).atPoint = true → (s.seq (s.driver pq.val)).susp = false →
      Reaches (exec (.runProgramTimeout pq) s) (fun t => t.prog pq.val = some { g with ended := some (13, 0, 0, 0, 0) } ∧ (t.core (s.driver pq.val)).run = .running)) ∧
    (s.prog pq.val = some g → (∀ x, g.deadline = some x → s.ran < x) → exec (.runProgramTimeout pq) s = .next s) ∧
    (Alone q.val j 2 s → start → ready → read → d.t.out = false → goes false (began s') (exec (.loadPlanes q .start) s)) ∧
    (Alone q.val j 3 s → start → ready → read → d.t.out = true → goes false (began s') (exec (.storePlanes q .start) s)) ∧
    (Alone q.val j 2 s → start → ready → read → d.bad = false → d.t.out = true → Reaches (exec (.loadPlanes q .start) s) (fun t => Done q.val 2 t ∧ t.mem = s.mem)) ∧
    (Alone q.val j 3 s → start → ready → read → d.bad = false → d.t.out = false → Reaches (exec (.storePlanes q .start) s) (fun t => Done q.val 2 t ∧ t.mem = s.mem)) ∧
    (Alone q.val j 6 s → start → ready → read → d.bad = false → addressBad (s.quads p) d.t = false →
      let go : Prop := goes true (began keyIn) (exec (.keyLoad q .start) s)
      if d.t.out = true ∨ d.t.manual = true then Reaches (exec (.keyLoad q .start) s) (fun t => Done q.val 2 t ∧ t.mem = s.mem)
      else if segment = true then Reaches (exec (.keyLoad q .start) s) (fun t => t.xfer p = none ∧ ∀ x, x ∈ (beginJob q.val 0 s').quads p → t.fld (ct x 0x10) 20 4 = 3)
      else if (d.t.records (s.quads p)).any (fun r => !s.inOneWindow r.1 r.2) = true then Reaches (exec (.keyLoad q .start) s) (fun t => Done q.val 14 t ∧ t.mem = s.mem)
      else go) ∧
    (s.xfer p = none → runs 2 → Reaches (exec (.loadPlanes q .finish) s) (fun t => Done q.val (planeStatus (s.fld (ct p 0x10) 20 4)) t)) ∧
    (s.xfer p = none → runs 3 → Reaches (exec (.storePlanes q .finish) s) (fun t => Done q.val (planeStatus (s.fld (ct p 0x10) 20 4)) t)) ∧
    (s.xfer p = none → runs 6 → Reaches (exec (.keyLoad q .finish) s) (fun t => Done q.val (planeStatus (s.fld (ct p 0x10) 20 4)) t)) ∧
    ((s.xfer p).isSome = true → exec (.loadPlanes q .finish) s = .next s ∧ exec (.storePlanes q .finish) s = .next s ∧ exec (.keyLoad q .finish) s = .next s) ∧
    (copies → s.devState ≠ stReady → s.hostRangeOk owner src n false = true → copyBad c dst n true = false → Landing dst n s → n ≤ amount →
      Reaches (exec (.copy q ⟨0, amount, .ok⟩) s) (fun t => Done q.val 0 t ∧ moved t 0 n)) ∧
    (copies → s.devState ≠ stReady → s.hostRangeOk owner src n false = true → copyBad c dst n true = false → Landing dst n s → amount < n →
      Reaches (exec (.copy q ⟨0, amount, .ok⟩) s) (fun t => (t.queue q.val).jobs = [{ j with start := some s.now, moved := amount }] ∧ moved t 0 amount)) ∧
    (runs 4 → j.f 32 1 = 0 → j.moved ≤ n → s.hostRangeOk owner (src + j.moved) (n - j.moved) false = true → Landing (dst + j.moved) (n - j.moved) s → n ≤ j.moved + amount →
      Reaches (exec (.copy q ⟨0, amount, .ok⟩) s) (fun t => Done q.val 0 t ∧ moved t j.moved n)) ∧
    (copies → s.hostRangeOk owner src n false = false → Reaches (exec (.copy q ⟨0, amount, .ok⟩) s) (fun t => Done q.val 4 t ∧ t.mem = s.mem)) ∧
    (copies → s.devState ≠ stReady → s.hostRangeOk owner src n false = true → copyBad c dst n true = true →
      Reaches (exec (.copy q ⟨0, amount, .ok⟩) s) (fun t => Done q.val 3 t ∧ t.mem = s.mem)) ∧
    (copies → s.devState ≠ stReady → s.hostRangeOk owner src n false = true → copyBad c dst n true = false → 0 < n → 0 < amount →
      Reaches (exec (.copy q ⟨0, amount, .failed 0⟩) s) (fun t => Done q.val 5 t ∧ t.mem = s.mem)) ∧
    (Alone q.val j 5 s → start → 15 < j.f 20 2 → j.f 20 2 ≠ 0xFFFF → Reaches (exec (.fabricLoad q) s) (fun t => Done q.val 2 t ∧ t.fab = s.fab)) ∧
    (Alone q.val j 5 s → start → j.f 20 2 ≤ 15 ∨ j.f 20 2 = 0xFFFF → s.fab.cur ≠ none → Reaches (exec (.fabricLoad q) s) (fun t => t.fab.cur = s.fab.cur ∧
      t.fab.waiting = s.fab.waiting ++ [⟨BitVec.ofNat 64 (j.f 8 8), BitVec.ofNat 16 (j.f 20 2), some (q.val, j.f 16 4), false⟩] ∧
      (t.queue q.val).jobs = [{ j with start := some s.now }]))

-- The step

/-- A step is the front command's effect on the state with the rest of the queue; the order of the queue is first in, first out.
On an empty queue a step is one tick of device time, in which firmware completes a task and a running fabric design may act: the model's choice, log entries 6, 19
and 41. -/
def Obligations.StepRunsTheFront : Prop :=
  ∀ (c : Instr) (rest : List Instr) (s : State),
    (s.pending = c :: rest → step s = exec c { s with pending := rest }) ∧ step { s with pending := c :: s.pending } = exec c s ∧
    (s.pending = [] → s.dict.tasks = [] → Reaches (step s) (fun t => t.pending = [] ∧ (s.designRuns = false → t.cores = s.cores) ∧
      (∀ k, { t.core k with run := (s.core k).run } = s.core k) ∧ t.mem = s.mem ∧ t.arr = s.arr ∧ t.host = s.host))

/-- What every step keeps holds after reset; the command queue is then empty.
What an unlisted address reads as is the model's choice, log entry 3. -/
def Obligations.ResetIsKept : Prop :=
  Kept State.reset ∧ State.reset.pending = [] ∧ State.reset.devState = stBoot ∧ ∀ a, State.reset.byte a = memDefault a

/-- Every step answers a next state, takes the front command off the queue and nothing else, and keeps device memory canonical and the error log and
the machine-check queue within their sizes.
That no command stops is the model's choice, log entry 5. -/
def Obligations.EveryStepKeeps : Prop :=
  ∀ s, Kept s → Reaches (step s) (fun t => Kept t ∧ t.pending = s.pending.tail)
end

