-- ==== Sys2Proof/Laws/Map.lean ====
section
/-! SUPPORT. Laws of sparse tables: what a table holds after an update, and that updates keep its canonical form. -/
namespace Sys2Proof

section
variable {α : Type}

theorem tget_tdel_same (d : Nat → α) (t : Table α) (k : Nat) : tget d (tdel t k) k = d k := by
  induction t with
  | nil => rfl
  | cons e t ih =>
    by_cases h : e.1 = k
    · simpa [tdel, h] using ih
    · simpa [tdel, tget, h] using ih

theorem tget_tdel_other (d : Nat → α) (t : Table α) (k j : Nat) (hj : j ≠ k) : tget d (tdel t k) j = tget d t j := by
  induction t with
  | nil => rfl
  | cons e t ih =>
    by_cases h : e.1 = k
    · have h2 : ¬ e.1 = j := fun x => hj (x.symm.trans h)
      simp only [tdel, h, if_true, tget]
      rw [if_neg (by simpa [h] using h2)]
      exact ih
    · by_cases h3 : e.1 = j
      · rw [tdel, if_neg h, tget, tget, if_pos h3, if_pos h3]
      · simpa [tdel, tget, h, h3] using ih

/-- No entry of the table has key k. -/
def absent (k : Nat) : Table α → Prop
  | [] => True
  | (a, _) :: t => a ≠ k ∧ absent k t

theorem absent_tdel (t : Table α) (k : Nat) : absent k (tdel t k) := by
  induction t with
  | nil => trivial
  | cons e t ih =>
    by_cases h : e.1 = k
    · simpa [tdel, h] using ih
    · simpa [tdel, absent, h] using ih

theorem tdel_of_absent (t : Table α) (k : Nat) (h : absent k t) : tdel t k = t := by
  induction t with
  | nil => rfl
  | cons e t ih => simp [tdel, h.1, ih h.2]

theorem tget_tput_same (d : Nat → α) (t : Table α) (k : Nat) (v : α) (h : absent k t) : tget d (tput t k v) k = v := by
  induction t with
  | nil => simp [tput, tget]
  | cons e t ih =>
    by_cases hk : k < e.1
    · simp [tput, hk, tget]
    · simp [tput, hk, tget, h.1, ih h.2]

theorem tget_tput_other (d : Nat → α) (t : Table α) (k j : Nat) (v : α) (hj : j ≠ k) : tget d (tput t k v) j = tget d t j := by
  induction t with
  | nil => simp [tput, tget, Ne.symm hj]
  | cons e t ih =>
    by_cases hk : k < e.1
    · simp [tput, hk, tget, Ne.symm hj]
    · by_cases h : e.1 = j
      · rw [tput, if_neg hk, tget, tget, if_pos h, if_pos h]
      · simp [tput, hk, tget, h, ih]

theorem tdel_tput (t : Table α) (k : Nat) (v : α) : tdel (tput t k v) k = tdel t k := by
  induction t with
  | nil => simp [tput, tdel]
  | cons e t ih =>
    by_cases hk : k < e.1
    · simp [tput, hk, tdel]
    · by_cases h : e.1 = k
      · subst h; simp [tput, tdel, ih]
      · simp [tput, hk, tdel, h, ih]

theorem tdel_tdel (t : Table α) (k : Nat) : tdel (tdel t k) k = tdel t k := tdel_of_absent _ _ (absent_tdel t k)

variable [DecidableEq α]

/-- What a key holds after it has been set. -/
@[simp] theorem tget_tset_same (d : Nat → α) (t : Table α) (k : Nat) (v : α) : tget d (tset d t k v) k = v := by
  unfold tset
  split
  · next h => rw [tget_tdel_same, h]
  · exact tget_tput_same d _ k v (absent_tdel t k)

/-- Other keys keep what they hold. -/
theorem tget_tset_other (d : Nat → α) (t : Table α) (k j : Nat) (v : α) (hj : j ≠ k) : tget d (tset d t k v) j = tget d t j := by
  unfold tset
  split
  · exact tget_tdel_other d t k j hj
  · rw [tget_tput_other d _ k j v hj, tget_tdel_other d t k j hj]

/-- What a key holds after some key has been set. -/
theorem tget_tset (d : Nat → α) (t : Table α) (k j : Nat) (v : α) : tget d (tset d t k v) j = if j = k then v else tget d t j := by
  split
  · next h => rw [h, tget_tset_same]
  · next h => exact tget_tset_other d t k j v h

/-- Setting a key twice is setting it once. -/
@[simp] theorem tset_tset (d : Nat → α) (t : Table α) (k : Nat) (v w : α) : tset d (tset d t k v) k w = tset d t k w := by
  have h : tdel (tset d t k v) k = tdel t k := by
    unfold tset
    split
    · exact tdel_tdel t k
    · rw [tdel_tput, tdel_tdel]
  unfold tset at *
  rw [h]

end

section
variable {α : Type} [DecidableEq α] (d : Nat → α)

/-- The bound below the keys of a canonical table may be lowered. -/
theorem twfFrom_mono (t : Table α) (lo lo' : Option Nat) (h : ∀ x, lo' = some x → ∃ y, lo = some y ∧ x ≤ y) :
    twfFrom d lo t = true → twfFrom d lo' t = true := by
  cases t with
  | nil => intro _; rfl
  | cons e t =>
    intro hw
    simp only [twfFrom, Bool.and_eq_true, decide_eq_true_eq] at hw ⊢
    refine ⟨⟨?_, hw.1.2⟩, hw.2⟩
    cases lo' with
    | none => rfl
    | some x =>
      obtain ⟨y, hy, hxy⟩ := h x rfl
      subst hy
      have := hw.1.1
      simp only [decide_eq_true_eq] at this ⊢
      omega

theorem twfFrom_none (t : Table α) (lo : Option Nat) (h : twfFrom d lo t = true) : twfFrom d none t = true :=
  twfFrom_mono d t lo none (fun _ hx => absurd hx (by simp)) h

/-- The tail of a canonical table has keys above its head. -/
theorem twfFrom_tail (e : Nat × α) (t : Table α) (lo : Option Nat) (h : twfFrom d lo (e :: t) = true) : twfFrom d (some e.1) t = true := by
  simp only [twfFrom, Bool.and_eq_true] at h
  exact h.2

theorem twfFrom_tdel (t : Table α) (lo : Option Nat) (k : Nat) : twfFrom d lo t = true → twfFrom d lo (tdel t k) = true := by
  induction t generalizing lo with
  | nil => intro _; rfl
  | cons e t ih =>
    intro hw
    by_cases h : e.1 = k
    · simp only [tdel, h, if_true]
      apply ih
      refine twfFrom_mono d t (some e.1) lo ?_ (twfFrom_tail d e t lo hw)
      intro x hx
      subst hx
      simp only [twfFrom, Bool.and_eq_true, decide_eq_true_eq] at hw
      exact ⟨e.1, rfl, by omega⟩
    · simp only [tdel, h, if_false]
      simp only [twfFrom, Bool.and_eq_true] at hw ⊢
      exact ⟨hw.1, ih _ hw.2⟩

theorem twfFrom_tput (t : Table α) (lo : Option Nat) (k : Nat) (v : α) (hv : v ≠ d k) (hlo : ∀ x, lo = some x → x < k) (ha : absent k t) :
    twfFrom d lo t = true → twfFrom d lo (tput t k v) = true := by
  induction t generalizing lo with
  | nil =>
    intro _
    simp only [tput, twfFrom, Bool.and_eq_true, decide_eq_true_eq, Bool.and_true]
    refine ⟨?_, hv⟩
    cases lo with
    | none => rfl
    | some x => simpa using hlo x rfl
  | cons e t ih =>
    intro hw
    by_cases hk : k < e.1
    · simp only [tput, hk, if_true]
      simp only [twfFrom, Bool.and_eq_true, decide_eq_true_eq] at hw ⊢
      refine ⟨⟨?_, hv⟩, ⟨?_, hw.1.2⟩, hw.2⟩
      · cases lo with
        | none => rfl
        | some x => simpa using hlo x rfl
      · exact hk
    · simp only [tput, hk, if_false]
      simp only [twfFrom, Bool.and_eq_true] at hw ⊢
      refine ⟨hw.1, ih _ ?_ ha.2 hw.2⟩
      intro x hx
      simp only [Option.some.injEq] at hx
      have := ha.1
      omega

/-- Setting a key keeps the canonical form. -/
theorem twf_tset (t : Table α) (k : Nat) (v : α) (h : twf d t = true) : twf d (tset d t k v) = true := by
  unfold tset
  split
  · exact twfFrom_tdel d t none k h
  · next hv =>
    exact twfFrom_tput d _ none k v hv (fun _ hx => absurd hx (by simp)) (absent_tdel t k) (twfFrom_tdel d t none k h)

/-- Keeping some entries of a canonical table keeps the form. -/
theorem twf_filter (p : Nat × α → Bool) (t : Table α) (h : twf d t = true) : twf d (t.filter p) = true := by
  suffices ∀ lo, twfFrom d lo t = true → twfFrom d lo (t.filter p) = true from this none h
  clear h
  induction t with
  | nil => intro _ _; rfl
  | cons e t ih =>
    intro lo hw
    by_cases hp : p e = true
    · simp only [List.filter_cons, hp, if_true]
      simp only [twfFrom, Bool.and_eq_true] at hw ⊢
      exact ⟨hw.1, ih _ hw.2⟩
    · simp only [List.filter_cons, hp]
      refine ih lo (twfFrom_mono d t (some e.1) lo ?_ (twfFrom_tail d e t lo hw))
      intro x hx
      subst hx
      simp only [twfFrom, Bool.and_eq_true, decide_eq_true_eq] at hw
      exact ⟨e.1, rfl, by omega⟩

end

end Sys2Proof
end

