-- ==== Sys2Proof/Laws/State.lean ====
section
/-! SUPPORT. What each update of the state leaves and changes, field by field. -/
namespace Sys2Proof.Machine

@[simp] theorem State.setR32_pending (s : State) (a v : Nat) : (s.setR32 a v).pending = s.pending := rfl
@[simp] theorem State.setR32_creg (s : State) (a v : Nat) : (s.setR32 a v).creg = tset regReset s.creg a (BitVec.ofNat 32 v) := rfl
@[simp] theorem State.setR32_mem (s : State) (a v : Nat) : (s.setR32 a v).mem = s.mem := rfl
@[simp] theorem State.setR32_flaw (s : State) (a v : Nat) : (s.setR32 a v).flaw = s.flaw := rfl
@[simp] theorem State.setR32_lineErr (s : State) (a v : Nat) : (s.setR32 a v).lineErr = s.lineErr := rfl
@[simp] theorem State.setR32_micro (s : State) (a v : Nat) : (s.setR32 a v).micro = s.micro := rfl
@[simp] theorem State.setR32_microGen (s : State) (a v : Nat) : (s.setR32 a v).microGen = s.microGen := rfl
@[simp] theorem State.setR32_cores (s : State) (a v : Nat) : (s.setR32 a v).cores = s.cores := rfl
@[simp] theorem State.setR32_seqs (s : State) (a v : Nat) : (s.setR32 a v).seqs = s.seqs := rfl
@[simp] theorem State.setR32_timers (s : State) (a v : Nat) : (s.setR32 a v).timers = s.timers := rfl
@[simp] theorem State.setR32_samples (s : State) (a v : Nat) : (s.setR32 a v).samples = s.samples := rfl
@[simp] theorem State.setR32_mcq (s : State) (a v : Nat) : (s.setR32 a v).mcq = s.mcq := rfl
@[simp] theorem State.setR32_banks (s : State) (a v : Nat) : (s.setR32 a v).banks = s.banks := rfl
@[simp] theorem State.setR32_memStacks (s : State) (a v : Nat) : (s.setR32 a v).memStacks = s.memStacks := rfl
@[simp] theorem State.setR32_packets (s : State) (a v : Nat) : (s.setR32 a v).packets = s.packets := rfl
@[simp] theorem State.setR32_nextTag (s : State) (a v : Nat) : (s.setR32 a v).nextTag = s.nextTag := rfl
@[simp] theorem State.setR32_resps (s : State) (a v : Nat) : (s.setR32 a v).resps = s.resps := rfl
@[simp] theorem State.setR32_routes (s : State) (a v : Nat) : (s.setR32 a v).routes = s.routes := rfl
@[simp] theorem State.setR32_routeBank (s : State) (a v : Nat) : (s.setR32 a v).routeBank = s.routeBank := rfl
@[simp] theorem State.setR32_replays (s : State) (a v : Nat) : (s.setR32 a v).replays = s.replays := rfl
@[simp] theorem State.setR32_traceQ (s : State) (a v : Nat) : (s.setR32 a v).traceQ = s.traceQ := rfl
@[simp] theorem State.setR32_tokens (s : State) (a v : Nat) : (s.setR32 a v).tokens = s.tokens := rfl
@[simp] theorem State.setR32_dir (s : State) (a v : Nat) : (s.setR32 a v).dir = s.dir := rfl
@[simp] theorem State.setR32_dirBusy (s : State) (a v : Nat) : (s.setR32 a v).dirBusy = s.dirBusy := rfl
@[simp] theorem State.setR32_arr (s : State) (a v : Nat) : (s.setR32 a v).arr = s.arr := rfl
@[simp] theorem State.setR32_halves (s : State) (a v : Nat) : (s.setR32 a v).halves = s.halves := rfl
@[simp] theorem State.setR32_sys (s : State) (a v : Nat) : (s.setR32 a v).sys = s.sys := rfl
@[simp] theorem State.setR32_router (s : State) (a v : Nat) : (s.setR32 a v).router = s.router := rfl
@[simp] theorem State.setR32_fab (s : State) (a v : Nat) : (s.setR32 a v).fab = s.fab := rfl
@[simp] theorem State.setR32_host (s : State) (a v : Nat) : (s.setR32 a v).host = s.host := rfl
@[simp] theorem State.setR32_power (s : State) (a v : Nat) : (s.setR32 a v).power = s.power := rfl
@[simp] theorem State.setR32_time (s : State) (a v : Nat) : (s.setR32 a v).time = s.time := rfl
@[simp] theorem State.setR32_boot (s : State) (a v : Nat) : (s.setR32 a v).boot = s.boot := rfl
@[simp] theorem State.setR32_sec (s : State) (a v : Nat) : (s.setR32 a v).sec = s.sec := rfl
@[simp] theorem State.setR32_dict (s : State) (a v : Nat) : (s.setR32 a v).dict = s.dict := rfl
@[simp] theorem State.setR32_laneTimes (s : State) (a v : Nat) : (s.setR32 a v).laneTimes = s.laneTimes := rfl
@[simp] theorem State.setR32_epoch (s : State) (a v : Nat) : (s.setR32 a v).epoch = s.epoch := rfl
@[simp] theorem State.setR32_errlog (s : State) (a v : Nat) : (s.setR32 a v).errlog = s.errlog := rfl
@[simp] theorem State.setR32_errLast (s : State) (a v : Nat) : (s.setR32 a v).errLast = s.errLast := rfl
@[simp] theorem State.setR32_errq (s : State) (a v : Nat) : (s.setR32 a v).errq = s.errq := rfl
@[simp] theorem State.setR32_flogDue (s : State) (a v : Nat) : (s.setR32 a v).flogDue = s.flogDue := rfl
@[simp] theorem State.setR32_acts (s : State) (a v : Nat) : (s.setR32 a v).acts = s.acts := rfl
@[simp] theorem State.setR32_maps (s : State) (a v : Nat) : (s.setR32 a v).maps = s.maps := rfl
@[simp] theorem State.setR32_mapDue (s : State) (a v : Nat) : (s.setR32 a v).mapDue = s.mapDue := rfl
@[simp] theorem State.setR32_now (s : State) (a v : Nat) : (s.setR32 a v).now = s.now := rfl
@[simp] theorem State.setR32_frac (s : State) (a v : Nat) : (s.setR32 a v).frac = s.frac := rfl
@[simp] theorem State.setR32_ran (s : State) (a v : Nat) : (s.setR32 a v).ran = s.ran := rfl
@[simp] theorem State.setR32_free (s : State) (a v : Nat) : (s.setR32 a v).free = s.free := rfl

@[simp] theorem State.setCore_pending (s : State) (c : Nat) (k : Core) : (s.setCore c k).pending = s.pending := rfl
@[simp] theorem State.setCore_creg (s : State) (c : Nat) (k : Core) : (s.setCore c k).creg = s.creg := rfl
@[simp] theorem State.setCore_mem (s : State) (c : Nat) (k : Core) : (s.setCore c k).mem = s.mem := rfl
@[simp] theorem State.setCore_flaw (s : State) (c : Nat) (k : Core) : (s.setCore c k).flaw = s.flaw := rfl
@[simp] theorem State.setCore_lineErr (s : State) (c : Nat) (k : Core) : (s.setCore c k).lineErr = s.lineErr := rfl
@[simp] theorem State.setCore_micro (s : State) (c : Nat) (k : Core) : (s.setCore c k).micro = s.micro := rfl
@[simp] theorem State.setCore_microGen (s : State) (c : Nat) (k : Core) : (s.setCore c k).microGen = s.microGen := rfl
@[simp] theorem State.setCore_cores (s : State) (c : Nat) (k : Core) : (s.setCore c k).cores = tset (konst Core.reset) s.cores c k := rfl
@[simp] theorem State.setCore_seqs (s : State) (c : Nat) (k : Core) : (s.setCore c k).seqs = s.seqs := rfl
@[simp] theorem State.setCore_timers (s : State) (c : Nat) (k : Core) : (s.setCore c k).timers = s.timers := rfl
@[simp] theorem State.setCore_samples (s : State) (c : Nat) (k : Core) : (s.setCore c k).samples = s.samples := rfl
@[simp] theorem State.setCore_mcq (s : State) (c : Nat) (k : Core) : (s.setCore c k).mcq = s.mcq := rfl
@[simp] theorem State.setCore_banks (s : State) (c : Nat) (k : Core) : (s.setCore c k).banks = s.banks := rfl
@[simp] theorem State.setCore_memStacks (s : State) (c : Nat) (k : Core) : (s.setCore c k).memStacks = s.memStacks := rfl
@[simp] theorem State.setCore_packets (s : State) (c : Nat) (k : Core) : (s.setCore c k).packets = s.packets := rfl
@[simp] theorem State.setCore_nextTag (s : State) (c : Nat) (k : Core) : (s.setCore c k).nextTag = s.nextTag := rfl
@[simp] theorem State.setCore_resps (s : State) (c : Nat) (k : Core) : (s.setCore c k).resps = s.resps := rfl
@[simp] theorem State.setCore_routes (s : State) (c : Nat) (k : Core) : (s.setCore c k).routes = s.routes := rfl
@[simp] theorem State.setCore_routeBank (s : State) (c : Nat) (k : Core) : (s.setCore c k).routeBank = s.routeBank := rfl
@[simp] theorem State.setCore_replays (s : State) (c : Nat) (k : Core) : (s.setCore c k).replays = s.replays := rfl
@[simp] theorem State.setCore_traceQ (s : State) (c : Nat) (k : Core) : (s.setCore c k).traceQ = s.traceQ := rfl
@[simp] theorem State.setCore_tokens (s : State) (c : Nat) (k : Core) : (s.setCore c k).tokens = s.tokens := rfl
@[simp] theorem State.setCore_dir (s : State) (c : Nat) (k : Core) : (s.setCore c k).dir = s.dir := rfl
@[simp] theorem State.setCore_dirBusy (s : State) (c : Nat) (k : Core) : (s.setCore c k).dirBusy = s.dirBusy := rfl
@[simp] theorem State.setCore_arr (s : State) (c : Nat) (k : Core) : (s.setCore c k).arr = s.arr := rfl
@[simp] theorem State.setCore_halves (s : State) (c : Nat) (k : Core) : (s.setCore c k).halves = s.halves := rfl
@[simp] theorem State.setCore_sys (s : State) (c : Nat) (k : Core) : (s.setCore c k).sys = s.sys := rfl
@[simp] theorem State.setCore_router (s : State) (c : Nat) (k : Core) : (s.setCore c k).router = s.router := rfl
@[simp] theorem State.setCore_fab (s : State) (c : Nat) (k : Core) : (s.setCore c k).fab = s.fab := rfl
@[simp] theorem State.setCore_host (s : State) (c : Nat) (k : Core) : (s.setCore c k).host = s.host := rfl
@[simp] theorem State.setCore_power (s : State) (c : Nat) (k : Core) : (s.setCore c k).power = s.power := rfl
@[simp] theorem State.setCore_time (s : State) (c : Nat) (k : Core) : (s.setCore c k).time = s.time := rfl
@[simp] theorem State.setCore_boot (s : State) (c : Nat) (k : Core) : (s.setCore c k).boot = s.boot := rfl
@[simp] theorem State.setCore_sec (s : State) (c : Nat) (k : Core) : (s.setCore c k).sec = s.sec := rfl
@[simp] theorem State.setCore_dict (s : State) (c : Nat) (k : Core) : (s.setCore c k).dict = s.dict := rfl
@[simp] theorem State.setCore_laneTimes (s : State) (c : Nat) (k : Core) : (s.setCore c k).laneTimes = s.laneTimes := rfl
@[simp] theorem State.setCore_epoch (s : State) (c : Nat) (k : Core) : (s.setCore c k).epoch = s.epoch := rfl
@[simp] theorem State.setCore_errlog (s : State) (c : Nat) (k : Core) : (s.setCore c k).errlog = s.errlog := rfl
@[simp] theorem State.setCore_errLast (s : State) (c : Nat) (k : Core) : (s.setCore c k).errLast = s.errLast := rfl
@[simp] theorem State.setCore_errq (s : State) (c : Nat) (k : Core) : (s.setCore c k).errq = s.errq := rfl
@[simp] theorem State.setCore_flogDue (s : State) (c : Nat) (k : Core) : (s.setCore c k).flogDue = s.flogDue := rfl
@[simp] theorem State.setCore_acts (s : State) (c : Nat) (k : Core) : (s.setCore c k).acts = s.acts := rfl
@[simp] theorem State.setCore_maps (s : State) (c : Nat) (k : Core) : (s.setCore c k).maps = s.maps := rfl
@[simp] theorem State.setCore_mapDue (s : State) (c : Nat) (k : Core) : (s.setCore c k).mapDue = s.mapDue := rfl
@[simp] theorem State.setCore_now (s : State) (c : Nat) (k : Core) : (s.setCore c k).now = s.now := rfl
@[simp] theorem State.setCore_frac (s : State) (c : Nat) (k : Core) : (s.setCore c k).frac = s.frac := rfl
@[simp] theorem State.setCore_ran (s : State) (c : Nat) (k : Core) : (s.setCore c k).ran = s.ran := rfl
@[simp] theorem State.setCore_free (s : State) (c : Nat) (k : Core) : (s.setCore c k).free = s.free := rfl

@[simp] theorem State.setSeq_pending (s : State) (q : Nat) (k : Seq) : (s.setSeq q k).pending = s.pending := rfl
@[simp] theorem State.setSeq_creg (s : State) (q : Nat) (k : Seq) : (s.setSeq q k).creg = s.creg := rfl
@[simp] theorem State.setSeq_mem (s : State) (q : Nat) (k : Seq) : (s.setSeq q k).mem = s.mem := rfl
@[simp] theorem State.setSeq_flaw (s : State) (q : Nat) (k : Seq) : (s.setSeq q k).flaw = s.flaw := rfl
@[simp] theorem State.setSeq_lineErr (s : State) (q : Nat) (k : Seq) : (s.setSeq q k).lineErr = s.lineErr := rfl
@[simp] theorem State.setSeq_micro (s : State) (q : Nat) (k : Seq) : (s.setSeq q k).micro = s.micro := rfl
@[simp] theorem State.setSeq_microGen (s : State) (q : Nat) (k : Seq) : (s.setSeq q k).microGen = s.microGen := rfl
@[simp] theorem State.setSeq_cores (s : State) (q : Nat) (k : Seq) : (s.setSeq q k).cores = s.cores := rfl
@[simp] theorem State.setSeq_seqs (s : State) (q : Nat) (k : Seq) : (s.setSeq q k).seqs = tset (konst Seq.reset) s.seqs q k := rfl
@[simp] theorem State.setSeq_timers (s : State) (q : Nat) (k : Seq) : (s.setSeq q k).timers = s.timers := rfl
@[simp] theorem State.setSeq_samples (s : State) (q : Nat) (k : Seq) : (s.setSeq q k).samples = s.samples := rfl
@[simp] theorem State.setSeq_mcq (s : State) (q : Nat) (k : Seq) : (s.setSeq q k).mcq = s.mcq := rfl
@[simp] theorem State.setSeq_banks (s : State) (q : Nat) (k : Seq) : (s.setSeq q k).banks = s.banks := rfl
@[simp] theorem State.setSeq_memStacks (s : State) (q : Nat) (k : Seq) : (s.setSeq q k).memStacks = s.memStacks := rfl
@[simp] theorem State.setSeq_packets (s : State) (q : Nat) (k : Seq) : (s.setSeq q k).packets = s.packets := rfl
@[simp] theorem State.setSeq_nextTag (s : State) (q : Nat) (k : Seq) : (s.setSeq q k).nextTag = s.nextTag := rfl
@[simp] theorem State.setSeq_resps (s : State) (q : Nat) (k : Seq) : (s.setSeq q k).resps = s.resps := rfl
@[simp] theorem State.setSeq_routes (s : State) (q : Nat) (k : Seq) : (s.setSeq q k).routes = s.routes := rfl
@[simp] theorem State.setSeq_routeBank (s : State) (q : Nat) (k : Seq) : (s.setSeq q k).routeBank = s.routeBank := rfl
@[simp] theorem State.setSeq_replays (s : State) (q : Nat) (k : Seq) : (s.setSeq q k).replays = s.replays := rfl
@[simp] theorem State.setSeq_traceQ (s : State) (q : Nat) (k : Seq) : (s.setSeq q k).traceQ = s.traceQ := rfl
@[simp] theorem State.setSeq_tokens (s : State) (q : Nat) (k : Seq) : (s.setSeq q k).tokens = s.tokens := rfl
@[simp] theorem State.setSeq_dir (s : State) (q : Nat) (k : Seq) : (s.setSeq q k).dir = s.dir := rfl
@[simp] theorem State.setSeq_dirBusy (s : State) (q : Nat) (k : Seq) : (s.setSeq q k).dirBusy = s.dirBusy := rfl
@[simp] theorem State.setSeq_arr (s : State) (q : Nat) (k : Seq) : (s.setSeq q k).arr = s.arr := rfl
@[simp] theorem State.setSeq_halves (s : State) (q : Nat) (k : Seq) : (s.setSeq q k).halves = s.halves := rfl
@[simp] theorem State.setSeq_sys (s : State) (q : Nat) (k : Seq) : (s.setSeq q k).sys = s.sys := rfl
@[simp] theorem State.setSeq_router (s : State) (q : Nat) (k : Seq) : (s.setSeq q k).router = s.router := rfl
@[simp] theorem State.setSeq_fab (s : State) (q : Nat) (k : Seq) : (s.setSeq q k).fab = s.fab := rfl
@[simp] theorem State.setSeq_host (s : State) (q : Nat) (k : Seq) : (s.setSeq q k).host = s.host := rfl
@[simp] theorem State.setSeq_power (s : State) (q : Nat) (k : Seq) : (s.setSeq q k).power = s.power := rfl
@[simp] theorem State.setSeq_time (s : State) (q : Nat) (k : Seq) : (s.setSeq q k).time = s.time := rfl
@[simp] theorem State.setSeq_boot (s : State) (q : Nat) (k : Seq) : (s.setSeq q k).boot = s.boot := rfl
@[simp] theorem State.setSeq_sec (s : State) (q : Nat) (k : Seq) : (s.setSeq q k).sec = s.sec := rfl
@[simp] theorem State.setSeq_dict (s : State) (q : Nat) (k : Seq) : (s.setSeq q k).dict = s.dict := rfl
@[simp] theorem State.setSeq_laneTimes (s : State) (q : Nat) (k : Seq) : (s.setSeq q k).laneTimes = s.laneTimes := rfl
@[simp] theorem State.setSeq_epoch (s : State) (q : Nat) (k : Seq) : (s.setSeq q k).epoch = s.epoch := rfl
@[simp] theorem State.setSeq_errlog (s : State) (q : Nat) (k : Seq) : (s.setSeq q k).errlog = s.errlog := rfl
@[simp] theorem State.setSeq_errLast (s : State) (q : Nat) (k : Seq) : (s.setSeq q k).errLast = s.errLast := rfl
@[simp] theorem State.setSeq_errq (s : State) (q : Nat) (k : Seq) : (s.setSeq q k).errq = s.errq := rfl
@[simp] theorem State.setSeq_flogDue (s : State) (q : Nat) (k : Seq) : (s.setSeq q k).flogDue = s.flogDue := rfl
@[simp] theorem State.setSeq_acts (s : State) (q : Nat) (k : Seq) : (s.setSeq q k).acts = s.acts := rfl
@[simp] theorem State.setSeq_maps (s : State) (q : Nat) (k : Seq) : (s.setSeq q k).maps = s.maps := rfl
@[simp] theorem State.setSeq_mapDue (s : State) (q : Nat) (k : Seq) : (s.setSeq q k).mapDue = s.mapDue := rfl
@[simp] theorem State.setSeq_now (s : State) (q : Nat) (k : Seq) : (s.setSeq q k).now = s.now := rfl
@[simp] theorem State.setSeq_frac (s : State) (q : Nat) (k : Seq) : (s.setSeq q k).frac = s.frac := rfl
@[simp] theorem State.setSeq_ran (s : State) (q : Nat) (k : Seq) : (s.setSeq q k).ran = s.ran := rfl
@[simp] theorem State.setSeq_free (s : State) (q : Nat) (k : Seq) : (s.setSeq q k).free = s.free := rfl

@[simp] theorem State.setBank_pending (s : State) (b : Nat) (k : Bank) : (s.setBank b k).pending = s.pending := rfl
@[simp] theorem State.setBank_creg (s : State) (b : Nat) (k : Bank) : (s.setBank b k).creg = s.creg := rfl
@[simp] theorem State.setBank_mem (s : State) (b : Nat) (k : Bank) : (s.setBank b k).mem = s.mem := rfl
@[simp] theorem State.setBank_flaw (s : State) (b : Nat) (k : Bank) : (s.setBank b k).flaw = s.flaw := rfl
@[simp] theorem State.setBank_lineErr (s : State) (b : Nat) (k : Bank) : (s.setBank b k).lineErr = s.lineErr := rfl
@[simp] theorem State.setBank_micro (s : State) (b : Nat) (k : Bank) : (s.setBank b k).micro = s.micro := rfl
@[simp] theorem State.setBank_microGen (s : State) (b : Nat) (k : Bank) : (s.setBank b k).microGen = s.microGen := rfl
@[simp] theorem State.setBank_cores (s : State) (b : Nat) (k : Bank) : (s.setBank b k).cores = s.cores := rfl
@[simp] theorem State.setBank_seqs (s : State) (b : Nat) (k : Bank) : (s.setBank b k).seqs = s.seqs := rfl
@[simp] theorem State.setBank_timers (s : State) (b : Nat) (k : Bank) : (s.setBank b k).timers = s.timers := rfl
@[simp] theorem State.setBank_samples (s : State) (b : Nat) (k : Bank) : (s.setBank b k).samples = s.samples := rfl
@[simp] theorem State.setBank_mcq (s : State) (b : Nat) (k : Bank) : (s.setBank b k).mcq = s.mcq := rfl
@[simp] theorem State.setBank_banks (s : State) (b : Nat) (k : Bank) : (s.setBank b k).banks = tset (konst Bank.reset) s.banks b k := rfl
@[simp] theorem State.setBank_memStacks (s : State) (b : Nat) (k : Bank) : (s.setBank b k).memStacks = s.memStacks := rfl
@[simp] theorem State.setBank_packets (s : State) (b : Nat) (k : Bank) : (s.setBank b k).packets = s.packets := rfl
@[simp] theorem State.setBank_nextTag (s : State) (b : Nat) (k : Bank) : (s.setBank b k).nextTag = s.nextTag := rfl
@[simp] theorem State.setBank_resps (s : State) (b : Nat) (k : Bank) : (s.setBank b k).resps = s.resps := rfl
@[simp] theorem State.setBank_routes (s : State) (b : Nat) (k : Bank) : (s.setBank b k).routes = s.routes := rfl
@[simp] theorem State.setBank_routeBank (s : State) (b : Nat) (k : Bank) : (s.setBank b k).routeBank = s.routeBank := rfl
@[simp] theorem State.setBank_replays (s : State) (b : Nat) (k : Bank) : (s.setBank b k).replays = s.replays := rfl
@[simp] theorem State.setBank_traceQ (s : State) (b : Nat) (k : Bank) : (s.setBank b k).traceQ = s.traceQ := rfl
@[simp] theorem State.setBank_tokens (s : State) (b : Nat) (k : Bank) : (s.setBank b k).tokens = s.tokens := rfl
@[simp] theorem State.setBank_dir (s : State) (b : Nat) (k : Bank) : (s.setBank b k).dir = s.dir := rfl
@[simp] theorem State.setBank_dirBusy (s : State) (b : Nat) (k : Bank) : (s.setBank b k).dirBusy = s.dirBusy := rfl
@[simp] theorem State.setBank_arr (s : State) (b : Nat) (k : Bank) : (s.setBank b k).arr = s.arr := rfl
@[simp] theorem State.setBank_halves (s : State) (b : Nat) (k : Bank) : (s.setBank b k).halves = s.halves := rfl
@[simp] theorem State.setBank_sys (s : State) (b : Nat) (k : Bank) : (s.setBank b k).sys = s.sys := rfl
@[simp] theorem State.setBank_router (s : State) (b : Nat) (k : Bank) : (s.setBank b k).router = s.router := rfl
@[simp] theorem State.setBank_fab (s : State) (b : Nat) (k : Bank) : (s.setBank b k).fab = s.fab := rfl
@[simp] theorem State.setBank_host (s : State) (b : Nat) (k : Bank) : (s.setBank b k).host = s.host := rfl
@[simp] theorem State.setBank_power (s : State) (b : Nat) (k : Bank) : (s.setBank b k).power = s.power := rfl
@[simp] theorem State.setBank_time (s : State) (b : Nat) (k : Bank) : (s.setBank b k).time = s.time := rfl
@[simp] theorem State.setBank_boot (s : State) (b : Nat) (k : Bank) : (s.setBank b k).boot = s.boot := rfl
@[simp] theorem State.setBank_sec (s : State) (b : Nat) (k : Bank) : (s.setBank b k).sec = s.sec := rfl
@[simp] theorem State.setBank_dict (s : State) (b : Nat) (k : Bank) : (s.setBank b k).dict = s.dict := rfl
@[simp] theorem State.setBank_laneTimes (s : State) (b : Nat) (k : Bank) : (s.setBank b k).laneTimes = s.laneTimes := rfl
@[simp] theorem State.setBank_epoch (s : State) (b : Nat) (k : Bank) : (s.setBank b k).epoch = s.epoch := rfl
@[simp] theorem State.setBank_errlog (s : State) (b : Nat) (k : Bank) : (s.setBank b k).errlog = s.errlog := rfl
@[simp] theorem State.setBank_errLast (s : State) (b : Nat) (k : Bank) : (s.setBank b k).errLast = s.errLast := rfl
@[simp] theorem State.setBank_errq (s : State) (b : Nat) (k : Bank) : (s.setBank b k).errq = s.errq := rfl
@[simp] theorem State.setBank_flogDue (s : State) (b : Nat) (k : Bank) : (s.setBank b k).flogDue = s.flogDue := rfl
@[simp] theorem State.setBank_acts (s : State) (b : Nat) (k : Bank) : (s.setBank b k).acts = s.acts := rfl
@[simp] theorem State.setBank_maps (s : State) (b : Nat) (k : Bank) : (s.setBank b k).maps = s.maps := rfl
@[simp] theorem State.setBank_mapDue (s : State) (b : Nat) (k : Bank) : (s.setBank b k).mapDue = s.mapDue := rfl
@[simp] theorem State.setBank_now (s : State) (b : Nat) (k : Bank) : (s.setBank b k).now = s.now := rfl
@[simp] theorem State.setBank_frac (s : State) (b : Nat) (k : Bank) : (s.setBank b k).frac = s.frac := rfl
@[simp] theorem State.setBank_ran (s : State) (b : Nat) (k : Bank) : (s.setBank b k).ran = s.ran := rfl
@[simp] theorem State.setBank_free (s : State) (b : Nat) (k : Bank) : (s.setBank b k).free = s.free := rfl

@[simp] theorem State.setByte_pending (s : State) (a : Nat) (v : Byte) : (s.setByte a v).pending = s.pending := rfl
@[simp] theorem State.setByte_creg (s : State) (a : Nat) (v : Byte) : (s.setByte a v).creg = s.creg := rfl
@[simp] theorem State.setByte_mem (s : State) (a : Nat) (v : Byte) : (s.setByte a v).mem = tset memDefault s.mem a v := rfl
@[simp] theorem State.setByte_flaw (s : State) (a : Nat) (v : Byte) : (s.setByte a v).flaw = s.flaw := rfl
@[simp] theorem State.setByte_lineErr (s : State) (a : Nat) (v : Byte) : (s.setByte a v).lineErr = s.lineErr := rfl
@[simp] theorem State.setByte_micro (s : State) (a : Nat) (v : Byte) : (s.setByte a v).micro = s.micro := rfl
@[simp] theorem State.setByte_microGen (s : State) (a : Nat) (v : Byte) : (s.setByte a v).microGen = s.microGen := rfl
@[simp] theorem State.setByte_cores (s : State) (a : Nat) (v : Byte) : (s.setByte a v).cores = s.cores := rfl
@[simp] theorem State.setByte_seqs (s : State) (a : Nat) (v : Byte) : (s.setByte a v).seqs = s.seqs := rfl
@[simp] theorem State.setByte_timers (s : State) (a : Nat) (v : Byte) : (s.setByte a v).timers = s.timers := rfl
@[simp] theorem State.setByte_samples (s : State) (a : Nat) (v : Byte) : (s.setByte a v).samples = s.samples := rfl
@[simp] theorem State.setByte_mcq (s : State) (a : Nat) (v : Byte) : (s.setByte a v).mcq = s.mcq := rfl
@[simp] theorem State.setByte_banks (s : State) (a : Nat) (v : Byte) : (s.setByte a v).banks = s.banks := rfl
@[simp] theorem State.setByte_memStacks (s : State) (a : Nat) (v : Byte) : (s.setByte a v).memStacks = s.memStacks := rfl
@[simp] theorem State.setByte_packets (s : State) (a : Nat) (v : Byte) : (s.setByte a v).packets = s.packets := rfl
@[simp] theorem State.setByte_nextTag (s : State) (a : Nat) (v : Byte) : (s.setByte a v).nextTag = s.nextTag := rfl
@[simp] theorem State.setByte_resps (s : State) (a : Nat) (v : Byte) : (s.setByte a v).resps = s.resps := rfl
@[simp] theorem State.setByte_routes (s : State) (a : Nat) (v : Byte) : (s.setByte a v).routes = s.routes := rfl
@[simp] theorem State.setByte_routeBank (s : State) (a : Nat) (v : Byte) : (s.setByte a v).routeBank = s.routeBank := rfl
@[simp] theorem State.setByte_replays (s : State) (a : Nat) (v : Byte) : (s.setByte a v).replays = s.replays := rfl
@[simp] theorem State.setByte_traceQ (s : State) (a : Nat) (v : Byte) : (s.setByte a v).traceQ = s.traceQ := rfl
@[simp] theorem State.setByte_tokens (s : State) (a : Nat) (v : Byte) : (s.setByte a v).tokens = s.tokens := rfl
@[simp] theorem State.setByte_dir (s : State) (a : Nat) (v : Byte) : (s.setByte a v).dir = s.dir := rfl
@[simp] theorem State.setByte_dirBusy (s : State) (a : Nat) (v : Byte) : (s.setByte a v).dirBusy = s.dirBusy := rfl
@[simp] theorem State.setByte_arr (s : State) (a : Nat) (v : Byte) : (s.setByte a v).arr = s.arr := rfl
@[simp] theorem State.setByte_halves (s : State) (a : Nat) (v : Byte) : (s.setByte a v).halves = s.halves := rfl
@[simp] theorem State.setByte_sys (s : State) (a : Nat) (v : Byte) : (s.setByte a v).sys = s.sys := rfl
@[simp] theorem State.setByte_router (s : State) (a : Nat) (v : Byte) : (s.setByte a v).router = s.router := rfl
@[simp] theorem State.setByte_fab (s : State) (a : Nat) (v : Byte) : (s.setByte a v).fab = s.fab := rfl
@[simp] theorem State.setByte_host (s : State) (a : Nat) (v : Byte) : (s.setByte a v).host = s.host := rfl
@[simp] theorem State.setByte_power (s : State) (a : Nat) (v : Byte) : (s.setByte a v).power = s.power := rfl
@[simp] theorem State.setByte_time (s : State) (a : Nat) (v : Byte) : (s.setByte a v).time = s.time := rfl
@[simp] theorem State.setByte_boot (s : State) (a : Nat) (v : Byte) : (s.setByte a v).boot = s.boot := rfl
@[simp] theorem State.setByte_sec (s : State) (a : Nat) (v : Byte) : (s.setByte a v).sec = s.sec := rfl
@[simp] theorem State.setByte_dict (s : State) (a : Nat) (v : Byte) : (s.setByte a v).dict = s.dict := rfl
@[simp] theorem State.setByte_laneTimes (s : State) (a : Nat) (v : Byte) : (s.setByte a v).laneTimes = s.laneTimes := rfl
@[simp] theorem State.setByte_epoch (s : State) (a : Nat) (v : Byte) : (s.setByte a v).epoch = s.epoch := rfl
@[simp] theorem State.setByte_errlog (s : State) (a : Nat) (v : Byte) : (s.setByte a v).errlog = s.errlog := rfl
@[simp] theorem State.setByte_errLast (s : State) (a : Nat) (v : Byte) : (s.setByte a v).errLast = s.errLast := rfl
@[simp] theorem State.setByte_errq (s : State) (a : Nat) (v : Byte) : (s.setByte a v).errq = s.errq := rfl
@[simp] theorem State.setByte_flogDue (s : State) (a : Nat) (v : Byte) : (s.setByte a v).flogDue = s.flogDue := rfl
@[simp] theorem State.setByte_acts (s : State) (a : Nat) (v : Byte) : (s.setByte a v).acts = s.acts := rfl
@[simp] theorem State.setByte_maps (s : State) (a : Nat) (v : Byte) : (s.setByte a v).maps = s.maps := rfl
@[simp] theorem State.setByte_mapDue (s : State) (a : Nat) (v : Byte) : (s.setByte a v).mapDue = s.mapDue := rfl
@[simp] theorem State.setByte_now (s : State) (a : Nat) (v : Byte) : (s.setByte a v).now = s.now := rfl
@[simp] theorem State.setByte_frac (s : State) (a : Nat) (v : Byte) : (s.setByte a v).frac = s.frac := rfl
@[simp] theorem State.setByte_ran (s : State) (a : Nat) (v : Byte) : (s.setByte a v).ran = s.ran := rfl
@[simp] theorem State.setByte_free (s : State) (a : Nat) (v : Byte) : (s.setByte a v).free = s.free := rfl

@[simp] theorem State.modArr_pending (s : State) (f : ArrState → ArrState) : (s.modArr f).pending = s.pending := rfl
@[simp] theorem State.modArr_creg (s : State) (f : ArrState → ArrState) : (s.modArr f).creg = s.creg := rfl
@[simp] theorem State.modArr_mem (s : State) (f : ArrState → ArrState) : (s.modArr f).mem = s.mem := rfl
@[simp] theorem State.modArr_flaw (s : State) (f : ArrState → ArrState) : (s.modArr f).flaw = s.flaw := rfl
@[simp] theorem State.modArr_lineErr (s : State) (f : ArrState → ArrState) : (s.modArr f).lineErr = s.lineErr := rfl
@[simp] theorem State.modArr_micro (s : State) (f : ArrState → ArrState) : (s.modArr f).micro = s.micro := rfl
@[simp] theorem State.modArr_microGen (s : State) (f : ArrState → ArrState) : (s.modArr f).microGen = s.microGen := rfl
@[simp] theorem State.modArr_cores (s : State) (f : ArrState → ArrState) : (s.modArr f).cores = s.cores := rfl
@[simp] theorem State.modArr_seqs (s : State) (f : ArrState → ArrState) : (s.modArr f).seqs = s.seqs := rfl
@[simp] theorem State.modArr_timers (s : State) (f : ArrState → ArrState) : (s.modArr f).timers = s.timers := rfl
@[simp] theorem State.modArr_samples (s : State) (f : ArrState → ArrState) : (s.modArr f).samples = s.samples := rfl
@[simp] theorem State.modArr_mcq (s : State) (f : ArrState → ArrState) : (s.modArr f).mcq = s.mcq := rfl
@[simp] theorem State.modArr_banks (s : State) (f : ArrState → ArrState) : (s.modArr f).banks = s.banks := rfl
@[simp] theorem State.modArr_memStacks (s : State) (f : ArrState → ArrState) : (s.modArr f).memStacks = s.memStacks := rfl
@[simp] theorem State.modArr_packets (s : State) (f : ArrState → ArrState) : (s.modArr f).packets = s.packets := rfl
@[simp] theorem State.modArr_nextTag (s : State) (f : ArrState → ArrState) : (s.modArr f).nextTag = s.nextTag := rfl
@[simp] theorem State.modArr_resps (s : State) (f : ArrState → ArrState) : (s.modArr f).resps = s.resps := rfl
@[simp] theorem State.modArr_routes (s : State) (f : ArrState → ArrState) : (s.modArr f).routes = s.routes := rfl
@[simp] theorem State.modArr_routeBank (s : State) (f : ArrState → ArrState) : (s.modArr f).routeBank = s.routeBank := rfl
@[simp] theorem State.modArr_replays (s : State) (f : ArrState → ArrState) : (s.modArr f).replays = s.replays := rfl
@[simp] theorem State.modArr_traceQ (s : State) (f : ArrState → ArrState) : (s.modArr f).traceQ = s.traceQ := rfl
@[simp] theorem State.modArr_tokens (s : State) (f : ArrState → ArrState) : (s.modArr f).tokens = s.tokens := rfl
@[simp] theorem State.modArr_dir (s : State) (f : ArrState → ArrState) : (s.modArr f).dir = s.dir := rfl
@[simp] theorem State.modArr_dirBusy (s : State) (f : ArrState → ArrState) : (s.modArr f).dirBusy = s.dirBusy := rfl
@[simp] theorem State.modArr_arr (s : State) (f : ArrState → ArrState) : (s.modArr f).arr = f s.arr := rfl
@[simp] theorem State.modArr_halves (s : State) (f : ArrState → ArrState) : (s.modArr f).halves = s.halves := rfl
@[simp] theorem State.modArr_sys (s : State) (f : ArrState → ArrState) : (s.modArr f).sys = s.sys := rfl
@[simp] theorem State.modArr_router (s : State) (f : ArrState → ArrState) : (s.modArr f).router = s.router := rfl
@[simp] theorem State.modArr_fab (s : State) (f : ArrState → ArrState) : (s.modArr f).fab = s.fab := rfl
@[simp] theorem State.modArr_host (s : State) (f : ArrState → ArrState) : (s.modArr f).host = s.host := rfl
@[simp] theorem State.modArr_power (s : State) (f : ArrState → ArrState) : (s.modArr f).power = s.power := rfl
@[simp] theorem State.modArr_time (s : State) (f : ArrState → ArrState) : (s.modArr f).time = s.time := rfl
@[simp] theorem State.modArr_boot (s : State) (f : ArrState → ArrState) : (s.modArr f).boot = s.boot := rfl
@[simp] theorem State.modArr_sec (s : State) (f : ArrState → ArrState) : (s.modArr f).sec = s.sec := rfl
@[simp] theorem State.modArr_dict (s : State) (f : ArrState → ArrState) : (s.modArr f).dict = s.dict := rfl
@[simp] theorem State.modArr_laneTimes (s : State) (f : ArrState → ArrState) : (s.modArr f).laneTimes = s.laneTimes := rfl
@[simp] theorem State.modArr_epoch (s : State) (f : ArrState → ArrState) : (s.modArr f).epoch = s.epoch := rfl
@[simp] theorem State.modArr_errlog (s : State) (f : ArrState → ArrState) : (s.modArr f).errlog = s.errlog := rfl
@[simp] theorem State.modArr_errLast (s : State) (f : ArrState → ArrState) : (s.modArr f).errLast = s.errLast := rfl
@[simp] theorem State.modArr_errq (s : State) (f : ArrState → ArrState) : (s.modArr f).errq = s.errq := rfl
@[simp] theorem State.modArr_flogDue (s : State) (f : ArrState → ArrState) : (s.modArr f).flogDue = s.flogDue := rfl
@[simp] theorem State.modArr_acts (s : State) (f : ArrState → ArrState) : (s.modArr f).acts = s.acts := rfl
@[simp] theorem State.modArr_maps (s : State) (f : ArrState → ArrState) : (s.modArr f).maps = s.maps := rfl
@[simp] theorem State.modArr_mapDue (s : State) (f : ArrState → ArrState) : (s.modArr f).mapDue = s.mapDue := rfl
@[simp] theorem State.modArr_now (s : State) (f : ArrState → ArrState) : (s.modArr f).now = s.now := rfl
@[simp] theorem State.modArr_frac (s : State) (f : ArrState → ArrState) : (s.modArr f).frac = s.frac := rfl
@[simp] theorem State.modArr_ran (s : State) (f : ArrState → ArrState) : (s.modArr f).ran = s.ran := rfl
@[simp] theorem State.modArr_free (s : State) (f : ArrState → ArrState) : (s.modArr f).free = s.free := rfl

@[simp] theorem State.draw_pending (s : State)  : (s.draw).pending = s.pending := rfl
@[simp] theorem State.draw_creg (s : State)  : (s.draw).creg = s.creg := rfl
@[simp] theorem State.draw_mem (s : State)  : (s.draw).mem = s.mem := rfl
@[simp] theorem State.draw_flaw (s : State)  : (s.draw).flaw = s.flaw := rfl
@[simp] theorem State.draw_lineErr (s : State)  : (s.draw).lineErr = s.lineErr := rfl
@[simp] theorem State.draw_micro (s : State)  : (s.draw).micro = s.micro := rfl
@[simp] theorem State.draw_microGen (s : State)  : (s.draw).microGen = s.microGen := rfl
@[simp] theorem State.draw_cores (s : State)  : (s.draw).cores = s.cores := rfl
@[simp] theorem State.draw_seqs (s : State)  : (s.draw).seqs = s.seqs := rfl
@[simp] theorem State.draw_timers (s : State)  : (s.draw).timers = s.timers := rfl
@[simp] theorem State.draw_samples (s : State)  : (s.draw).samples = s.samples := rfl
@[simp] theorem State.draw_mcq (s : State)  : (s.draw).mcq = s.mcq := rfl
@[simp] theorem State.draw_banks (s : State)  : (s.draw).banks = s.banks := rfl
@[simp] theorem State.draw_memStacks (s : State)  : (s.draw).memStacks = s.memStacks := rfl
@[simp] theorem State.draw_packets (s : State)  : (s.draw).packets = s.packets := rfl
@[simp] theorem State.draw_nextTag (s : State)  : (s.draw).nextTag = s.nextTag := rfl
@[simp] theorem State.draw_resps (s : State)  : (s.draw).resps = s.resps := rfl
@[simp] theorem State.draw_routes (s : State)  : (s.draw).routes = s.routes := rfl
@[simp] theorem State.draw_routeBank (s : State)  : (s.draw).routeBank = s.routeBank := rfl
@[simp] theorem State.draw_replays (s : State)  : (s.draw).replays = s.replays := rfl
@[simp] theorem State.draw_traceQ (s : State)  : (s.draw).traceQ = s.traceQ := rfl
@[simp] theorem State.draw_tokens (s : State)  : (s.draw).tokens = s.tokens := rfl
@[simp] theorem State.draw_dir (s : State)  : (s.draw).dir = s.dir := rfl
@[simp] theorem State.draw_dirBusy (s : State)  : (s.draw).dirBusy = s.dirBusy := rfl
@[simp] theorem State.draw_arr (s : State)  : (s.draw).arr = s.arr := rfl
@[simp] theorem State.draw_halves (s : State)  : (s.draw).halves = s.halves := rfl
@[simp] theorem State.draw_sys (s : State)  : (s.draw).sys = s.sys := rfl
@[simp] theorem State.draw_router (s : State)  : (s.draw).router = s.router := rfl
@[simp] theorem State.draw_fab (s : State)  : (s.draw).fab = s.fab := rfl
@[simp] theorem State.draw_host (s : State)  : (s.draw).host = s.host := rfl
@[simp] theorem State.draw_power (s : State)  : (s.draw).power = s.power := rfl
@[simp] theorem State.draw_time (s : State)  : (s.draw).time = s.time := rfl
@[simp] theorem State.draw_boot (s : State)  : (s.draw).boot = s.boot := rfl
@[simp] theorem State.draw_sec (s : State)  : (s.draw).sec = s.sec := rfl
@[simp] theorem State.draw_dict (s : State)  : (s.draw).dict = s.dict := rfl
@[simp] theorem State.draw_laneTimes (s : State)  : (s.draw).laneTimes = s.laneTimes := rfl
@[simp] theorem State.draw_epoch (s : State)  : (s.draw).epoch = s.epoch := rfl
@[simp] theorem State.draw_errlog (s : State)  : (s.draw).errlog = s.errlog := rfl
@[simp] theorem State.draw_errLast (s : State)  : (s.draw).errLast = s.errLast := rfl
@[simp] theorem State.draw_errq (s : State)  : (s.draw).errq = s.errq := rfl
@[simp] theorem State.draw_flogDue (s : State)  : (s.draw).flogDue = s.flogDue := rfl
@[simp] theorem State.draw_acts (s : State)  : (s.draw).acts = s.acts := rfl
@[simp] theorem State.draw_maps (s : State)  : (s.draw).maps = s.maps := rfl
@[simp] theorem State.draw_mapDue (s : State)  : (s.draw).mapDue = s.mapDue := rfl
@[simp] theorem State.draw_now (s : State)  : (s.draw).now = s.now := rfl
@[simp] theorem State.draw_frac (s : State)  : (s.draw).frac = s.frac := rfl
@[simp] theorem State.draw_ran (s : State)  : (s.draw).ran = s.ran := rfl
@[simp] theorem State.draw_free (s : State)  : (s.draw).free = s.free + 1 := rfl

@[simp] theorem State.modCore_pending (s : State) (c : Nat) (f : Core → Core) : (s.modCore c f).pending = s.pending := rfl
@[simp] theorem State.modCore_creg (s : State) (c : Nat) (f : Core → Core) : (s.modCore c f).creg = s.creg := rfl
@[simp] theorem State.modCore_mem (s : State) (c : Nat) (f : Core → Core) : (s.modCore c f).mem = s.mem := rfl
@[simp] theorem State.modCore_flaw (s : State) (c : Nat) (f : Core → Core) : (s.modCore c f).flaw = s.flaw := rfl
@[simp] theorem State.modCore_lineErr (s : State) (c : Nat) (f : Core → Core) : (s.modCore c f).lineErr = s.lineErr := rfl
@[simp] theorem State.modCore_micro (s : State) (c : Nat) (f : Core → Core) : (s.modCore c f).micro = s.micro := rfl
@[simp] theorem State.modCore_microGen (s : State) (c : Nat) (f : Core → Core) : (s.modCore c f).microGen = s.microGen := rfl
@[simp] theorem State.modCore_seqs (s : State) (c : Nat) (f : Core → Core) : (s.modCore c f).seqs = s.seqs := rfl
@[simp] theorem State.modCore_timers (s : State) (c : Nat) (f : Core → Core) : (s.modCore c f).timers = s.timers := rfl
@[simp] theorem State.modCore_samples (s : State) (c : Nat) (f : Core → Core) : (s.modCore c f).samples = s.samples := rfl
@[simp] theorem State.modCore_mcq (s : State) (c : Nat) (f : Core → Core) : (s.modCore c f).mcq = s.mcq := rfl
@[simp] theorem State.modCore_banks (s : State) (c : Nat) (f : Core → Core) : (s.modCore c f).banks = s.banks := rfl
@[simp] theorem State.modCore_memStacks (s : State) (c : Nat) (f : Core → Core) : (s.modCore c f).memStacks = s.memStacks := rfl
@[simp] theorem State.modCore_packets (s : State) (c : Nat) (f : Core → Core) : (s.modCore c f).packets = s.packets := rfl
@[simp] theorem State.modCore_nextTag (s : State) (c : Nat) (f : Core → Core) : (s.modCore c f).nextTag = s.nextTag := rfl
@[simp] theorem State.modCore_resps (s : State) (c : Nat) (f : Core → Core) : (s.modCore c f).resps = s.resps := rfl
@[simp] theorem State.modCore_routes (s : State) (c : Nat) (f : Core → Core) : (s.modCore c f).routes = s.routes := rfl
@[simp] theorem State.modCore_routeBank (s : State) (c : Nat) (f : Core → Core) : (s.modCore c f).routeBank = s.routeBank := rfl
@[simp] theorem State.modCore_replays (s : State) (c : Nat) (f : Core → Core) : (s.modCore c f).replays = s.replays := rfl
@[simp] theorem State.modCore_traceQ (s : State) (c : Nat) (f : Core → Core) : (s.modCore c f).traceQ = s.traceQ := rfl
@[simp] theorem State.modCore_tokens (s : State) (c : Nat) (f : Core → Core) : (s.modCore c f).tokens = s.tokens := rfl
@[simp] theorem State.modCore_dir (s : State) (c : Nat) (f : Core → Core) : (s.modCore c f).dir = s.dir := rfl
@[simp] theorem State.modCore_dirBusy (s : State) (c : Nat) (f : Core → Core) : (s.modCore c f).dirBusy = s.dirBusy := rfl
@[simp] theorem State.modCore_arr (s : State) (c : Nat) (f : Core → Core) : (s.modCore c f).arr = s.arr := rfl
@[simp] theorem State.modCore_halves (s : State) (c : Nat) (f : Core → Core) : (s.modCore c f).halves = s.halves := rfl
@[simp] theorem State.modCore_sys (s : State) (c : Nat) (f : Core → Core) : (s.modCore c f).sys = s.sys := rfl
@[simp] theorem State.modCore_router (s : State) (c : Nat) (f : Core → Core) : (s.modCore c f).router = s.router := rfl
@[simp] theorem State.modCore_fab (s : State) (c : Nat) (f : Core → Core) : (s.modCore c f).fab = s.fab := rfl
@[simp] theorem State.modCore_host (s : State) (c : Nat) (f : Core → Core) : (s.modCore c f).host = s.host := rfl
@[simp] theorem State.modCore_power (s : State) (c : Nat) (f : Core → Core) : (s.modCore c f).power = s.power := rfl
@[simp] theorem State.modCore_time (s : State) (c : Nat) (f : Core → Core) : (s.modCore c f).time = s.time := rfl
@[simp] theorem State.modCore_boot (s : State) (c : Nat) (f : Core → Core) : (s.modCore c f).boot = s.boot := rfl
@[simp] theorem State.modCore_sec (s : State) (c : Nat) (f : Core → Core) : (s.modCore c f).sec = s.sec := rfl
@[simp] theorem State.modCore_dict (s : State) (c : Nat) (f : Core → Core) : (s.modCore c f).dict = s.dict := rfl
@[simp] theorem State.modCore_laneTimes (s : State) (c : Nat) (f : Core → Core) : (s.modCore c f).laneTimes = s.laneTimes := rfl
@[simp] theorem State.modCore_epoch (s : State) (c : Nat) (f : Core → Core) : (s.modCore c f).epoch = s.epoch := rfl
@[simp] theorem State.modCore_errlog (s : State) (c : Nat) (f : Core → Core) : (s.modCore c f).errlog = s.errlog := rfl
@[simp] theorem State.modCore_errLast (s : State) (c : Nat) (f : Core → Core) : (s.modCore c f).errLast = s.errLast := rfl
@[simp] theorem State.modCore_errq (s : State) (c : Nat) (f : Core → Core) : (s.modCore c f).errq = s.errq := rfl
@[simp] theorem State.modCore_flogDue (s : State) (c : Nat) (f : Core → Core) : (s.modCore c f).flogDue = s.flogDue := rfl
@[simp] theorem State.modCore_acts (s : State) (c : Nat) (f : Core → Core) : (s.modCore c f).acts = s.acts := rfl
@[simp] theorem State.modCore_maps (s : State) (c : Nat) (f : Core → Core) : (s.modCore c f).maps = s.maps := rfl
@[simp] theorem State.modCore_mapDue (s : State) (c : Nat) (f : Core → Core) : (s.modCore c f).mapDue = s.mapDue := rfl
@[simp] theorem State.modCore_now (s : State) (c : Nat) (f : Core → Core) : (s.modCore c f).now = s.now := rfl
@[simp] theorem State.modCore_frac (s : State) (c : Nat) (f : Core → Core) : (s.modCore c f).frac = s.frac := rfl
@[simp] theorem State.modCore_ran (s : State) (c : Nat) (f : Core → Core) : (s.modCore c f).ran = s.ran := rfl
@[simp] theorem State.modCore_free (s : State) (c : Nat) (f : Core → Core) : (s.modCore c f).free = s.free := rfl

@[simp] theorem State.modSeq_pending (s : State) (q : Nat) (f : Seq → Seq) : (s.modSeq q f).pending = s.pending := rfl
@[simp] theorem State.modSeq_creg (s : State) (q : Nat) (f : Seq → Seq) : (s.modSeq q f).creg = s.creg := rfl
@[simp] theorem State.modSeq_mem (s : State) (q : Nat) (f : Seq → Seq) : (s.modSeq q f).mem = s.mem := rfl
@[simp] theorem State.modSeq_flaw (s : State) (q : Nat) (f : Seq → Seq) : (s.modSeq q f).flaw = s.flaw := rfl
@[simp] theorem State.modSeq_lineErr (s : State) (q : Nat) (f : Seq → Seq) : (s.modSeq q f).lineErr = s.lineErr := rfl
@[simp] theorem State.modSeq_micro (s : State) (q : Nat) (f : Seq → Seq) : (s.modSeq q f).micro = s.micro := rfl
@[simp] theorem State.modSeq_microGen (s : State) (q : Nat) (f : Seq → Seq) : (s.modSeq q f).microGen = s.microGen := rfl
@[simp] theorem State.modSeq_cores (s : State) (q : Nat) (f : Seq → Seq) : (s.modSeq q f).cores = s.cores := rfl
@[simp] theorem State.modSeq_timers (s : State) (q : Nat) (f : Seq → Seq) : (s.modSeq q f).timers = s.timers := rfl
@[simp] theorem State.modSeq_samples (s : State) (q : Nat) (f : Seq → Seq) : (s.modSeq q f).samples = s.samples := rfl
@[simp] theorem State.modSeq_mcq (s : State) (q : Nat) (f : Seq → Seq) : (s.modSeq q f).mcq = s.mcq := rfl
@[simp] theorem State.modSeq_banks (s : State) (q : Nat) (f : Seq → Seq) : (s.modSeq q f).banks = s.banks := rfl
@[simp] theorem State.modSeq_memStacks (s : State) (q : Nat) (f : Seq → Seq) : (s.modSeq q f).memStacks = s.memStacks := rfl
@[simp] theorem State.modSeq_packets (s : State) (q : Nat) (f : Seq → Seq) : (s.modSeq q f).packets = s.packets := rfl
@[simp] theorem State.modSeq_nextTag (s : State) (q : Nat) (f : Seq → Seq) : (s.modSeq q f).nextTag = s.nextTag := rfl
@[simp] theorem State.modSeq_resps (s : State) (q : Nat) (f : Seq → Seq) : (s.modSeq q f).resps = s.resps := rfl
@[simp] theorem State.modSeq_routes (s : State) (q : Nat) (f : Seq → Seq) : (s.modSeq q f).routes = s.routes := rfl
@[simp] theorem State.modSeq_routeBank (s : State) (q : Nat) (f : Seq → Seq) : (s.modSeq q f).routeBank = s.routeBank := rfl
@[simp] theorem State.modSeq_replays (s : State) (q : Nat) (f : Seq → Seq) : (s.modSeq q f).replays = s.replays := rfl
@[simp] theorem State.modSeq_traceQ (s : State) (q : Nat) (f : Seq → Seq) : (s.modSeq q f).traceQ = s.traceQ := rfl
@[simp] theorem State.modSeq_tokens (s : State) (q : Nat) (f : Seq → Seq) : (s.modSeq q f).tokens = s.tokens := rfl
@[simp] theorem State.modSeq_dir (s : State) (q : Nat) (f : Seq → Seq) : (s.modSeq q f).dir = s.dir := rfl
@[simp] theorem State.modSeq_dirBusy (s : State) (q : Nat) (f : Seq → Seq) : (s.modSeq q f).dirBusy = s.dirBusy := rfl
@[simp] theorem State.modSeq_arr (s : State) (q : Nat) (f : Seq → Seq) : (s.modSeq q f).arr = s.arr := rfl
@[simp] theorem State.modSeq_halves (s : State) (q : Nat) (f : Seq → Seq) : (s.modSeq q f).halves = s.halves := rfl
@[simp] theorem State.modSeq_sys (s : State) (q : Nat) (f : Seq → Seq) : (s.modSeq q f).sys = s.sys := rfl
@[simp] theorem State.modSeq_router (s : State) (q : Nat) (f : Seq → Seq) : (s.modSeq q f).router = s.router := rfl
@[simp] theorem State.modSeq_fab (s : State) (q : Nat) (f : Seq → Seq) : (s.modSeq q f).fab = s.fab := rfl
@[simp] theorem State.modSeq_host (s : State) (q : Nat) (f : Seq → Seq) : (s.modSeq q f).host = s.host := rfl
@[simp] theorem State.modSeq_power (s : State) (q : Nat) (f : Seq → Seq) : (s.modSeq q f).power = s.power := rfl
@[simp] theorem State.modSeq_time (s : State) (q : Nat) (f : Seq → Seq) : (s.modSeq q f).time = s.time := rfl
@[simp] theorem State.modSeq_boot (s : State) (q : Nat) (f : Seq → Seq) : (s.modSeq q f).boot = s.boot := rfl
@[simp] theorem State.modSeq_sec (s : State) (q : Nat) (f : Seq → Seq) : (s.modSeq q f).sec = s.sec := rfl
@[simp] theorem State.modSeq_dict (s : State) (q : Nat) (f : Seq → Seq) : (s.modSeq q f).dict = s.dict := rfl
@[simp] theorem State.modSeq_laneTimes (s : State) (q : Nat) (f : Seq → Seq) : (s.modSeq q f).laneTimes = s.laneTimes := rfl
@[simp] theorem State.modSeq_epoch (s : State) (q : Nat) (f : Seq → Seq) : (s.modSeq q f).epoch = s.epoch := rfl
@[simp] theorem State.modSeq_errlog (s : State) (q : Nat) (f : Seq → Seq) : (s.modSeq q f).errlog = s.errlog := rfl
@[simp] theorem State.modSeq_errLast (s : State) (q : Nat) (f : Seq → Seq) : (s.modSeq q f).errLast = s.errLast := rfl
@[simp] theorem State.modSeq_errq (s : State) (q : Nat) (f : Seq → Seq) : (s.modSeq q f).errq = s.errq := rfl
@[simp] theorem State.modSeq_flogDue (s : State) (q : Nat) (f : Seq → Seq) : (s.modSeq q f).flogDue = s.flogDue := rfl
@[simp] theorem State.modSeq_acts (s : State) (q : Nat) (f : Seq → Seq) : (s.modSeq q f).acts = s.acts := rfl
@[simp] theorem State.modSeq_maps (s : State) (q : Nat) (f : Seq → Seq) : (s.modSeq q f).maps = s.maps := rfl
@[simp] theorem State.modSeq_mapDue (s : State) (q : Nat) (f : Seq → Seq) : (s.modSeq q f).mapDue = s.mapDue := rfl
@[simp] theorem State.modSeq_now (s : State) (q : Nat) (f : Seq → Seq) : (s.modSeq q f).now = s.now := rfl
@[simp] theorem State.modSeq_frac (s : State) (q : Nat) (f : Seq → Seq) : (s.modSeq q f).frac = s.frac := rfl
@[simp] theorem State.modSeq_ran (s : State) (q : Nat) (f : Seq → Seq) : (s.modSeq q f).ran = s.ran := rfl
@[simp] theorem State.modSeq_free (s : State) (q : Nat) (f : Seq → Seq) : (s.modSeq q f).free = s.free := rfl

@[simp] theorem State.modBank_pending (s : State) (b : Nat) (f : Bank → Bank) : (s.modBank b f).pending = s.pending := rfl
@[simp] theorem State.modBank_creg (s : State) (b : Nat) (f : Bank → Bank) : (s.modBank b f).creg = s.creg := rfl
@[simp] theorem State.modBank_mem (s : State) (b : Nat) (f : Bank → Bank) : (s.modBank b f).mem = s.mem := rfl
@[simp] theorem State.modBank_flaw (s : State) (b : Nat) (f : Bank → Bank) : (s.modBank b f).flaw = s.flaw := rfl
@[simp] theorem State.modBank_lineErr (s : State) (b : Nat) (f : Bank → Bank) : (s.modBank b f).lineErr = s.lineErr := rfl
@[simp] theorem State.modBank_micro (s : State) (b : Nat) (f : Bank → Bank) : (s.modBank b f).micro = s.micro := rfl
@[simp] theorem State.modBank_microGen (s : State) (b : Nat) (f : Bank → Bank) : (s.modBank b f).microGen = s.microGen := rfl
@[simp] theorem State.modBank_cores (s : State) (b : Nat) (f : Bank → Bank) : (s.modBank b f).cores = s.cores := rfl
@[simp] theorem State.modBank_seqs (s : State) (b : Nat) (f : Bank → Bank) : (s.modBank b f).seqs = s.seqs := rfl
@[simp] theorem State.modBank_timers (s : State) (b : Nat) (f : Bank → Bank) : (s.modBank b f).timers = s.timers := rfl
@[simp] theorem State.modBank_samples (s : State) (b : Nat) (f : Bank → Bank) : (s.modBank b f).samples = s.samples := rfl
@[simp] theorem State.modBank_mcq (s : State) (b : Nat) (f : Bank → Bank) : (s.modBank b f).mcq = s.mcq := rfl
@[simp] theorem State.modBank_memStacks (s : State) (b : Nat) (f : Bank → Bank) : (s.modBank b f).memStacks = s.memStacks := rfl
@[simp] theorem State.modBank_packets (s : State) (b : Nat) (f : Bank → Bank) : (s.modBank b f).packets = s.packets := rfl
@[simp] theorem State.modBank_nextTag (s : State) (b : Nat) (f : Bank → Bank) : (s.modBank b f).nextTag = s.nextTag := rfl
@[simp] theorem State.modBank_resps (s : State) (b : Nat) (f : Bank → Bank) : (s.modBank b f).resps = s.resps := rfl
@[simp] theorem State.modBank_routes (s : State) (b : Nat) (f : Bank → Bank) : (s.modBank b f).routes = s.routes := rfl
@[simp] theorem State.modBank_routeBank (s : State) (b : Nat) (f : Bank → Bank) : (s.modBank b f).routeBank = s.routeBank := rfl
@[simp] theorem State.modBank_replays (s : State) (b : Nat) (f : Bank → Bank) : (s.modBank b f).replays = s.replays := rfl
@[simp] theorem State.modBank_traceQ (s : State) (b : Nat) (f : Bank → Bank) : (s.modBank b f).traceQ = s.traceQ := rfl
@[simp] theorem State.modBank_tokens (s : State) (b : Nat) (f : Bank → Bank) : (s.modBank b f).tokens = s.tokens := rfl
@[simp] theorem State.modBank_dir (s : State) (b : Nat) (f : Bank → Bank) : (s.modBank b f).dir = s.dir := rfl
@[simp] theorem State.modBank_dirBusy (s : State) (b : Nat) (f : Bank → Bank) : (s.modBank b f).dirBusy = s.dirBusy := rfl
@[simp] theorem State.modBank_arr (s : State) (b : Nat) (f : Bank → Bank) : (s.modBank b f).arr = s.arr := rfl
@[simp] theorem State.modBank_halves (s : State) (b : Nat) (f : Bank → Bank) : (s.modBank b f).halves = s.halves := rfl
@[simp] theorem State.modBank_sys (s : State) (b : Nat) (f : Bank → Bank) : (s.modBank b f).sys = s.sys := rfl
@[simp] theorem State.modBank_router (s : State) (b : Nat) (f : Bank → Bank) : (s.modBank b f).router = s.router := rfl
@[simp] theorem State.modBank_fab (s : State) (b : Nat) (f : Bank → Bank) : (s.modBank b f).fab = s.fab := rfl
@[simp] theorem State.modBank_host (s : State) (b : Nat) (f : Bank → Bank) : (s.modBank b f).host = s.host := rfl
@[simp] theorem State.modBank_power (s : State) (b : Nat) (f : Bank → Bank) : (s.modBank b f).power = s.power := rfl
@[simp] theorem State.modBank_time (s : State) (b : Nat) (f : Bank → Bank) : (s.modBank b f).time = s.time := rfl
@[simp] theorem State.modBank_boot (s : State) (b : Nat) (f : Bank → Bank) : (s.modBank b f).boot = s.boot := rfl
@[simp] theorem State.modBank_sec (s : State) (b : Nat) (f : Bank → Bank) : (s.modBank b f).sec = s.sec := rfl
@[simp] theorem State.modBank_dict (s : State) (b : Nat) (f : Bank → Bank) : (s.modBank b f).dict = s.dict := rfl
@[simp] theorem State.modBank_laneTimes (s : State) (b : Nat) (f : Bank → Bank) : (s.modBank b f).laneTimes = s.laneTimes := rfl
@[simp] theorem State.modBank_epoch (s : State) (b : Nat) (f : Bank → Bank) : (s.modBank b f).epoch = s.epoch := rfl
@[simp] theorem State.modBank_errlog (s : State) (b : Nat) (f : Bank → Bank) : (s.modBank b f).errlog = s.errlog := rfl
@[simp] theorem State.modBank_errLast (s : State) (b : Nat) (f : Bank → Bank) : (s.modBank b f).errLast = s.errLast := rfl
@[simp] theorem State.modBank_errq (s : State) (b : Nat) (f : Bank → Bank) : (s.modBank b f).errq = s.errq := rfl
@[simp] theorem State.modBank_flogDue (s : State) (b : Nat) (f : Bank → Bank) : (s.modBank b f).flogDue = s.flogDue := rfl
@[simp] theorem State.modBank_acts (s : State) (b : Nat) (f : Bank → Bank) : (s.modBank b f).acts = s.acts := rfl
@[simp] theorem State.modBank_maps (s : State) (b : Nat) (f : Bank → Bank) : (s.modBank b f).maps = s.maps := rfl
@[simp] theorem State.modBank_mapDue (s : State) (b : Nat) (f : Bank → Bank) : (s.modBank b f).mapDue = s.mapDue := rfl
@[simp] theorem State.modBank_now (s : State) (b : Nat) (f : Bank → Bank) : (s.modBank b f).now = s.now := rfl
@[simp] theorem State.modBank_frac (s : State) (b : Nat) (f : Bank → Bank) : (s.modBank b f).frac = s.frac := rfl
@[simp] theorem State.modBank_ran (s : State) (b : Nat) (f : Bank → Bank) : (s.modBank b f).ran = s.ran := rfl
@[simp] theorem State.modBank_free (s : State) (b : Nat) (f : Bank → Bank) : (s.modBank b f).free = s.free := rfl


@[simp] theorem State.core_setCore_same (s : State) (c : Nat) (k : Core) : (s.setCore c k).core c = k := by simp [State.core]

theorem State.core_setCore_other (s : State) (c e : Nat) (k : Core) (h : e ≠ c) : (s.setCore c k).core e = s.core e := by
  simp [State.core, tget_tset_other _ _ _ _ _ h]

@[simp] theorem State.setCore_setCore (s : State) (c : Nat) (k l : Core) : (s.setCore c k).setCore c l = s.setCore c l := by
  simp [State.setCore]

@[simp] theorem State.core_modCore_same (s : State) (c : Nat) (f : Core → Core) : (s.modCore c f).core c = f (s.core c) := by
  simp [State.modCore]

theorem State.core_modCore_other (s : State) (c e : Nat) (f : Core → Core) (h : e ≠ c) : (s.modCore c f).core e = s.core e := by
  simp [State.modCore, State.core_setCore_other _ _ _ _ h]

/-- Two changes of one core are one. -/
@[simp] theorem State.modCore_modCore (s : State) (c : Nat) (f g : Core → Core) : (s.modCore c f).modCore c g = s.modCore c (fun k => g (f k)) := by
  simp [State.modCore]

@[simp] theorem State.seq_setSeq_same (s : State) (q : Nat) (k : Seq) : (s.setSeq q k).seq q = k := by simp [State.seq]

theorem State.seq_setSeq_other (s : State) (q e : Nat) (k : Seq) (h : e ≠ q) : (s.setSeq q k).seq e = s.seq e := by
  simp [State.seq, tget_tset_other _ _ _ _ _ h]

@[simp] theorem State.seq_modSeq_same (s : State) (q : Nat) (f : Seq → Seq) : (s.modSeq q f).seq q = f (s.seq q) := by
  simp [State.modSeq]

theorem State.seq_modSeq_other (s : State) (q e : Nat) (f : Seq → Seq) (h : e ≠ q) : (s.modSeq q f).seq e = s.seq e := by
  simp [State.modSeq, State.seq_setSeq_other _ _ _ _ h]

@[simp] theorem State.bank_setBank_same (s : State) (b : Nat) (k : Bank) : (s.setBank b k).bank b = k := by simp [State.bank]

@[simp] theorem State.bank_modBank_same (s : State) (b : Nat) (f : Bank → Bank) : (s.modBank b f).bank b = f (s.bank b) := by
  simp [State.modBank]

/-- The control-register word just written. -/
@[simp] theorem State.r32_setR32_same (s : State) (a v : Nat) : (s.setR32 a v).r32 a = v % 2 ^ 32 := by
  simp [State.r32]

theorem State.r32_setR32_other (s : State) (a b v : Nat) (h : b ≠ a) : (s.setR32 a v).r32 b = s.r32 b := by
  simp [State.r32, tget_tset_other _ _ _ _ _ h]

@[simp] theorem State.byte_setByte_same (s : State) (a : Nat) (v : Byte) : (s.setByte a v).byte a = v := by
  simp [State.byte]

theorem State.byte_setByte_other (s : State) (a b : Nat) (v : Byte) (h : b ≠ a) : (s.setByte a v).byte b = s.byte b := by
  simp [State.byte, tget_tset_other _ _ _ _ _ h]

end Sys2Proof.Machine
end

