-- ==== Sys2Proof/Laws/Parts.lean ====
section
/-! SUPPORT. What each update of one part of the state leaves and changes, field by field. -/
namespace Sys2Proof.Machine

@[simp] theorem State.modPower_pending (s : State) (f : PowerState → PowerState) : (s.modPower f).pending = s.pending := rfl
@[simp] theorem State.modPower_creg (s : State) (f : PowerState → PowerState) : (s.modPower f).creg = s.creg := rfl
@[simp] theorem State.modPower_mem (s : State) (f : PowerState → PowerState) : (s.modPower f).mem = s.mem := rfl
@[simp] theorem State.modPower_flaw (s : State) (f : PowerState → PowerState) : (s.modPower f).flaw = s.flaw := rfl
@[simp] theorem State.modPower_lineErr (s : State) (f : PowerState → PowerState) : (s.modPower f).lineErr = s.lineErr := rfl
@[simp] theorem State.modPower_micro (s : State) (f : PowerState → PowerState) : (s.modPower f).micro = s.micro := rfl
@[simp] theorem State.modPower_microGen (s : State) (f : PowerState → PowerState) : (s.modPower f).microGen = s.microGen := rfl
@[simp] theorem State.modPower_cores (s : State) (f : PowerState → PowerState) : (s.modPower f).cores = s.cores := rfl
@[simp] theorem State.modPower_seqs (s : State) (f : PowerState → PowerState) : (s.modPower f).seqs = s.seqs := rfl
@[simp] theorem State.modPower_timers (s : State) (f : PowerState → PowerState) : (s.modPower f).timers = s.timers := rfl
@[simp] theorem State.modPower_samples (s : State) (f : PowerState → PowerState) : (s.modPower f).samples = s.samples := rfl
@[simp] theorem State.modPower_mcq (s : State) (f : PowerState → PowerState) : (s.modPower f).mcq = s.mcq := rfl
@[simp] theorem State.modPower_banks (s : State) (f : PowerState → PowerState) : (s.modPower f).banks = s.banks := rfl
@[simp] theorem State.modPower_memStacks (s : State) (f : PowerState → PowerState) : (s.modPower f).memStacks = s.memStacks := rfl
@[simp] theorem State.modPower_packets (s : State) (f : PowerState → PowerState) : (s.modPower f).packets = s.packets := rfl
@[simp] theorem State.modPower_nextTag (s : State) (f : PowerState → PowerState) : (s.modPower f).nextTag = s.nextTag := rfl
@[simp] theorem State.modPower_resps (s : State) (f : PowerState → PowerState) : (s.modPower f).resps = s.resps := rfl
@[simp] theorem State.modPower_routes (s : State) (f : PowerState → PowerState) : (s.modPower f).routes = s.routes := rfl
@[simp] theorem State.modPower_routeBank (s : State) (f : PowerState → PowerState) : (s.modPower f).routeBank = s.routeBank := rfl
@[simp] theorem State.modPower_replays (s : State) (f : PowerState → PowerState) : (s.modPower f).replays = s.replays := rfl
@[simp] theorem State.modPower_traceQ (s : State) (f : PowerState → PowerState) : (s.modPower f).traceQ = s.traceQ := rfl
@[simp] theorem State.modPower_tokens (s : State) (f : PowerState → PowerState) : (s.modPower f).tokens = s.tokens := rfl
@[simp] theorem State.modPower_dir (s : State) (f : PowerState → PowerState) : (s.modPower f).dir = s.dir := rfl
@[simp] theorem State.modPower_dirBusy (s : State) (f : PowerState → PowerState) : (s.modPower f).dirBusy = s.dirBusy := rfl
@[simp] theorem State.modPower_arr (s : State) (f : PowerState → PowerState) : (s.modPower f).arr = s.arr := rfl
@[simp] theorem State.modPower_halves (s : State) (f : PowerState → PowerState) : (s.modPower f).halves = s.halves := rfl
@[simp] theorem State.modPower_sys (s : State) (f : PowerState → PowerState) : (s.modPower f).sys = s.sys := rfl
@[simp] theorem State.modPower_router (s : State) (f : PowerState → PowerState) : (s.modPower f).router = s.router := rfl
@[simp] theorem State.modPower_fab (s : State) (f : PowerState → PowerState) : (s.modPower f).fab = s.fab := rfl
@[simp] theorem State.modPower_host (s : State) (f : PowerState → PowerState) : (s.modPower f).host = s.host := rfl
@[simp] theorem State.modPower_power (s : State) (f : PowerState → PowerState) : (s.modPower f).power = f s.power := rfl
@[simp] theorem State.modPower_time (s : State) (f : PowerState → PowerState) : (s.modPower f).time = s.time := rfl
@[simp] theorem State.modPower_boot (s : State) (f : PowerState → PowerState) : (s.modPower f).boot = s.boot := rfl
@[simp] theorem State.modPower_sec (s : State) (f : PowerState → PowerState) : (s.modPower f).sec = s.sec := rfl
@[simp] theorem State.modPower_dict (s : State) (f : PowerState → PowerState) : (s.modPower f).dict = s.dict := rfl
@[simp] theorem State.modPower_laneTimes (s : State) (f : PowerState → PowerState) : (s.modPower f).laneTimes = s.laneTimes := rfl
@[simp] theorem State.modPower_epoch (s : State) (f : PowerState → PowerState) : (s.modPower f).epoch = s.epoch := rfl
@[simp] theorem State.modPower_errlog (s : State) (f : PowerState → PowerState) : (s.modPower f).errlog = s.errlog := rfl
@[simp] theorem State.modPower_errLast (s : State) (f : PowerState → PowerState) : (s.modPower f).errLast = s.errLast := rfl
@[simp] theorem State.modPower_errq (s : State) (f : PowerState → PowerState) : (s.modPower f).errq = s.errq := rfl
@[simp] theorem State.modPower_flogDue (s : State) (f : PowerState → PowerState) : (s.modPower f).flogDue = s.flogDue := rfl
@[simp] theorem State.modPower_acts (s : State) (f : PowerState → PowerState) : (s.modPower f).acts = s.acts := rfl
@[simp] theorem State.modPower_maps (s : State) (f : PowerState → PowerState) : (s.modPower f).maps = s.maps := rfl
@[simp] theorem State.modPower_mapDue (s : State) (f : PowerState → PowerState) : (s.modPower f).mapDue = s.mapDue := rfl
@[simp] theorem State.modPower_now (s : State) (f : PowerState → PowerState) : (s.modPower f).now = s.now := rfl
@[simp] theorem State.modPower_frac (s : State) (f : PowerState → PowerState) : (s.modPower f).frac = s.frac := rfl
@[simp] theorem State.modPower_ran (s : State) (f : PowerState → PowerState) : (s.modPower f).ran = s.ran := rfl
@[simp] theorem State.modPower_free (s : State) (f : PowerState → PowerState) : (s.modPower f).free = s.free := rfl

@[simp] theorem State.modFab_pending (s : State) (f : FabState → FabState) : (s.modFab f).pending = s.pending := rfl
@[simp] theorem State.modFab_creg (s : State) (f : FabState → FabState) : (s.modFab f).creg = s.creg := rfl
@[simp] theorem State.modFab_mem (s : State) (f : FabState → FabState) : (s.modFab f).mem = s.mem := rfl
@[simp] theorem State.modFab_flaw (s : State) (f : FabState → FabState) : (s.modFab f).flaw = s.flaw := rfl
@[simp] theorem State.modFab_lineErr (s : State) (f : FabState → FabState) : (s.modFab f).lineErr = s.lineErr := rfl
@[simp] theorem State.modFab_micro (s : State) (f : FabState → FabState) : (s.modFab f).micro = s.micro := rfl
@[simp] theorem State.modFab_microGen (s : State) (f : FabState → FabState) : (s.modFab f).microGen = s.microGen := rfl
@[simp] theorem State.modFab_cores (s : State) (f : FabState → FabState) : (s.modFab f).cores = s.cores := rfl
@[simp] theorem State.modFab_seqs (s : State) (f : FabState → FabState) : (s.modFab f).seqs = s.seqs := rfl
@[simp] theorem State.modFab_timers (s : State) (f : FabState → FabState) : (s.modFab f).timers = s.timers := rfl
@[simp] theorem State.modFab_samples (s : State) (f : FabState → FabState) : (s.modFab f).samples = s.samples := rfl
@[simp] theorem State.modFab_mcq (s : State) (f : FabState → FabState) : (s.modFab f).mcq = s.mcq := rfl
@[simp] theorem State.modFab_banks (s : State) (f : FabState → FabState) : (s.modFab f).banks = s.banks := rfl
@[simp] theorem State.modFab_memStacks (s : State) (f : FabState → FabState) : (s.modFab f).memStacks = s.memStacks := rfl
@[simp] theorem State.modFab_packets (s : State) (f : FabState → FabState) : (s.modFab f).packets = s.packets := rfl
@[simp] theorem State.modFab_nextTag (s : State) (f : FabState → FabState) : (s.modFab f).nextTag = s.nextTag := rfl
@[simp] theorem State.modFab_resps (s : State) (f : FabState → FabState) : (s.modFab f).resps = s.resps := rfl
@[simp] theorem State.modFab_routes (s : State) (f : FabState → FabState) : (s.modFab f).routes = s.routes := rfl
@[simp] theorem State.modFab_routeBank (s : State) (f : FabState → FabState) : (s.modFab f).routeBank = s.routeBank := rfl
@[simp] theorem State.modFab_replays (s : State) (f : FabState → FabState) : (s.modFab f).replays = s.replays := rfl
@[simp] theorem State.modFab_traceQ (s : State) (f : FabState → FabState) : (s.modFab f).traceQ = s.traceQ := rfl
@[simp] theorem State.modFab_tokens (s : State) (f : FabState → FabState) : (s.modFab f).tokens = s.tokens := rfl
@[simp] theorem State.modFab_dir (s : State) (f : FabState → FabState) : (s.modFab f).dir = s.dir := rfl
@[simp] theorem State.modFab_dirBusy (s : State) (f : FabState → FabState) : (s.modFab f).dirBusy = s.dirBusy := rfl
@[simp] theorem State.modFab_arr (s : State) (f : FabState → FabState) : (s.modFab f).arr = s.arr := rfl
@[simp] theorem State.modFab_halves (s : State) (f : FabState → FabState) : (s.modFab f).halves = s.halves := rfl
@[simp] theorem State.modFab_sys (s : State) (f : FabState → FabState) : (s.modFab f).sys = s.sys := rfl
@[simp] theorem State.modFab_router (s : State) (f : FabState → FabState) : (s.modFab f).router = s.router := rfl
@[simp] theorem State.modFab_fab (s : State) (f : FabState → FabState) : (s.modFab f).fab = f s.fab := rfl
@[simp] theorem State.modFab_host (s : State) (f : FabState → FabState) : (s.modFab f).host = s.host := rfl
@[simp] theorem State.modFab_power (s : State) (f : FabState → FabState) : (s.modFab f).power = s.power := rfl
@[simp] theorem State.modFab_time (s : State) (f : FabState → FabState) : (s.modFab f).time = s.time := rfl
@[simp] theorem State.modFab_boot (s : State) (f : FabState → FabState) : (s.modFab f).boot = s.boot := rfl
@[simp] theorem State.modFab_sec (s : State) (f : FabState → FabState) : (s.modFab f).sec = s.sec := rfl
@[simp] theorem State.modFab_dict (s : State) (f : FabState → FabState) : (s.modFab f).dict = s.dict := rfl
@[simp] theorem State.modFab_laneTimes (s : State) (f : FabState → FabState) : (s.modFab f).laneTimes = s.laneTimes := rfl
@[simp] theorem State.modFab_epoch (s : State) (f : FabState → FabState) : (s.modFab f).epoch = s.epoch := rfl
@[simp] theorem State.modFab_errlog (s : State) (f : FabState → FabState) : (s.modFab f).errlog = s.errlog := rfl
@[simp] theorem State.modFab_errLast (s : State) (f : FabState → FabState) : (s.modFab f).errLast = s.errLast := rfl
@[simp] theorem State.modFab_errq (s : State) (f : FabState → FabState) : (s.modFab f).errq = s.errq := rfl
@[simp] theorem State.modFab_flogDue (s : State) (f : FabState → FabState) : (s.modFab f).flogDue = s.flogDue := rfl
@[simp] theorem State.modFab_acts (s : State) (f : FabState → FabState) : (s.modFab f).acts = s.acts := rfl
@[simp] theorem State.modFab_maps (s : State) (f : FabState → FabState) : (s.modFab f).maps = s.maps := rfl
@[simp] theorem State.modFab_mapDue (s : State) (f : FabState → FabState) : (s.modFab f).mapDue = s.mapDue := rfl
@[simp] theorem State.modFab_now (s : State) (f : FabState → FabState) : (s.modFab f).now = s.now := rfl
@[simp] theorem State.modFab_frac (s : State) (f : FabState → FabState) : (s.modFab f).frac = s.frac := rfl
@[simp] theorem State.modFab_ran (s : State) (f : FabState → FabState) : (s.modFab f).ran = s.ran := rfl
@[simp] theorem State.modFab_free (s : State) (f : FabState → FabState) : (s.modFab f).free = s.free := rfl

@[simp] theorem State.modHost_pending (s : State) (f : HostState → HostState) : (s.modHost f).pending = s.pending := rfl
@[simp] theorem State.modHost_creg (s : State) (f : HostState → HostState) : (s.modHost f).creg = s.creg := rfl
@[simp] theorem State.modHost_mem (s : State) (f : HostState → HostState) : (s.modHost f).mem = s.mem := rfl
@[simp] theorem State.modHost_flaw (s : State) (f : HostState → HostState) : (s.modHost f).flaw = s.flaw := rfl
@[simp] theorem State.modHost_lineErr (s : State) (f : HostState → HostState) : (s.modHost f).lineErr = s.lineErr := rfl
@[simp] theorem State.modHost_micro (s : State) (f : HostState → HostState) : (s.modHost f).micro = s.micro := rfl
@[simp] theorem State.modHost_microGen (s : State) (f : HostState → HostState) : (s.modHost f).microGen = s.microGen := rfl
@[simp] theorem State.modHost_cores (s : State) (f : HostState → HostState) : (s.modHost f).cores = s.cores := rfl
@[simp] theorem State.modHost_seqs (s : State) (f : HostState → HostState) : (s.modHost f).seqs = s.seqs := rfl
@[simp] theorem State.modHost_timers (s : State) (f : HostState → HostState) : (s.modHost f).timers = s.timers := rfl
@[simp] theorem State.modHost_samples (s : State) (f : HostState → HostState) : (s.modHost f).samples = s.samples := rfl
@[simp] theorem State.modHost_mcq (s : State) (f : HostState → HostState) : (s.modHost f).mcq = s.mcq := rfl
@[simp] theorem State.modHost_banks (s : State) (f : HostState → HostState) : (s.modHost f).banks = s.banks := rfl
@[simp] theorem State.modHost_memStacks (s : State) (f : HostState → HostState) : (s.modHost f).memStacks = s.memStacks := rfl
@[simp] theorem State.modHost_packets (s : State) (f : HostState → HostState) : (s.modHost f).packets = s.packets := rfl
@[simp] theorem State.modHost_nextTag (s : State) (f : HostState → HostState) : (s.modHost f).nextTag = s.nextTag := rfl
@[simp] theorem State.modHost_resps (s : State) (f : HostState → HostState) : (s.modHost f).resps = s.resps := rfl
@[simp] theorem State.modHost_routes (s : State) (f : HostState → HostState) : (s.modHost f).routes = s.routes := rfl
@[simp] theorem State.modHost_routeBank (s : State) (f : HostState → HostState) : (s.modHost f).routeBank = s.routeBank := rfl
@[simp] theorem State.modHost_replays (s : State) (f : HostState → HostState) : (s.modHost f).replays = s.replays := rfl
@[simp] theorem State.modHost_traceQ (s : State) (f : HostState → HostState) : (s.modHost f).traceQ = s.traceQ := rfl
@[simp] theorem State.modHost_tokens (s : State) (f : HostState → HostState) : (s.modHost f).tokens = s.tokens := rfl
@[simp] theorem State.modHost_dir (s : State) (f : HostState → HostState) : (s.modHost f).dir = s.dir := rfl
@[simp] theorem State.modHost_dirBusy (s : State) (f : HostState → HostState) : (s.modHost f).dirBusy = s.dirBusy := rfl
@[simp] theorem State.modHost_arr (s : State) (f : HostState → HostState) : (s.modHost f).arr = s.arr := rfl
@[simp] theorem State.modHost_halves (s : State) (f : HostState → HostState) : (s.modHost f).halves = s.halves := rfl
@[simp] theorem State.modHost_sys (s : State) (f : HostState → HostState) : (s.modHost f).sys = s.sys := rfl
@[simp] theorem State.modHost_router (s : State) (f : HostState → HostState) : (s.modHost f).router = s.router := rfl
@[simp] theorem State.modHost_fab (s : State) (f : HostState → HostState) : (s.modHost f).fab = s.fab := rfl
@[simp] theorem State.modHost_host (s : State) (f : HostState → HostState) : (s.modHost f).host = f s.host := rfl
@[simp] theorem State.modHost_power (s : State) (f : HostState → HostState) : (s.modHost f).power = s.power := rfl
@[simp] theorem State.modHost_time (s : State) (f : HostState → HostState) : (s.modHost f).time = s.time := rfl
@[simp] theorem State.modHost_boot (s : State) (f : HostState → HostState) : (s.modHost f).boot = s.boot := rfl
@[simp] theorem State.modHost_sec (s : State) (f : HostState → HostState) : (s.modHost f).sec = s.sec := rfl
@[simp] theorem State.modHost_dict (s : State) (f : HostState → HostState) : (s.modHost f).dict = s.dict := rfl
@[simp] theorem State.modHost_laneTimes (s : State) (f : HostState → HostState) : (s.modHost f).laneTimes = s.laneTimes := rfl
@[simp] theorem State.modHost_epoch (s : State) (f : HostState → HostState) : (s.modHost f).epoch = s.epoch := rfl
@[simp] theorem State.modHost_errlog (s : State) (f : HostState → HostState) : (s.modHost f).errlog = s.errlog := rfl
@[simp] theorem State.modHost_errLast (s : State) (f : HostState → HostState) : (s.modHost f).errLast = s.errLast := rfl
@[simp] theorem State.modHost_errq (s : State) (f : HostState → HostState) : (s.modHost f).errq = s.errq := rfl
@[simp] theorem State.modHost_flogDue (s : State) (f : HostState → HostState) : (s.modHost f).flogDue = s.flogDue := rfl
@[simp] theorem State.modHost_acts (s : State) (f : HostState → HostState) : (s.modHost f).acts = s.acts := rfl
@[simp] theorem State.modHost_maps (s : State) (f : HostState → HostState) : (s.modHost f).maps = s.maps := rfl
@[simp] theorem State.modHost_mapDue (s : State) (f : HostState → HostState) : (s.modHost f).mapDue = s.mapDue := rfl
@[simp] theorem State.modHost_now (s : State) (f : HostState → HostState) : (s.modHost f).now = s.now := rfl
@[simp] theorem State.modHost_frac (s : State) (f : HostState → HostState) : (s.modHost f).frac = s.frac := rfl
@[simp] theorem State.modHost_ran (s : State) (f : HostState → HostState) : (s.modHost f).ran = s.ran := rfl
@[simp] theorem State.modHost_free (s : State) (f : HostState → HostState) : (s.modHost f).free = s.free := rfl

@[simp] theorem State.modDict_pending (s : State) (f : DictState → DictState) : (s.modDict f).pending = s.pending := rfl
@[simp] theorem State.modDict_creg (s : State) (f : DictState → DictState) : (s.modDict f).creg = s.creg := rfl
@[simp] theorem State.modDict_mem (s : State) (f : DictState → DictState) : (s.modDict f).mem = s.mem := rfl
@[simp] theorem State.modDict_flaw (s : State) (f : DictState → DictState) : (s.modDict f).flaw = s.flaw := rfl
@[simp] theorem State.modDict_lineErr (s : State) (f : DictState → DictState) : (s.modDict f).lineErr = s.lineErr := rfl
@[simp] theorem State.modDict_micro (s : State) (f : DictState → DictState) : (s.modDict f).micro = s.micro := rfl
@[simp] theorem State.modDict_microGen (s : State) (f : DictState → DictState) : (s.modDict f).microGen = s.microGen := rfl
@[simp] theorem State.modDict_cores (s : State) (f : DictState → DictState) : (s.modDict f).cores = s.cores := rfl
@[simp] theorem State.modDict_seqs (s : State) (f : DictState → DictState) : (s.modDict f).seqs = s.seqs := rfl
@[simp] theorem State.modDict_timers (s : State) (f : DictState → DictState) : (s.modDict f).timers = s.timers := rfl
@[simp] theorem State.modDict_samples (s : State) (f : DictState → DictState) : (s.modDict f).samples = s.samples := rfl
@[simp] theorem State.modDict_mcq (s : State) (f : DictState → DictState) : (s.modDict f).mcq = s.mcq := rfl
@[simp] theorem State.modDict_banks (s : State) (f : DictState → DictState) : (s.modDict f).banks = s.banks := rfl
@[simp] theorem State.modDict_memStacks (s : State) (f : DictState → DictState) : (s.modDict f).memStacks = s.memStacks := rfl
@[simp] theorem State.modDict_packets (s : State) (f : DictState → DictState) : (s.modDict f).packets = s.packets := rfl
@[simp] theorem State.modDict_nextTag (s : State) (f : DictState → DictState) : (s.modDict f).nextTag = s.nextTag := rfl
@[simp] theorem State.modDict_resps (s : State) (f : DictState → DictState) : (s.modDict f).resps = s.resps := rfl
@[simp] theorem State.modDict_routes (s : State) (f : DictState → DictState) : (s.modDict f).routes = s.routes := rfl
@[simp] theorem State.modDict_routeBank (s : State) (f : DictState → DictState) : (s.modDict f).routeBank = s.routeBank := rfl
@[simp] theorem State.modDict_replays (s : State) (f : DictState → DictState) : (s.modDict f).replays = s.replays := rfl
@[simp] theorem State.modDict_traceQ (s : State) (f : DictState → DictState) : (s.modDict f).traceQ = s.traceQ := rfl
@[simp] theorem State.modDict_tokens (s : State) (f : DictState → DictState) : (s.modDict f).tokens = s.tokens := rfl
@[simp] theorem State.modDict_dir (s : State) (f : DictState → DictState) : (s.modDict f).dir = s.dir := rfl
@[simp] theorem State.modDict_dirBusy (s : State) (f : DictState → DictState) : (s.modDict f).dirBusy = s.dirBusy := rfl
@[simp] theorem State.modDict_arr (s : State) (f : DictState → DictState) : (s.modDict f).arr = s.arr := rfl
@[simp] theorem State.modDict_halves (s : State) (f : DictState → DictState) : (s.modDict f).halves = s.halves := rfl
@[simp] theorem State.modDict_sys (s : State) (f : DictState → DictState) : (s.modDict f).sys = s.sys := rfl
@[simp] theorem State.modDict_router (s : State) (f : DictState → DictState) : (s.modDict f).router = s.router := rfl
@[simp] theorem State.modDict_fab (s : State) (f : DictState → DictState) : (s.modDict f).fab = s.fab := rfl
@[simp] theorem State.modDict_host (s : State) (f : DictState → DictState) : (s.modDict f).host = s.host := rfl
@[simp] theorem State.modDict_power (s : State) (f : DictState → DictState) : (s.modDict f).power = s.power := rfl
@[simp] theorem State.modDict_time (s : State) (f : DictState → DictState) : (s.modDict f).time = s.time := rfl
@[simp] theorem State.modDict_boot (s : State) (f : DictState → DictState) : (s.modDict f).boot = s.boot := rfl
@[simp] theorem State.modDict_sec (s : State) (f : DictState → DictState) : (s.modDict f).sec = s.sec := rfl
@[simp] theorem State.modDict_dict (s : State) (f : DictState → DictState) : (s.modDict f).dict = f s.dict := rfl
@[simp] theorem State.modDict_laneTimes (s : State) (f : DictState → DictState) : (s.modDict f).laneTimes = s.laneTimes := rfl
@[simp] theorem State.modDict_epoch (s : State) (f : DictState → DictState) : (s.modDict f).epoch = s.epoch := rfl
@[simp] theorem State.modDict_errlog (s : State) (f : DictState → DictState) : (s.modDict f).errlog = s.errlog := rfl
@[simp] theorem State.modDict_errLast (s : State) (f : DictState → DictState) : (s.modDict f).errLast = s.errLast := rfl
@[simp] theorem State.modDict_errq (s : State) (f : DictState → DictState) : (s.modDict f).errq = s.errq := rfl
@[simp] theorem State.modDict_flogDue (s : State) (f : DictState → DictState) : (s.modDict f).flogDue = s.flogDue := rfl
@[simp] theorem State.modDict_acts (s : State) (f : DictState → DictState) : (s.modDict f).acts = s.acts := rfl
@[simp] theorem State.modDict_maps (s : State) (f : DictState → DictState) : (s.modDict f).maps = s.maps := rfl
@[simp] theorem State.modDict_mapDue (s : State) (f : DictState → DictState) : (s.modDict f).mapDue = s.mapDue := rfl
@[simp] theorem State.modDict_now (s : State) (f : DictState → DictState) : (s.modDict f).now = s.now := rfl
@[simp] theorem State.modDict_frac (s : State) (f : DictState → DictState) : (s.modDict f).frac = s.frac := rfl
@[simp] theorem State.modDict_ran (s : State) (f : DictState → DictState) : (s.modDict f).ran = s.ran := rfl
@[simp] theorem State.modDict_free (s : State) (f : DictState → DictState) : (s.modDict f).free = s.free := rfl

@[simp] theorem State.modSec_pending (s : State) (f : SecState → SecState) : (s.modSec f).pending = s.pending := rfl
@[simp] theorem State.modSec_creg (s : State) (f : SecState → SecState) : (s.modSec f).creg = s.creg := rfl
@[simp] theorem State.modSec_mem (s : State) (f : SecState → SecState) : (s.modSec f).mem = s.mem := rfl
@[simp] theorem State.modSec_flaw (s : State) (f : SecState → SecState) : (s.modSec f).flaw = s.flaw := rfl
@[simp] theorem State.modSec_lineErr (s : State) (f : SecState → SecState) : (s.modSec f).lineErr = s.lineErr := rfl
@[simp] theorem State.modSec_micro (s : State) (f : SecState → SecState) : (s.modSec f).micro = s.micro := rfl
@[simp] theorem State.modSec_microGen (s : State) (f : SecState → SecState) : (s.modSec f).microGen = s.microGen := rfl
@[simp] theorem State.modSec_cores (s : State) (f : SecState → SecState) : (s.modSec f).cores = s.cores := rfl
@[simp] theorem State.modSec_seqs (s : State) (f : SecState → SecState) : (s.modSec f).seqs = s.seqs := rfl
@[simp] theorem State.modSec_timers (s : State) (f : SecState → SecState) : (s.modSec f).timers = s.timers := rfl
@[simp] theorem State.modSec_samples (s : State) (f : SecState → SecState) : (s.modSec f).samples = s.samples := rfl
@[simp] theorem State.modSec_mcq (s : State) (f : SecState → SecState) : (s.modSec f).mcq = s.mcq := rfl
@[simp] theorem State.modSec_banks (s : State) (f : SecState → SecState) : (s.modSec f).banks = s.banks := rfl
@[simp] theorem State.modSec_memStacks (s : State) (f : SecState → SecState) : (s.modSec f).memStacks = s.memStacks := rfl
@[simp] theorem State.modSec_packets (s : State) (f : SecState → SecState) : (s.modSec f).packets = s.packets := rfl
@[simp] theorem State.modSec_nextTag (s : State) (f : SecState → SecState) : (s.modSec f).nextTag = s.nextTag := rfl
@[simp] theorem State.modSec_resps (s : State) (f : SecState → SecState) : (s.modSec f).resps = s.resps := rfl
@[simp] theorem State.modSec_routes (s : State) (f : SecState → SecState) : (s.modSec f).routes = s.routes := rfl
@[simp] theorem State.modSec_routeBank (s : State) (f : SecState → SecState) : (s.modSec f).routeBank = s.routeBank := rfl
@[simp] theorem State.modSec_replays (s : State) (f : SecState → SecState) : (s.modSec f).replays = s.replays := rfl
@[simp] theorem State.modSec_traceQ (s : State) (f : SecState → SecState) : (s.modSec f).traceQ = s.traceQ := rfl
@[simp] theorem State.modSec_tokens (s : State) (f : SecState → SecState) : (s.modSec f).tokens = s.tokens := rfl
@[simp] theorem State.modSec_dir (s : State) (f : SecState → SecState) : (s.modSec f).dir = s.dir := rfl
@[simp] theorem State.modSec_dirBusy (s : State) (f : SecState → SecState) : (s.modSec f).dirBusy = s.dirBusy := rfl
@[simp] theorem State.modSec_arr (s : State) (f : SecState → SecState) : (s.modSec f).arr = s.arr := rfl
@[simp] theorem State.modSec_halves (s : State) (f : SecState → SecState) : (s.modSec f).halves = s.halves := rfl
@[simp] theorem State.modSec_sys (s : State) (f : SecState → SecState) : (s.modSec f).sys = s.sys := rfl
@[simp] theorem State.modSec_router (s : State) (f : SecState → SecState) : (s.modSec f).router = s.router := rfl
@[simp] theorem State.modSec_fab (s : State) (f : SecState → SecState) : (s.modSec f).fab = s.fab := rfl
@[simp] theorem State.modSec_host (s : State) (f : SecState → SecState) : (s.modSec f).host = s.host := rfl
@[simp] theorem State.modSec_power (s : State) (f : SecState → SecState) : (s.modSec f).power = s.power := rfl
@[simp] theorem State.modSec_time (s : State) (f : SecState → SecState) : (s.modSec f).time = s.time := rfl
@[simp] theorem State.modSec_boot (s : State) (f : SecState → SecState) : (s.modSec f).boot = s.boot := rfl
@[simp] theorem State.modSec_sec (s : State) (f : SecState → SecState) : (s.modSec f).sec = f s.sec := rfl
@[simp] theorem State.modSec_dict (s : State) (f : SecState → SecState) : (s.modSec f).dict = s.dict := rfl
@[simp] theorem State.modSec_laneTimes (s : State) (f : SecState → SecState) : (s.modSec f).laneTimes = s.laneTimes := rfl
@[simp] theorem State.modSec_epoch (s : State) (f : SecState → SecState) : (s.modSec f).epoch = s.epoch := rfl
@[simp] theorem State.modSec_errlog (s : State) (f : SecState → SecState) : (s.modSec f).errlog = s.errlog := rfl
@[simp] theorem State.modSec_errLast (s : State) (f : SecState → SecState) : (s.modSec f).errLast = s.errLast := rfl
@[simp] theorem State.modSec_errq (s : State) (f : SecState → SecState) : (s.modSec f).errq = s.errq := rfl
@[simp] theorem State.modSec_flogDue (s : State) (f : SecState → SecState) : (s.modSec f).flogDue = s.flogDue := rfl
@[simp] theorem State.modSec_acts (s : State) (f : SecState → SecState) : (s.modSec f).acts = s.acts := rfl
@[simp] theorem State.modSec_maps (s : State) (f : SecState → SecState) : (s.modSec f).maps = s.maps := rfl
@[simp] theorem State.modSec_mapDue (s : State) (f : SecState → SecState) : (s.modSec f).mapDue = s.mapDue := rfl
@[simp] theorem State.modSec_now (s : State) (f : SecState → SecState) : (s.modSec f).now = s.now := rfl
@[simp] theorem State.modSec_frac (s : State) (f : SecState → SecState) : (s.modSec f).frac = s.frac := rfl
@[simp] theorem State.modSec_ran (s : State) (f : SecState → SecState) : (s.modSec f).ran = s.ran := rfl
@[simp] theorem State.modSec_free (s : State) (f : SecState → SecState) : (s.modSec f).free = s.free := rfl

@[simp] theorem State.modBoot_pending (s : State) (f : BootState → BootState) : (s.modBoot f).pending = s.pending := rfl
@[simp] theorem State.modBoot_creg (s : State) (f : BootState → BootState) : (s.modBoot f).creg = s.creg := rfl
@[simp] theorem State.modBoot_mem (s : State) (f : BootState → BootState) : (s.modBoot f).mem = s.mem := rfl
@[simp] theorem State.modBoot_flaw (s : State) (f : BootState → BootState) : (s.modBoot f).flaw = s.flaw := rfl
@[simp] theorem State.modBoot_lineErr (s : State) (f : BootState → BootState) : (s.modBoot f).lineErr = s.lineErr := rfl
@[simp] theorem State.modBoot_micro (s : State) (f : BootState → BootState) : (s.modBoot f).micro = s.micro := rfl
@[simp] theorem State.modBoot_microGen (s : State) (f : BootState → BootState) : (s.modBoot f).microGen = s.microGen := rfl
@[simp] theorem State.modBoot_cores (s : State) (f : BootState → BootState) : (s.modBoot f).cores = s.cores := rfl
@[simp] theorem State.modBoot_seqs (s : State) (f : BootState → BootState) : (s.modBoot f).seqs = s.seqs := rfl
@[simp] theorem State.modBoot_timers (s : State) (f : BootState → BootState) : (s.modBoot f).timers = s.timers := rfl
@[simp] theorem State.modBoot_samples (s : State) (f : BootState → BootState) : (s.modBoot f).samples = s.samples := rfl
@[simp] theorem State.modBoot_mcq (s : State) (f : BootState → BootState) : (s.modBoot f).mcq = s.mcq := rfl
@[simp] theorem State.modBoot_banks (s : State) (f : BootState → BootState) : (s.modBoot f).banks = s.banks := rfl
@[simp] theorem State.modBoot_memStacks (s : State) (f : BootState → BootState) : (s.modBoot f).memStacks = s.memStacks := rfl
@[simp] theorem State.modBoot_packets (s : State) (f : BootState → BootState) : (s.modBoot f).packets = s.packets := rfl
@[simp] theorem State.modBoot_nextTag (s : State) (f : BootState → BootState) : (s.modBoot f).nextTag = s.nextTag := rfl
@[simp] theorem State.modBoot_resps (s : State) (f : BootState → BootState) : (s.modBoot f).resps = s.resps := rfl
@[simp] theorem State.modBoot_routes (s : State) (f : BootState → BootState) : (s.modBoot f).routes = s.routes := rfl
@[simp] theorem State.modBoot_routeBank (s : State) (f : BootState → BootState) : (s.modBoot f).routeBank = s.routeBank := rfl
@[simp] theorem State.modBoot_replays (s : State) (f : BootState → BootState) : (s.modBoot f).replays = s.replays := rfl
@[simp] theorem State.modBoot_traceQ (s : State) (f : BootState → BootState) : (s.modBoot f).traceQ = s.traceQ := rfl
@[simp] theorem State.modBoot_tokens (s : State) (f : BootState → BootState) : (s.modBoot f).tokens = s.tokens := rfl
@[simp] theorem State.modBoot_dir (s : State) (f : BootState → BootState) : (s.modBoot f).dir = s.dir := rfl
@[simp] theorem State.modBoot_dirBusy (s : State) (f : BootState → BootState) : (s.modBoot f).dirBusy = s.dirBusy := rfl
@[simp] theorem State.modBoot_arr (s : State) (f : BootState → BootState) : (s.modBoot f).arr = s.arr := rfl
@[simp] theorem State.modBoot_halves (s : State) (f : BootState → BootState) : (s.modBoot f).halves = s.halves := rfl
@[simp] theorem State.modBoot_sys (s : State) (f : BootState → BootState) : (s.modBoot f).sys = s.sys := rfl
@[simp] theorem State.modBoot_router (s : State) (f : BootState → BootState) : (s.modBoot f).router = s.router := rfl
@[simp] theorem State.modBoot_fab (s : State) (f : BootState → BootState) : (s.modBoot f).fab = s.fab := rfl
@[simp] theorem State.modBoot_host (s : State) (f : BootState → BootState) : (s.modBoot f).host = s.host := rfl
@[simp] theorem State.modBoot_power (s : State) (f : BootState → BootState) : (s.modBoot f).power = s.power := rfl
@[simp] theorem State.modBoot_time (s : State) (f : BootState → BootState) : (s.modBoot f).time = s.time := rfl
@[simp] theorem State.modBoot_boot (s : State) (f : BootState → BootState) : (s.modBoot f).boot = f s.boot := rfl
@[simp] theorem State.modBoot_sec (s : State) (f : BootState → BootState) : (s.modBoot f).sec = s.sec := rfl
@[simp] theorem State.modBoot_dict (s : State) (f : BootState → BootState) : (s.modBoot f).dict = s.dict := rfl
@[simp] theorem State.modBoot_laneTimes (s : State) (f : BootState → BootState) : (s.modBoot f).laneTimes = s.laneTimes := rfl
@[simp] theorem State.modBoot_epoch (s : State) (f : BootState → BootState) : (s.modBoot f).epoch = s.epoch := rfl
@[simp] theorem State.modBoot_errlog (s : State) (f : BootState → BootState) : (s.modBoot f).errlog = s.errlog := rfl
@[simp] theorem State.modBoot_errLast (s : State) (f : BootState → BootState) : (s.modBoot f).errLast = s.errLast := rfl
@[simp] theorem State.modBoot_errq (s : State) (f : BootState → BootState) : (s.modBoot f).errq = s.errq := rfl
@[simp] theorem State.modBoot_flogDue (s : State) (f : BootState → BootState) : (s.modBoot f).flogDue = s.flogDue := rfl
@[simp] theorem State.modBoot_acts (s : State) (f : BootState → BootState) : (s.modBoot f).acts = s.acts := rfl
@[simp] theorem State.modBoot_maps (s : State) (f : BootState → BootState) : (s.modBoot f).maps = s.maps := rfl
@[simp] theorem State.modBoot_mapDue (s : State) (f : BootState → BootState) : (s.modBoot f).mapDue = s.mapDue := rfl
@[simp] theorem State.modBoot_now (s : State) (f : BootState → BootState) : (s.modBoot f).now = s.now := rfl
@[simp] theorem State.modBoot_frac (s : State) (f : BootState → BootState) : (s.modBoot f).frac = s.frac := rfl
@[simp] theorem State.modBoot_ran (s : State) (f : BootState → BootState) : (s.modBoot f).ran = s.ran := rfl
@[simp] theorem State.modBoot_free (s : State) (f : BootState → BootState) : (s.modBoot f).free = s.free := rfl

@[simp] theorem State.modTime_pending (s : State) (f : TimeState → TimeState) : (s.modTime f).pending = s.pending := rfl
@[simp] theorem State.modTime_creg (s : State) (f : TimeState → TimeState) : (s.modTime f).creg = s.creg := rfl
@[simp] theorem State.modTime_mem (s : State) (f : TimeState → TimeState) : (s.modTime f).mem = s.mem := rfl
@[simp] theorem State.modTime_flaw (s : State) (f : TimeState → TimeState) : (s.modTime f).flaw = s.flaw := rfl
@[simp] theorem State.modTime_lineErr (s : State) (f : TimeState → TimeState) : (s.modTime f).lineErr = s.lineErr := rfl
@[simp] theorem State.modTime_micro (s : State) (f : TimeState → TimeState) : (s.modTime f).micro = s.micro := rfl
@[simp] theorem State.modTime_microGen (s : State) (f : TimeState → TimeState) : (s.modTime f).microGen = s.microGen := rfl
@[simp] theorem State.modTime_cores (s : State) (f : TimeState → TimeState) : (s.modTime f).cores = s.cores := rfl
@[simp] theorem State.modTime_seqs (s : State) (f : TimeState → TimeState) : (s.modTime f).seqs = s.seqs := rfl
@[simp] theorem State.modTime_timers (s : State) (f : TimeState → TimeState) : (s.modTime f).timers = s.timers := rfl
@[simp] theorem State.modTime_samples (s : State) (f : TimeState → TimeState) : (s.modTime f).samples = s.samples := rfl
@[simp] theorem State.modTime_mcq (s : State) (f : TimeState → TimeState) : (s.modTime f).mcq = s.mcq := rfl
@[simp] theorem State.modTime_banks (s : State) (f : TimeState → TimeState) : (s.modTime f).banks = s.banks := rfl
@[simp] theorem State.modTime_memStacks (s : State) (f : TimeState → TimeState) : (s.modTime f).memStacks = s.memStacks := rfl
@[simp] theorem State.modTime_packets (s : State) (f : TimeState → TimeState) : (s.modTime f).packets = s.packets := rfl
@[simp] theorem State.modTime_nextTag (s : State) (f : TimeState → TimeState) : (s.modTime f).nextTag = s.nextTag := rfl
@[simp] theorem State.modTime_resps (s : State) (f : TimeState → TimeState) : (s.modTime f).resps = s.resps := rfl
@[simp] theorem State.modTime_routes (s : State) (f : TimeState → TimeState) : (s.modTime f).routes = s.routes := rfl
@[simp] theorem State.modTime_routeBank (s : State) (f : TimeState → TimeState) : (s.modTime f).routeBank = s.routeBank := rfl
@[simp] theorem State.modTime_replays (s : State) (f : TimeState → TimeState) : (s.modTime f).replays = s.replays := rfl
@[simp] theorem State.modTime_traceQ (s : State) (f : TimeState → TimeState) : (s.modTime f).traceQ = s.traceQ := rfl
@[simp] theorem State.modTime_tokens (s : State) (f : TimeState → TimeState) : (s.modTime f).tokens = s.tokens := rfl
@[simp] theorem State.modTime_dir (s : State) (f : TimeState → TimeState) : (s.modTime f).dir = s.dir := rfl
@[simp] theorem State.modTime_dirBusy (s : State) (f : TimeState → TimeState) : (s.modTime f).dirBusy = s.dirBusy := rfl
@[simp] theorem State.modTime_arr (s : State) (f : TimeState → TimeState) : (s.modTime f).arr = s.arr := rfl
@[simp] theorem State.modTime_halves (s : State) (f : TimeState → TimeState) : (s.modTime f).halves = s.halves := rfl
@[simp] theorem State.modTime_sys (s : State) (f : TimeState → TimeState) : (s.modTime f).sys = s.sys := rfl
@[simp] theorem State.modTime_router (s : State) (f : TimeState → TimeState) : (s.modTime f).router = s.router := rfl
@[simp] theorem State.modTime_fab (s : State) (f : TimeState → TimeState) : (s.modTime f).fab = s.fab := rfl
@[simp] theorem State.modTime_host (s : State) (f : TimeState → TimeState) : (s.modTime f).host = s.host := rfl
@[simp] theorem State.modTime_power (s : State) (f : TimeState → TimeState) : (s.modTime f).power = s.power := rfl
@[simp] theorem State.modTime_time (s : State) (f : TimeState → TimeState) : (s.modTime f).time = f s.time := rfl
@[simp] theorem State.modTime_boot (s : State) (f : TimeState → TimeState) : (s.modTime f).boot = s.boot := rfl
@[simp] theorem State.modTime_sec (s : State) (f : TimeState → TimeState) : (s.modTime f).sec = s.sec := rfl
@[simp] theorem State.modTime_dict (s : State) (f : TimeState → TimeState) : (s.modTime f).dict = s.dict := rfl
@[simp] theorem State.modTime_laneTimes (s : State) (f : TimeState → TimeState) : (s.modTime f).laneTimes = s.laneTimes := rfl
@[simp] theorem State.modTime_epoch (s : State) (f : TimeState → TimeState) : (s.modTime f).epoch = s.epoch := rfl
@[simp] theorem State.modTime_errlog (s : State) (f : TimeState → TimeState) : (s.modTime f).errlog = s.errlog := rfl
@[simp] theorem State.modTime_errLast (s : State) (f : TimeState → TimeState) : (s.modTime f).errLast = s.errLast := rfl
@[simp] theorem State.modTime_errq (s : State) (f : TimeState → TimeState) : (s.modTime f).errq = s.errq := rfl
@[simp] theorem State.modTime_flogDue (s : State) (f : TimeState → TimeState) : (s.modTime f).flogDue = s.flogDue := rfl
@[simp] theorem State.modTime_acts (s : State) (f : TimeState → TimeState) : (s.modTime f).acts = s.acts := rfl
@[simp] theorem State.modTime_maps (s : State) (f : TimeState → TimeState) : (s.modTime f).maps = s.maps := rfl
@[simp] theorem State.modTime_mapDue (s : State) (f : TimeState → TimeState) : (s.modTime f).mapDue = s.mapDue := rfl
@[simp] theorem State.modTime_now (s : State) (f : TimeState → TimeState) : (s.modTime f).now = s.now := rfl
@[simp] theorem State.modTime_frac (s : State) (f : TimeState → TimeState) : (s.modTime f).frac = s.frac := rfl
@[simp] theorem State.modTime_ran (s : State) (f : TimeState → TimeState) : (s.modTime f).ran = s.ran := rfl
@[simp] theorem State.modTime_free (s : State) (f : TimeState → TimeState) : (s.modTime f).free = s.free := rfl

@[simp] theorem State.modRouter_pending (s : State) (f : Router → Router) : (s.modRouter f).pending = s.pending := rfl
@[simp] theorem State.modRouter_creg (s : State) (f : Router → Router) : (s.modRouter f).creg = s.creg := rfl
@[simp] theorem State.modRouter_mem (s : State) (f : Router → Router) : (s.modRouter f).mem = s.mem := rfl
@[simp] theorem State.modRouter_flaw (s : State) (f : Router → Router) : (s.modRouter f).flaw = s.flaw := rfl
@[simp] theorem State.modRouter_lineErr (s : State) (f : Router → Router) : (s.modRouter f).lineErr = s.lineErr := rfl
@[simp] theorem State.modRouter_micro (s : State) (f : Router → Router) : (s.modRouter f).micro = s.micro := rfl
@[simp] theorem State.modRouter_microGen (s : State) (f : Router → Router) : (s.modRouter f).microGen = s.microGen := rfl
@[simp] theorem State.modRouter_cores (s : State) (f : Router → Router) : (s.modRouter f).cores = s.cores := rfl
@[simp] theorem State.modRouter_seqs (s : State) (f : Router → Router) : (s.modRouter f).seqs = s.seqs := rfl
@[simp] theorem State.modRouter_timers (s : State) (f : Router → Router) : (s.modRouter f).timers = s.timers := rfl
@[simp] theorem State.modRouter_samples (s : State) (f : Router → Router) : (s.modRouter f).samples = s.samples := rfl
@[simp] theorem State.modRouter_mcq (s : State) (f : Router → Router) : (s.modRouter f).mcq = s.mcq := rfl
@[simp] theorem State.modRouter_banks (s : State) (f : Router → Router) : (s.modRouter f).banks = s.banks := rfl
@[simp] theorem State.modRouter_memStacks (s : State) (f : Router → Router) : (s.modRouter f).memStacks = s.memStacks := rfl
@[simp] theorem State.modRouter_packets (s : State) (f : Router → Router) : (s.modRouter f).packets = s.packets := rfl
@[simp] theorem State.modRouter_nextTag (s : State) (f : Router → Router) : (s.modRouter f).nextTag = s.nextTag := rfl
@[simp] theorem State.modRouter_resps (s : State) (f : Router → Router) : (s.modRouter f).resps = s.resps := rfl
@[simp] theorem State.modRouter_routes (s : State) (f : Router → Router) : (s.modRouter f).routes = s.routes := rfl
@[simp] theorem State.modRouter_routeBank (s : State) (f : Router → Router) : (s.modRouter f).routeBank = s.routeBank := rfl
@[simp] theorem State.modRouter_replays (s : State) (f : Router → Router) : (s.modRouter f).replays = s.replays := rfl
@[simp] theorem State.modRouter_traceQ (s : State) (f : Router → Router) : (s.modRouter f).traceQ = s.traceQ := rfl
@[simp] theorem State.modRouter_tokens (s : State) (f : Router → Router) : (s.modRouter f).tokens = s.tokens := rfl
@[simp] theorem State.modRouter_dir (s : State) (f : Router → Router) : (s.modRouter f).dir = s.dir := rfl
@[simp] theorem State.modRouter_dirBusy (s : State) (f : Router → Router) : (s.modRouter f).dirBusy = s.dirBusy := rfl
@[simp] theorem State.modRouter_arr (s : State) (f : Router → Router) : (s.modRouter f).arr = s.arr := rfl
@[simp] theorem State.modRouter_halves (s : State) (f : Router → Router) : (s.modRouter f).halves = s.halves := rfl
@[simp] theorem State.modRouter_sys (s : State) (f : Router → Router) : (s.modRouter f).sys = s.sys := rfl
@[simp] theorem State.modRouter_router (s : State) (f : Router → Router) : (s.modRouter f).router = f s.router := rfl
@[simp] theorem State.modRouter_fab (s : State) (f : Router → Router) : (s.modRouter f).fab = s.fab := rfl
@[simp] theorem State.modRouter_host (s : State) (f : Router → Router) : (s.modRouter f).host = s.host := rfl
@[simp] theorem State.modRouter_power (s : State) (f : Router → Router) : (s.modRouter f).power = s.power := rfl
@[simp] theorem State.modRouter_time (s : State) (f : Router → Router) : (s.modRouter f).time = s.time := rfl
@[simp] theorem State.modRouter_boot (s : State) (f : Router → Router) : (s.modRouter f).boot = s.boot := rfl
@[simp] theorem State.modRouter_sec (s : State) (f : Router → Router) : (s.modRouter f).sec = s.sec := rfl
@[simp] theorem State.modRouter_dict (s : State) (f : Router → Router) : (s.modRouter f).dict = s.dict := rfl
@[simp] theorem State.modRouter_laneTimes (s : State) (f : Router → Router) : (s.modRouter f).laneTimes = s.laneTimes := rfl
@[simp] theorem State.modRouter_epoch (s : State) (f : Router → Router) : (s.modRouter f).epoch = s.epoch := rfl
@[simp] theorem State.modRouter_errlog (s : State) (f : Router → Router) : (s.modRouter f).errlog = s.errlog := rfl
@[simp] theorem State.modRouter_errLast (s : State) (f : Router → Router) : (s.modRouter f).errLast = s.errLast := rfl
@[simp] theorem State.modRouter_errq (s : State) (f : Router → Router) : (s.modRouter f).errq = s.errq := rfl
@[simp] theorem State.modRouter_flogDue (s : State) (f : Router → Router) : (s.modRouter f).flogDue = s.flogDue := rfl
@[simp] theorem State.modRouter_acts (s : State) (f : Router → Router) : (s.modRouter f).acts = s.acts := rfl
@[simp] theorem State.modRouter_maps (s : State) (f : Router → Router) : (s.modRouter f).maps = s.maps := rfl
@[simp] theorem State.modRouter_mapDue (s : State) (f : Router → Router) : (s.modRouter f).mapDue = s.mapDue := rfl
@[simp] theorem State.modRouter_now (s : State) (f : Router → Router) : (s.modRouter f).now = s.now := rfl
@[simp] theorem State.modRouter_frac (s : State) (f : Router → Router) : (s.modRouter f).frac = s.frac := rfl
@[simp] theorem State.modRouter_ran (s : State) (f : Router → Router) : (s.modRouter f).ran = s.ran := rfl
@[simp] theorem State.modRouter_free (s : State) (f : Router → Router) : (s.modRouter f).free = s.free := rfl

@[simp] theorem State.modStack_pending (s : State) (k : Nat) (f : Stack → Stack) : (s.modStack k f).pending = s.pending := rfl
@[simp] theorem State.modStack_creg (s : State) (k : Nat) (f : Stack → Stack) : (s.modStack k f).creg = s.creg := rfl
@[simp] theorem State.modStack_mem (s : State) (k : Nat) (f : Stack → Stack) : (s.modStack k f).mem = s.mem := rfl
@[simp] theorem State.modStack_flaw (s : State) (k : Nat) (f : Stack → Stack) : (s.modStack k f).flaw = s.flaw := rfl
@[simp] theorem State.modStack_lineErr (s : State) (k : Nat) (f : Stack → Stack) : (s.modStack k f).lineErr = s.lineErr := rfl
@[simp] theorem State.modStack_micro (s : State) (k : Nat) (f : Stack → Stack) : (s.modStack k f).micro = s.micro := rfl
@[simp] theorem State.modStack_microGen (s : State) (k : Nat) (f : Stack → Stack) : (s.modStack k f).microGen = s.microGen := rfl
@[simp] theorem State.modStack_cores (s : State) (k : Nat) (f : Stack → Stack) : (s.modStack k f).cores = s.cores := rfl
@[simp] theorem State.modStack_seqs (s : State) (k : Nat) (f : Stack → Stack) : (s.modStack k f).seqs = s.seqs := rfl
@[simp] theorem State.modStack_timers (s : State) (k : Nat) (f : Stack → Stack) : (s.modStack k f).timers = s.timers := rfl
@[simp] theorem State.modStack_samples (s : State) (k : Nat) (f : Stack → Stack) : (s.modStack k f).samples = s.samples := rfl
@[simp] theorem State.modStack_mcq (s : State) (k : Nat) (f : Stack → Stack) : (s.modStack k f).mcq = s.mcq := rfl
@[simp] theorem State.modStack_banks (s : State) (k : Nat) (f : Stack → Stack) : (s.modStack k f).banks = s.banks := rfl
@[simp] theorem State.modStack_memStacks (s : State) (k : Nat) (f : Stack → Stack) : (s.modStack k f).memStacks = tset (konst Stack.reset) s.memStacks k (f (s.stack k)) := rfl
@[simp] theorem State.modStack_packets (s : State) (k : Nat) (f : Stack → Stack) : (s.modStack k f).packets = s.packets := rfl
@[simp] theorem State.modStack_nextTag (s : State) (k : Nat) (f : Stack → Stack) : (s.modStack k f).nextTag = s.nextTag := rfl
@[simp] theorem State.modStack_resps (s : State) (k : Nat) (f : Stack → Stack) : (s.modStack k f).resps = s.resps := rfl
@[simp] theorem State.modStack_routes (s : State) (k : Nat) (f : Stack → Stack) : (s.modStack k f).routes = s.routes := rfl
@[simp] theorem State.modStack_routeBank (s : State) (k : Nat) (f : Stack → Stack) : (s.modStack k f).routeBank = s.routeBank := rfl
@[simp] theorem State.modStack_replays (s : State) (k : Nat) (f : Stack → Stack) : (s.modStack k f).replays = s.replays := rfl
@[simp] theorem State.modStack_traceQ (s : State) (k : Nat) (f : Stack → Stack) : (s.modStack k f).traceQ = s.traceQ := rfl
@[simp] theorem State.modStack_tokens (s : State) (k : Nat) (f : Stack → Stack) : (s.modStack k f).tokens = s.tokens := rfl
@[simp] theorem State.modStack_dir (s : State) (k : Nat) (f : Stack → Stack) : (s.modStack k f).dir = s.dir := rfl
@[simp] theorem State.modStack_dirBusy (s : State) (k : Nat) (f : Stack → Stack) : (s.modStack k f).dirBusy = s.dirBusy := rfl
@[simp] theorem State.modStack_arr (s : State) (k : Nat) (f : Stack → Stack) : (s.modStack k f).arr = s.arr := rfl
@[simp] theorem State.modStack_halves (s : State) (k : Nat) (f : Stack → Stack) : (s.modStack k f).halves = s.halves := rfl
@[simp] theorem State.modStack_sys (s : State) (k : Nat) (f : Stack → Stack) : (s.modStack k f).sys = s.sys := rfl
@[simp] theorem State.modStack_router (s : State) (k : Nat) (f : Stack → Stack) : (s.modStack k f).router = s.router := rfl
@[simp] theorem State.modStack_fab (s : State) (k : Nat) (f : Stack → Stack) : (s.modStack k f).fab = s.fab := rfl
@[simp] theorem State.modStack_host (s : State) (k : Nat) (f : Stack → Stack) : (s.modStack k f).host = s.host := rfl
@[simp] theorem State.modStack_power (s : State) (k : Nat) (f : Stack → Stack) : (s.modStack k f).power = s.power := rfl
@[simp] theorem State.modStack_time (s : State) (k : Nat) (f : Stack → Stack) : (s.modStack k f).time = s.time := rfl
@[simp] theorem State.modStack_boot (s : State) (k : Nat) (f : Stack → Stack) : (s.modStack k f).boot = s.boot := rfl
@[simp] theorem State.modStack_sec (s : State) (k : Nat) (f : Stack → Stack) : (s.modStack k f).sec = s.sec := rfl
@[simp] theorem State.modStack_dict (s : State) (k : Nat) (f : Stack → Stack) : (s.modStack k f).dict = s.dict := rfl
@[simp] theorem State.modStack_laneTimes (s : State) (k : Nat) (f : Stack → Stack) : (s.modStack k f).laneTimes = s.laneTimes := rfl
@[simp] theorem State.modStack_epoch (s : State) (k : Nat) (f : Stack → Stack) : (s.modStack k f).epoch = s.epoch := rfl
@[simp] theorem State.modStack_errlog (s : State) (k : Nat) (f : Stack → Stack) : (s.modStack k f).errlog = s.errlog := rfl
@[simp] theorem State.modStack_errLast (s : State) (k : Nat) (f : Stack → Stack) : (s.modStack k f).errLast = s.errLast := rfl
@[simp] theorem State.modStack_errq (s : State) (k : Nat) (f : Stack → Stack) : (s.modStack k f).errq = s.errq := rfl
@[simp] theorem State.modStack_flogDue (s : State) (k : Nat) (f : Stack → Stack) : (s.modStack k f).flogDue = s.flogDue := rfl
@[simp] theorem State.modStack_acts (s : State) (k : Nat) (f : Stack → Stack) : (s.modStack k f).acts = s.acts := rfl
@[simp] theorem State.modStack_maps (s : State) (k : Nat) (f : Stack → Stack) : (s.modStack k f).maps = s.maps := rfl
@[simp] theorem State.modStack_mapDue (s : State) (k : Nat) (f : Stack → Stack) : (s.modStack k f).mapDue = s.mapDue := rfl
@[simp] theorem State.modStack_now (s : State) (k : Nat) (f : Stack → Stack) : (s.modStack k f).now = s.now := rfl
@[simp] theorem State.modStack_frac (s : State) (k : Nat) (f : Stack → Stack) : (s.modStack k f).frac = s.frac := rfl
@[simp] theorem State.modStack_ran (s : State) (k : Nat) (f : Stack → Stack) : (s.modStack k f).ran = s.ran := rfl
@[simp] theorem State.modStack_free (s : State) (k : Nat) (f : Stack → Stack) : (s.modStack k f).free = s.free := rfl

@[simp] theorem State.setHalf_pending (s : State) (e h : Nat) (v : Half) : (s.setHalf e h v).pending = s.pending := rfl
@[simp] theorem State.setHalf_creg (s : State) (e h : Nat) (v : Half) : (s.setHalf e h v).creg = s.creg := rfl
@[simp] theorem State.setHalf_mem (s : State) (e h : Nat) (v : Half) : (s.setHalf e h v).mem = s.mem := rfl
@[simp] theorem State.setHalf_flaw (s : State) (e h : Nat) (v : Half) : (s.setHalf e h v).flaw = s.flaw := rfl
@[simp] theorem State.setHalf_lineErr (s : State) (e h : Nat) (v : Half) : (s.setHalf e h v).lineErr = s.lineErr := rfl
@[simp] theorem State.setHalf_micro (s : State) (e h : Nat) (v : Half) : (s.setHalf e h v).micro = s.micro := rfl
@[simp] theorem State.setHalf_microGen (s : State) (e h : Nat) (v : Half) : (s.setHalf e h v).microGen = s.microGen := rfl
@[simp] theorem State.setHalf_cores (s : State) (e h : Nat) (v : Half) : (s.setHalf e h v).cores = s.cores := rfl
@[simp] theorem State.setHalf_seqs (s : State) (e h : Nat) (v : Half) : (s.setHalf e h v).seqs = s.seqs := rfl
@[simp] theorem State.setHalf_timers (s : State) (e h : Nat) (v : Half) : (s.setHalf e h v).timers = s.timers := rfl
@[simp] theorem State.setHalf_samples (s : State) (e h : Nat) (v : Half) : (s.setHalf e h v).samples = s.samples := rfl
@[simp] theorem State.setHalf_mcq (s : State) (e h : Nat) (v : Half) : (s.setHalf e h v).mcq = s.mcq := rfl
@[simp] theorem State.setHalf_banks (s : State) (e h : Nat) (v : Half) : (s.setHalf e h v).banks = s.banks := rfl
@[simp] theorem State.setHalf_memStacks (s : State) (e h : Nat) (v : Half) : (s.setHalf e h v).memStacks = s.memStacks := rfl
@[simp] theorem State.setHalf_packets (s : State) (e h : Nat) (v : Half) : (s.setHalf e h v).packets = s.packets := rfl
@[simp] theorem State.setHalf_nextTag (s : State) (e h : Nat) (v : Half) : (s.setHalf e h v).nextTag = s.nextTag := rfl
@[simp] theorem State.setHalf_resps (s : State) (e h : Nat) (v : Half) : (s.setHalf e h v).resps = s.resps := rfl
@[simp] theorem State.setHalf_routes (s : State) (e h : Nat) (v : Half) : (s.setHalf e h v).routes = s.routes := rfl
@[simp] theorem State.setHalf_routeBank (s : State) (e h : Nat) (v : Half) : (s.setHalf e h v).routeBank = s.routeBank := rfl
@[simp] theorem State.setHalf_replays (s : State) (e h : Nat) (v : Half) : (s.setHalf e h v).replays = s.replays := rfl
@[simp] theorem State.setHalf_traceQ (s : State) (e h : Nat) (v : Half) : (s.setHalf e h v).traceQ = s.traceQ := rfl
@[simp] theorem State.setHalf_tokens (s : State) (e h : Nat) (v : Half) : (s.setHalf e h v).tokens = s.tokens := rfl
@[simp] theorem State.setHalf_dir (s : State) (e h : Nat) (v : Half) : (s.setHalf e h v).dir = s.dir := rfl
@[simp] theorem State.setHalf_dirBusy (s : State) (e h : Nat) (v : Half) : (s.setHalf e h v).dirBusy = s.dirBusy := rfl
@[simp] theorem State.setHalf_arr (s : State) (e h : Nat) (v : Half) : (s.setHalf e h v).arr = s.arr := rfl
@[simp] theorem State.setHalf_halves (s : State) (e h : Nat) (v : Half) : (s.setHalf e h v).halves = tset (konst Half.reset) s.halves (e * 2 + h) v := rfl
@[simp] theorem State.setHalf_sys (s : State) (e h : Nat) (v : Half) : (s.setHalf e h v).sys = s.sys := rfl
@[simp] theorem State.setHalf_router (s : State) (e h : Nat) (v : Half) : (s.setHalf e h v).router = s.router := rfl
@[simp] theorem State.setHalf_fab (s : State) (e h : Nat) (v : Half) : (s.setHalf e h v).fab = s.fab := rfl
@[simp] theorem State.setHalf_host (s : State) (e h : Nat) (v : Half) : (s.setHalf e h v).host = s.host := rfl
@[simp] theorem State.setHalf_power (s : State) (e h : Nat) (v : Half) : (s.setHalf e h v).power = s.power := rfl
@[simp] theorem State.setHalf_time (s : State) (e h : Nat) (v : Half) : (s.setHalf e h v).time = s.time := rfl
@[simp] theorem State.setHalf_boot (s : State) (e h : Nat) (v : Half) : (s.setHalf e h v).boot = s.boot := rfl
@[simp] theorem State.setHalf_sec (s : State) (e h : Nat) (v : Half) : (s.setHalf e h v).sec = s.sec := rfl
@[simp] theorem State.setHalf_dict (s : State) (e h : Nat) (v : Half) : (s.setHalf e h v).dict = s.dict := rfl
@[simp] theorem State.setHalf_laneTimes (s : State) (e h : Nat) (v : Half) : (s.setHalf e h v).laneTimes = s.laneTimes := rfl
@[simp] theorem State.setHalf_epoch (s : State) (e h : Nat) (v : Half) : (s.setHalf e h v).epoch = s.epoch := rfl
@[simp] theorem State.setHalf_errlog (s : State) (e h : Nat) (v : Half) : (s.setHalf e h v).errlog = s.errlog := rfl
@[simp] theorem State.setHalf_errLast (s : State) (e h : Nat) (v : Half) : (s.setHalf e h v).errLast = s.errLast := rfl
@[simp] theorem State.setHalf_errq (s : State) (e h : Nat) (v : Half) : (s.setHalf e h v).errq = s.errq := rfl
@[simp] theorem State.setHalf_flogDue (s : State) (e h : Nat) (v : Half) : (s.setHalf e h v).flogDue = s.flogDue := rfl
@[simp] theorem State.setHalf_acts (s : State) (e h : Nat) (v : Half) : (s.setHalf e h v).acts = s.acts := rfl
@[simp] theorem State.setHalf_maps (s : State) (e h : Nat) (v : Half) : (s.setHalf e h v).maps = s.maps := rfl
@[simp] theorem State.setHalf_mapDue (s : State) (e h : Nat) (v : Half) : (s.setHalf e h v).mapDue = s.mapDue := rfl
@[simp] theorem State.setHalf_now (s : State) (e h : Nat) (v : Half) : (s.setHalf e h v).now = s.now := rfl
@[simp] theorem State.setHalf_frac (s : State) (e h : Nat) (v : Half) : (s.setHalf e h v).frac = s.frac := rfl
@[simp] theorem State.setHalf_ran (s : State) (e h : Nat) (v : Half) : (s.setHalf e h v).ran = s.ran := rfl
@[simp] theorem State.setHalf_free (s : State) (e h : Nat) (v : Half) : (s.setHalf e h v).free = s.free := rfl

end Sys2Proof.Machine
end

