-- ==== Sys2Proof/Laws/Staging.lean ====
section
/-! SUPPORT. Laws of staging memory: what reads and writes do where nothing stored is wrong, whichever of the two part sizes holds (R2, R140–R143). -/
namespace Sys2Proof.Machine

theorem stackSize_pos : 0x400000000 ≤ stackSize := by unfold stackSize; split <;> decide
theorem stagingEnd_pos : 0x1000000000 ≤ stagingEnd := by have := stackSize_pos; unfold stagingEnd; omega
theorem stagingEnd_le : stagingEnd ≤ 0x1800000000 := by unfold stagingEnd stackSize; split <;> decide

/-- An access in the first stack decodes to port 1 of its stop. -/
theorem decodePort_low {a : Nat} (h : a < 0x400000000) : decodePort a = some (1, 1) := by
  have h1 := stackSize_pos
  have h2 := stagingEnd_pos
  have h3 : a / stackSize = 0 := Nat.div_eq_of_lt (by omega)
  unfold decodePort
  rw [if_pos (by omega), h3]
  rfl

/-- It wakes domain H0. -/
theorem wakes_low {a : Nat} (h : a < 0x400000000) : wakes a = some 21 := by unfold wakes; rw [decodePort_low h]; rfl

/-- Where a port's access to it is answered TARGET_ISOLATED. -/
theorem isolatedFrom_low {a : Nat} (h : a < 0x400000000) (src : Nat × Nat) (n : Nat) (s : State) :
    s.isolatedFrom src n a = (s.isolated 1 1 || s.noRoute n src.1 1) := by
  unfold State.isolatedFrom; rw [decodePort_low h]
theorem isolatedFor_low {a : Nat} (h : a < 0x400000000) (i : Initiator) (n : Nat) (s : State) :
    s.isolatedFor i n a = (s.isolated 1 1 || s.noRoute n (sourcePort i).1 1) := isolatedFrom_low h _ n s

/-- An address and the start of its line go to the same port. -/
theorem decodePort_line {a : Nat} (h : a < stagingEnd) : decodePort (a / 64 * 64) = decodePort a := by
  have h1 : a / 64 * 64 ≤ a := Nat.div_mul_le_self a 64
  have h2 : a / 64 * 64 / stackSize = a / stackSize := by unfold stackSize; split <;> omega
  unfold decodePort
  rw [if_pos (show a / 64 * 64 < stagingEnd by omega), if_pos h, h2]
theorem wakes_line {a : Nat} (h : a < stagingEnd) : wakes (a / 64 * 64) = wakes a := by unfold wakes; rw [decodePort_line h]
theorem isolatedFrom_line {a : Nat} (h : a < stagingEnd) (src : Nat × Nat) (n : Nat) (s : State) :
    s.isolatedFrom src n (a / 64 * 64) = s.isolatedFrom src n a := by unfold State.isolatedFrom; rw [decodePort_line h]

/-- With the domain ON, the address is reachable. -/
theorem reachable_on {a : Nat} {s : State} (h : ∀ d, wakes a = some d → s.dom d = 0) : s.reachable a = true := by
  unfold State.reachable
  split
  · rename_i d hd
    simp [State.domUp, h d hd]
  · rfl

theorem dataRange_staging {a n : Nat} (h : a + n ≤ stagingEnd) : dataRange a n = .staging := by unfold dataRange; rw [if_pos h]

/-- Steps that each leave a state as it is leave it so together. -/
theorem each_id {α σ : Type} {l : List α} {f : α → σ → σ} {s : σ} (h : ∀ x, x ∈ l → f x s = s) : each l f s = s := by
  induction l with
  | nil => rfl
  | cons x l ih =>
    show each l f (f x s) = s
    rw [h x (List.mem_cons_self ..)]
    exact ih (fun y hy => h y (List.mem_cons_of_mem _ hy))

/-- No line is held where no transaction is under way. -/
theorem finishLine_idle {s : State} (h : s.dirBusy = []) (l : Nat) : finishLine l s = s := by
  have : s.lineBusy l = false := by simp [State.lineBusy, State.dbusy, h, tget, konst]
  simp [finishLine, this]

/-- No earlier packet comes before an access, and none waits in a wake buffer. -/
theorem clearWay_quiet {src : Nat × Nat} {s : State} (h : QuietFrom src s) (dl : Packet → State → State) (d : Nat × Nat) (n : Net) : clearWay dl src d n s = s := by
  have he : s.packets.filter (fun p => p.op.isSome && p.net == n && p.sstop.val == src.1 && p.sport == src.2 && p.dstop.val == d.1 && p.dport == d.2) = [] := by
    rw [List.filter_eq_nil_iff]
    intro p hp hq
    simp only [Bool.and_eq_true, beq_iff_eq] at hq
    exact (h.1 p hp).1 hq.1.1.1.1.1 (Prod.ext hq.1.1.1.2 hq.1.1.2)
  unfold clearWay
  rw [he]
  rfl
theorem deliverBuffer_quiet {src : Nat × Nat} {s : State} (h : QuietFrom src s) (dl : Packet → State → State) (d : Nat) : deliverBuffer dl d s = s := by
  have he : s.packets.filter (fun p => p.stage == .held && p.bridge == some d) = [] := by
    rw [List.filter_eq_nil_iff]
    intro p hp hq
    simp only [Bool.and_eq_true, beq_iff_eq] at hq
    exact (h.1 p hp).2 hq.1
  unfold deliverBuffer
  rw [he]
  rfl

/-- Nothing is to be waited for at a home that is ON. -/
theorem awaken_quiet {src : Nat × Nat} {s : State} (h : QuietFrom src s) (dl : Packet → State → State) {a : Nat} (hd : ∀ d, wakes a = some d → s.dom d = 0) :
    awaken dl a s = s := by
  unfold awaken
  cases hw : wakes a with
  | none => rfl
  | some d =>
    have : wakeNow d s = s := by simp [wakeNow, hd d hw]
    simp [this, deliverBuffer_quiet h]
theorem finishLines_quiet {s : State} (h : s.dirBusy = []) (a n : Nat) : finishLines a n s = s := by
  have h3 : each (linesOf a n) (fun l s => finishLine (l / 64) s) s = s := each_id (fun l _ => finishLine_idle h _)
  simp [finishLines, h3]
theorem settle_quiet {src : Nat × Nat} {s : State} (h : QuietFrom src s) (dl : Packet → State → State) {a : Nat} (hd : ∀ d, wakes a = some d → s.dom d = 0) (n : Nat) :
    settle dl a n s = s := by
  rw [settle, awaken_quiet h dl hd, finishLines_quiet h.2.1]

/-- An access passes no enabled probe. -/
theorem trip_quiet {s : State} (h : s.probing = false) (src : Nat × Nat) (i : Initiator) (a : Nat) (op : RingOp) (st : RStat) : trip src i a op st s = s := by
  unfold trip; cases decodePort a <;> simp [h, Option.filter]

/-- The stops of ports are those of Table RING-2. -/
theorem seqStop_lt (q : Nat) : seqStop q < 16 := by unfold seqStop; rcases q with _ | _ | _ | _ | _ | q <;> simp
theorem hStop_lt (k : Nat) : hStop k < 16 := by unfold hStop; rcases k with _ | _ | _ | _ | k <;> simp
theorem lStop_lt (e : Nat) : lStop e < 16 := by unfold lStop; rcases e with _ | _ | _ | _ | e <;> simp
theorem bankStop_lt (b : Nat) : bankStop b < 16 := by
  unfold bankStop
  obtain ⟨k, hk⟩ : ∃ k, k = b / 4 := ⟨_, rfl⟩
  rw [← hk]
  rcases k with _ | _ | _ | _ | _ | _ | _ | _ | _ | _ | _ | _ | _ | _ | _ | _ | k <;> simp
theorem pagePort_lt (p : Nat) : (pagePort p).1 < 16 := by
  unfold pagePort
  split
  · exact seqStop_lt _
  · split
    · show (if p = 0x1d then 7 else seqStop (p - 0x18)) < 16
      split
      · decide
      · exact seqStop_lt _
    · split
      · exact hStop_lt _
      · split
        · exact lStop_lt _
        · repeat' split
          all_goals first | exact bankStop_lt _ | decide
theorem decodePort_lt {a : Nat} {d : Nat × Nat} (h : decodePort a = some d) : d.1 < 16 := by
  unfold decodePort at h
  repeat' split at h
  all_goals cases h
  all_goals first | exact hStop_lt _ | exact pagePort_lt _ | exact seqStop_lt _ | exact bankStop_lt _ | (show _ < 16; decide)
theorem sourcePort_lt (i : Initiator) : (sourcePort i).1 < 16 := by
  cases i <;> first | exact seqStop_lt _ | exact hStop_lt _ | decide

theorem netIdx_lt (n : Net) : netIdx n < 4 := by cases n <;> decide

/-- No snoop is lost where every route is there. -/
theorem snoopLost_routed {s : State} (h : Routed s) (i : Initiator) (op : RingOp) (ls : List Nat) : s.snoopLost i op ls = false := by
  unfold State.snoopLost
  simp [h 2 _ _ (by decide) (hStop_lt _) (seqStop_lt _), h 2 _ _ (by decide) (seqStop_lt _) (hStop_lt _), homePort, agentPort]

/-- What an access needs of the state that its target leaves: no probe, no retirement and every route. -/
def Passive (t : State) : Prop := t.probing = false ∧ (∀ n, t.cutting n = none) ∧ Routed t

theorem QuietFrom.passive {src : Nat × Nat} {s : State} (h : QuietFrom src s) : Passive s := ⟨h.2.2.1, h.2.2.2.1, h.2.2.2.2.2.2⟩
theorem switchWay_passive {t : State} (h : Passive t) (n : Nat) (src d : Nat × Nat) : switchWay n src d t = t := by simp [switchWay, State.waitsCut, h.2.1]

/-- An access that nothing on the rings meets has the answer and the effect of its target. -/
theorem carry_quiet {src : Nat × Nat} {s : State} (h : QuietFrom src s) (dl : Packet → State → State) (i : Initiator) {a n : Nat} {op : RingOp}
    {f : State → RStat × List Byte × State} (hd : ∀ d, wakes a = some d → s.dom d = 0) (hi : s.isolatedFrom src 0 a = false)
    (hf : Passive (f s).2.2) : carry dl src i a n op f s = f s := by
  unfold carry
  cases hp : decodePort a with
  | none => rfl
  | some d =>
    have hs := decodePort_lt hp
    have hi' : s.isolated d.1 d.2 = false := by
      unfold State.isolatedFrom at hi; rw [hp] at hi; simp at hi; exact hi.1
    have h0 : s.noRoute (netIdx op.net) src.1 d.1 = false := h.2.2.2.2.2.2 _ _ _ (netIdx_lt _) h.2.2.2.2.2.1 hs
    have h2 : spend src d op s = s := by unfold spend; rw [if_pos (Or.inr (Or.inr (Or.inr (h.2.2.2.2.1 _))))]
    have h4 : switchBack src d op (f s).2.2 = (f s).2.2 := by simp [switchBack, when, switchWay_passive hf]
    have h5 : ∀ st, State.noReturn (f s).2.2 src d op st = false := fun st => by
      simp [State.noReturn, hf.2.2 1 _ _ (by decide) hs h.2.2.2.2.2.1, hf.2.2 3 _ _ (by decide) hs h.2.2.2.2.2.1]
    have h6 : clearWay dl src d op.net s = s := clearWay_quiet h dl d op.net
    have h7 : finishLines a n s = s := finishLines_quiet h.2.1 a n
    have h8 : s.snoopLost i op (lineNos a n) = false := snoopLost_routed h.passive.2.2 i op _
    simp [switchWay_passive h.passive, h0, hi', when, awaken_quiet h dl hd, h6, h2, h7, h8, h4, h5, trip_quiet hf.1]

/-- A line that holds no error is read as it stands. -/
theorem readLine_sound {s : State} (h : SoundMemory s) (l : Nat) : readLine l s = (.ok, s) := by
  have : s.lineErr_ l = 0 := by simp [State.lineErr_, h.1, tget, konst]
  have hs : stackLine l s = (.ok, s) := by simp [stackLine, this]
  simp [readLine, h.2, hs]
theorem readLines_sound {s : State} (h : SoundMemory s) (ls : List Nat) : readLines ls s = (.ok, s) := by
  induction ls with
  | nil => rfl
  | cons l ls ih => simp [readLines, readLine_sound h, ih]

/-- A read of sound staging memory gives its bytes and changes nothing. -/
theorem stagingRead_sound {s : State} (h : SoundMemory s) {a n : Nat} (he : a + n ≤ stagingEnd) : stagingRead a n s = (.ok, s.bytes a n, s) := by
  simp [stagingRead, readLines_sound h, Nat.not_lt.mpr he]

/-- A read outside the microstore, the window and the pages, in staging memory. -/
theorem targetRead_sound {s : State} (h : SoundMemory s) (i : Initiator) {a n : Nat} (hn : a + n ≤ stagingEnd) (h0 : 0 < n) :
    targetRead i a n s = (.ok, s.bytes a n, s) := by
  have h1 := stagingEnd_le
  have hc : inControl a = false := by simp [inControl]; omega
  have hm : inMicrostore a n = false := by simp [inMicrostore]; omega
  have hw : inWindow a n = false := by simp [inWindow]; omega
  simp [targetRead, hc, devRead, hm, hw, dataRead, dataRange_staging hn, stagingRead_sound h hn]

/-- The lines that n bytes at a touch each hold one of them. -/
theorem mem_lineNos {a n l : Nat} (h : l ∈ lineNos a n) : ∃ x, a ≤ x ∧ x < a + n ∧ x / 64 = l := by
  unfold lineNos linesOf at h
  split at h
  · split at h
    · simp at h
    · simp only [List.map_map, List.mem_map, List.mem_range, Function.comp_apply] at h
      obtain ⟨i, hi, rfl⟩ := h
      exact ⟨max a ((a / 64 + i) * 64), by omega, by omega, by omega⟩
  · simp at h

/-- A read by an initiator that caches nothing takes no line back where no cache has it alone. -/
theorem recallCopies_alone {s : State} {ls : List Nat} (h : ∀ l, l ∈ ls → (s.dline l).excl = false) (i : Initiator) {op : RingOp}
    (ho : ∀ l, s.snoopsOf i op l = if (s.dline l).excl then (s.dline l).holders else 0) : recallCopies i op ls s = s := by
  refine each_id (fun l hl => ?_)
  have : s.snoopsOf i op l = 0 := by rw [ho, h l hl]; rfl
  rw [this]
  rfl

/-- One request of a long read of sound staging memory. -/
theorem unitRead_sound {src : Nat × Nat} {i : Initiator} {a n : Nat} {s : State} (h : SoundAt src a n s) (h0 : 0 < n) : unitRead src i a n s = (.ok, s.bytes a n, s) := by
  obtain ⟨he, hm, hq, hx⟩ := h
  have hl : ∀ l, l ∈ lineNos a n → (s.dline l).excl = false := fun l hl => by
    obtain ⟨x, h1, h2, rfl⟩ := mem_lineNos hl
    exact (hx x h1 h2).2.1
  have hx := hx a (Nat.le_refl a) (by omega)
  have hg : targetRead i a n (recallCopies i (.rdl .b1) (lineNos a n) s) = (.ok, s.bytes a n, s) := by
    rw [recallCopies_alone hl i (fun _ => rfl)]
    exact targetRead_sound hm i he h0
  unfold unitRead
  rw [if_pos (show a < stagingEnd by omega)]
  split
  · show targetRead i a n (recallCopies i (.rdl .b1) (lineNos a n) (settle deliverUnit a n s)) = _
    rw [settle_quiet hq _ hx.2.2, hg]
  · have hf : Passive (targetRead i a n (recallCopies i (.rdl .b1) (lineNos a n) s)).2.2 := by rw [hg]; exact hq.passive
    exact (carry_quiet (op := .rdl .b1) (f := fun s => targetRead i a n (recallCopies i (.rdl .b1) (lineNos a n) s)) hq deliverUnit i hx.2.2 hx.1 hf).trans hg

/-- The bytes of a run are those of its first part and of the rest. -/
theorem bytes_add (s : State) (a m n : Nat) : s.bytes a (m + n) = s.bytes a m ++ s.bytes (a + m) n := by
  unfold State.bytes
  rw [List.range_add, List.map_append, List.map_map]
  congr 1
  exact List.map_congr_left (fun k _ => by simp [Nat.add_assoc])

/-- A long read of sound staging memory gives its bytes and changes nothing; `fuel` covers its lines. -/
theorem runRead_sound {src : Nat × Nat} {i : Initiator} (fuel : Nat) {a n : Nat} {s : State} (h : SoundAt src a n s) (hf : n = 0 ∨ a % 64 + n ≤ 64 * fuel) :
    runRead src i fuel a n s = (.ok, s.bytes a n, s) := by
  induction fuel generalizing a n with
  | zero => have : n = 0 := by omega
            subst this; rfl
  | succ fuel ih =>
    unfold runRead
    by_cases h0 : n = 0
    · subst h0; rfl
    · have hl : a < stagingEnd := by have := h.1; omega
      have hu : unit a n = min n (64 - a % 64) := by unfold unit; rw [if_pos hl]
      obtain ⟨m, hm⟩ : ∃ m, m = min n (64 - a % 64) := ⟨_, rfl⟩
      obtain ⟨k, hk⟩ : ∃ k, n = m + k := ⟨n - m, by omega⟩
      have h1 : SoundAt src a m s := ⟨by have := h.1; omega, h.2.1, h.2.2.1, fun x ha hb => h.2.2.2 x ha (by omega)⟩
      have h2 : SoundAt src (a + m) k s := ⟨by have := h.1; omega, h.2.1, h.2.2.1, fun x ha hb => h.2.2.2 x (by omega) (by omega)⟩
      have hr := ih (a := a + m) (n := k) h2 (by omega)
      have hs : n - m = k := by omega
      rw [if_neg h0, hu, ← hm]
      simp only [unitRead_sound h1 (show 0 < m by omega), hs, hr]
      simp [hk, bytes_add]

theorem memRead_sound {src : Nat × Nat} {i : Initiator} {a n : Nat} {s : State} (h : SoundAt src a n s) : memRead src i a n s = (.ok, s.bytes a n, s) := by
  unfold memRead
  rw [if_neg (Nat.not_lt.mpr h.1), runRead_sound _ h (by omega)]
  rfl

/-- A write of up to 8 bytes within one line stores them. -/
theorem writeLine_sound {s : State} (h : SoundMemory s) (a : Nat) (v : List Byte) (hv : v.length < 64) :
    writeLine a v s = (.ok, dropLine (a / 64 * 64) (s.setBytes a v)) := by
  have : ¬ v.length = 64 := by omega
  simp [writeLine, h.2, this, readLine_sound h]

theorem stagingWrite_sound {s : State} (h : SoundMemory s) {a : Nat} {v : List Byte} (hv : v.length < 64) (h0 : v ≠ []) (hl : v.length ≤ 64 - a % 64)
    (he : a + v.length ≤ stagingEnd) : stagingWrite a v s = (.ok, dropLine (a / 64 * 64) (s.setBytes a v)) := by
  have h1 : v.length / 64 + 2 = (v.length / 64 + 1) + 1 := rfl
  have ht : v.take (64 - a % 64) = v := List.take_of_length_le hl
  have hd : v.drop (64 - a % 64) = [] := List.drop_of_length_le hl
  rw [stagingWrite, if_neg (Nat.not_lt.mpr he), h1, stagingWriteAux, if_neg h0]
  simp only [ht, hd, writeLine_sound h a v hv]
  simp [stagingWriteAux]

/-- The same through the ring. -/
theorem targetWrite_sound {s : State} (h : SoundMemory s) (i : Initiator) {a : Nat} {v : List Byte} (hv : v.length < 64) (h0 : v ≠ []) (hl : v.length ≤ 64 - a % 64)
    (ha : a + v.length ≤ 0x1000000000) : targetWrite i a v s = (.ok, dropLine (a / 64 * 64) (s.setBytes a v)) := by
  have h1 := stagingEnd_pos
  have hp : 0 < v.length := List.length_pos_iff.mpr h0
  have hc : inControl a = false := by simp [inControl]; omega
  have hm : inMicrostore a v.length = false := by simp [inMicrostore]; omega
  have hw : inWindow a v.length = false := by simp [inWindow]; omega
  simp [targetWrite, hc, devWrite, hm, hw, dataWrite, dataRange_staging (show a + v.length ≤ stagingEnd by omega), stagingWrite_sound h hv h0 hl (by omega)]

/-- A read over quiet rings of sound memory. -/
theorem busRead_sound {i : Initiator} {a n : Nat} {s : State} (h : SoundMemory s) (hq : QuietRings i s) (hd : ∀ d, wakes a = some d → s.dom d = 0)
    (hi : s.isolatedFor i 0 a = false) (hn : a + n ≤ 0x1000000000) (h0 : 0 < n) : busRead i a n s = (.ok, s.bytes a n, s) := by
  have h1 := stagingEnd_pos
  have ht := targetRead_sound h i (show a + n ≤ stagingEnd by omega) h0
  have hf : Passive (targetRead i a n s).2.2 := by rw [ht]; exact hq.passive
  exact (carry_quiet (op := narrowOp n none) (f := targetRead i a n) hq deliver i hd hi hf).trans ht

/-- States of the same registers, activities and routes are passive together. -/
theorem Passive.of_same {s t : State} (h : Passive s) (h1 : t.creg = s.creg) (h2 : t.acts = s.acts) (h3 : t.routes = s.routes) (h4 : t.routeBank = s.routeBank) : Passive t := by
  have hc : ∀ n, t.cutting n = s.cutting n := fun n => by unfold State.cutting; rw [h2]
  have hb : ∀ a k, t.bit a k = s.bit a k := fun a k => by unfold State.bit State.fld State.r64 State.r32; rw [h1]
  refine ⟨?_, fun n => (hc n).trans (h.2.1 n), fun n x y hn hx hy => ?_⟩
  · have := h.1
    unfold State.probing at *
    simpa only [hb] using this
  · have := h.2.2 n x y hn hx hy
    unfold State.noRoute State.unreachable State.crosses State.segOut State.routeOf State.route State.stopBank at *
    simpa only [hb, hc, h3, h4] using this

/-- Bytes written change memory alone. -/
theorem same_setBytes (v : List Byte) (a : Nat) (s : State) : { s.setBytes a v with mem := s.mem } = s := by
  induction v generalizing a s with
  | nil => rfl
  | cons b v ih =>
    have := ih (a + 1) (s.setByte a b)
    have h2 : ({ s.setByte a b with mem := s.mem } : State) = s := by cases s; rfl
    calc _ = { ({ (s.setByte a b).setBytes (a + 1) v with mem := (s.setByte a b).mem } : State) with mem := s.mem } := rfl
      _ = _ := by rw [this]; exact h2
/-- A byte that a run of bytes covers, and one that it does not. -/
theorem byte_setBytes (v : List Byte) (a b : Nat) (s : State) : (s.setBytes a v).byte b = if a ≤ b ∧ b < a + v.length then v.getD (b - a) 0 else s.byte b := by
  induction v generalizing a s with
  | nil => simp [State.setBytes] <;> omega
  | cons x v ih =>
    rw [State.setBytes, ih]
    by_cases hb : b = a
    · subst hb
      rw [if_neg (by omega), if_pos ⟨Nat.le_refl _, by simp⟩]
      simp [State.byte, State.setByte, tget_tset_same]
    · have hx : (s.setByte a x).byte b = s.byte b := tget_tset_other memDefault s.mem a b x hb
      rw [hx]
      by_cases hc : a + 1 ≤ b ∧ b < a + 1 + v.length
      · rw [if_pos hc, if_pos (by simp only [List.length_cons]; omega), show b - a = (b - (a + 1)) + 1 by omega]; rfl
      · rw [if_neg hc, if_neg (by simp only [List.length_cons]; omega)]
/-- A run of bytes within what was written of memory elsewhere. -/
theorem bytes_copied {s t : State} {a b n k m : Nat} (h : k + m ≤ n) : (t.setBytes b (s.bytes a n)).bytes (b + k) m = s.bytes (a + k) m := by
  have hl : (s.bytes a n).length = n := by simp [State.bytes]
  refine List.map_congr_left (fun i hi => ?_)
  have hi := List.mem_range.mp hi
  rw [byte_setBytes, if_pos (by omega), show b + k + i - b = k + i by omega]
  simp [State.bytes, show k + i < n by omega, Nat.add_assoc]
theorem passive_setBytes {v : List Byte} {a : Nat} {s : State} (h : Passive s) : Passive (s.setBytes a v) := by
  have hs := same_setBytes v a s
  refine h.of_same ?_ ?_ ?_ ?_ <;> (conv => rhs; rw [← hs])

/-- A write over quiet rings to sound memory. -/
theorem busWrite_sound {i : Initiator} {a : Nat} {v : List Byte} {s : State} (h : SoundMemory s) (hq : QuietRings i s) (hd : ∀ d, wakes a = some d → s.dom d = 0)
    (hi : s.isolatedFor i 0 a = false) (hv : v.length < 64) (h0 : v ≠ []) (hl : v.length ≤ 64 - a % 64) (hn : a + v.length ≤ 0x1000000000) :
    busWrite i a v s = (.ok, dropLine (a / 64 * 64) (s.setBytes a v)) := by
  have ht := targetWrite_sound h i hv h0 hl hn
  have hf : Passive (targetWrite i a v s).2 := by rw [ht]; exact (passive_setBytes hq.passive).of_same rfl rfl rfl rfl
  unfold busWrite
  rw [carry_quiet (op := narrowOp v.length (some v)) (f := fun s => let x := targetWrite i a v s; (x.1, [], x.2)) hq deliver i hd hi hf, ht]

/-- What the directory's bookkeeping for a line leaves: the back-invalidations of another line take tags and free values alone where no probe is enabled. -/
def Unmoved (s t : State) : Prop := { t with dir := s.dir, nextTag := s.nextTag, free := s.free } = s

theorem Unmoved.rfl {s : State} : Unmoved s s := by cases s; exact Eq.refl _
theorem Unmoved.trans {s t u : State} (h : Unmoved s t) (g : Unmoved t u) : Unmoved s u := by
  unfold Unmoved at *; cases s; cases t; cases u; simp_all
theorem Unmoved.passive {s t : State} (h : Unmoved s t) (hp : Passive s) : Passive t := by
  refine hp.of_same ?_ ?_ ?_ ?_ <;> (conv => rhs; rw [← h])
theorem Unmoved.lineErr {s t : State} (h : Unmoved s t) : t.lineErr = s.lineErr := by conv => rhs; rw [← h]
theorem Unmoved.sound {s t : State} (h : Unmoved s t) (hm : SoundMemory s) : SoundMemory t := by
  refine ⟨h.lineErr.trans hm.1, fun k => ?_⟩
  have : t.memStacks = s.memStacks := by conv => rhs; rw [← h]
  have := hm.2 k
  simp_all [State.stack]

theorem probe_off {s : State} (h : s.probing = false) (b : Bool) (p : Packet) : probe b p s = s := by
  unfold probe
  split
  · rfl
  · refine each_id (fun k hk => ?_)
    have hn : netIdx p.net < 4 := netIdx_lt _
    have hr : k < 32 := by
      simp only [netProbes, List.mem_map, List.mem_range] at hk
      obtain ⟨j, hj, rfl⟩ := hk
      omega
    have : s.bit (cr 0x41 (0x40 * k)) 31 = false := by
      have := List.any_eq_false.mp h k (List.mem_range.mpr hr)
      simpa using this
    simp [probeOne, State.probes, this]

/-- Where nothing stored is wrong and no probe is enabled, a step of the directory leaves the rest as it is, and what it asks of the state. -/
def Calm (s : State) : Prop := s.probing = false ∧ s.lineErr = []

theorem Unmoved.calm {s t : State} (h : Unmoved s t) (hc : Calm s) : Calm t := by
  have h1 : t.creg = s.creg := by conv => rhs; rw [← h]
  refine ⟨?_, h.lineErr.trans hc.2⟩
  have := hc.1
  unfold State.probing State.bit State.fld State.r64 State.r32 at *
  rwa [h1]

/-- The directory's entry of a line replaced. -/
theorem setLine_unmoved (l : Nat) (v : DirLine) (s : State) : Unmoved s (setLine l v s) := by cases s; exact Eq.refl _

theorem snoopNow_unmoved {s : State} (h : Calm s) (l : Nat) (v : Bool) (c : CoreId) : Unmoved s (snoopNow l v c s) := by
  have h2 : ({ s with nextTag := s.nextTag + 1 } : State).probing = false := h.1
  have ht : snoopTrip l v c s = { s with nextTag := s.nextTag + 1 } := by simp only [snoopTrip, probe_off h2]
  have he : ∀ t : State, t.lineErr = [] → setLineErr (l * 64) 0 t = t := fun t ht => by
    have hn : tset (konst (0 : BitVec 576)) t.lineErr (l * 64 / 64) 0 = t.lineErr := by rw [ht]; simp [tset, konst, tdel]
    unfold setLineErr
    rw [hn]
  have hu : Unmoved s { s with nextTag := s.nextTag + 1 } := by cases s; exact Eq.refl _
  unfold snoopNow yieldLine
  rw [ht]
  refine hu.trans ?_
  have : when ((({ s with nextTag := s.nextTag + 1 } : State).dline l).dirty) (setLineErr (l * 64) 0) { s with nextTag := s.nextTag + 1 } = { s with nextTag := s.nextTag + 1 } := by
    unfold when
    split
    · exact he _ h.2
    · rfl
  simp only [this]
  exact setLine_unmoved _ _ _

theorem each_unmoved {α : Type} {l : List α} {f : α → State → State} {s : State} (h : Calm s) (hf : ∀ x t, Calm t → Unmoved t (f x t)) : Unmoved s (each l f s) := by
  induction l generalizing s with
  | nil => exact Unmoved.rfl
  | cons x l ih =>
    have h1 := hf x s h
    exact h1.trans (ih (h1.calm h))

theorem draw_unmoved (s : State) : Unmoved s s.draw := by cases s; exact Eq.refl _

theorem makeRoom_unmoved {s : State} (h : Calm s) (l : Nat) : Unmoved s (makeRoom l s) := by
  unfold makeRoom
  simp only
  split
  · split
    · exact (draw_unmoved s).trans (each_unmoved ((draw_unmoved s).calm h) (fun x t ht => snoopNow_unmoved ht _ true x))
    · exact Unmoved.rfl
  · exact Unmoved.rfl

/-- A granted miss changes the directory, tags and free values alone: the other copies are taken back, and the line is held. -/
theorem takeBack_unmoved {s : State} (h : Calm s) (c : CoreId) (l : Nat) (w : Bool) : Unmoved s (takeBack c l w s) := each_unmoved h (fun x _ ht => snoopNow_unmoved ht l w x)
theorem holdLine_unmoved {s : State} (h : Calm s) (l : Nat) (c : CoreId) (w : Bool) : Unmoved s (holdLine l c w s) := (makeRoom_unmoved h l).trans (setLine_unmoved _ _ _)

/-- A store into a cache marks its line. -/
theorem soil_unmoved (l : Nat) (s : State) : Unmoved s (soil l s) := by
  unfold soil; split
  · exact Unmoved.rfl
  · exact setLine_unmoved _ _ _

theorem Unmoved.bytes {s t : State} (h : Unmoved s t) (a n : Nat) : t.bytes a n = s.bytes a n := by
  have : t.mem = s.mem := by rw [← h]
  unfold State.bytes State.byte; rw [this]

theorem cores_setBytes (v : List Byte) (a : Nat) (s : State) : (s.setBytes a v).cores = s.cores := by
  induction v generalizing a s with
  | nil => rfl
  | cons b v ih => exact ih _ _

theorem toBytes_length (n v : Nat) : (toBytes n v).length = n := by
  induction n generalizing v with
  | zero => rfl
  | succ n ih => simp [toBytes, ih]

/-- A miss of a line of sound staging memory is granted. -/
theorem acquire_sound {c : CoreId} {a : Nat} {w : Bool} {s : State} (h : SoundMemory s) (hq : QuietRings (.core c) s) (hd : ∀ d, wakes a = some d → s.dom d = 0)
    (hi : s.isolatedFor (.core c) 0 a = false) (hn : a < 0x1000000000) : ∃ t, acquire c (a / 64) w s = (.ok, t) ∧ Unmoved s t := by
  have h1 := stagingEnd_pos
  have hl : a < stagingEnd := by omega
  have hc : Calm s := ⟨hq.2.2.1, h.1⟩
  have hb := takeBack_unmoved hc c (a / 64) w
  have hu := hb.trans (holdLine_unmoved (hb.calm hc) (a / 64) c w)
  have hm : missServe c (a / 64) w s = (.ok, [], holdLine (a / 64) c w (takeBack c (a / 64) w s)) := by
    unfold missServe
    split
    · simp
    · simp [stagingRead_sound (hb.sound h) (show a / 64 * 64 + 64 ≤ stagingEnd by omega)]
  refine ⟨_, ?_, hu⟩
  have hf : Passive (missServe c (a / 64) w s).2.2 := by rw [hm]; exact hu.passive hq.passive
  have hi' : s.isolatedFrom (sourcePort (.core c)) 0 (a / 64 * 64) = false := by rw [isolatedFrom_line hl]; exact hi
  have hd' : ∀ d, wakes (a / 64 * 64) = some d → s.dom d = 0 := by rw [wakes_line hl]; exact hd
  unfold acquire
  rw [carry_quiet (f := missServe c (a / 64) w) hq deliver (.core c) hd' hi' hf, hm]

/-- With the domain ON and no bucket that regulates, an access passes. -/
theorem passes_quiet {src : Nat × Nat} {a : Nat} {s : State} (h : QuietFrom src s) (hd : ∀ d, wakes a = some d → s.dom d = 0) (dat : Bool) : s.passes src dat a = true := by
  unfold State.passes
  rw [reachable_on hd]
  cases decodePort a <;> simp [State.tokenless, h.2.2.2.2.1 dat]

/-- A read by a core of sound staging memory, and a store. -/
theorem coreRead_sound {c : CoreId} {a n : Nat} {s : State} (h : SoundMemory s) (hq : QuietRings (.core c) s) (hd : ∀ d, wakes a = some d → s.dom d = 0)
    (hi : s.isolatedFor (.core c) 0 a = false) (hn : a < 0x1000000000) : ∃ t, coreRead c a n s = (.ok, s.bytes a n, t) ∧ Unmoved s t := by
  have h1 := stagingEnd_pos
  unfold coreRead
  split
  · exact ⟨s, rfl, Unmoved.rfl⟩
  · obtain ⟨t, ht, hu⟩ := acquire_sound (w := false) h hq hd hi hn
    rw [if_pos (by omega), ht]
    exact ⟨t, by simp [hu.bytes], hu⟩
theorem coreWrite_sound {c : CoreId} {a : Nat} {s : State} (v : List Byte) (h : SoundMemory s) (hq : QuietRings (.core c) s) (hd : ∀ d, wakes a = some d → s.dom d = 0)
    (hi : s.isolatedFor (.core c) 0 a = false) (hn : a < 0x1000000000) : ∃ u, coreWrite c a v s = (.ok, u.setBytes a v) ∧ Unmoved s u := by
  have h1 := stagingEnd_pos
  unfold coreWrite
  split
  · exact ⟨_, rfl, soil_unmoved _ s⟩
  · obtain ⟨t, ht, hu⟩ := acquire_sound (w := true) h hq hd hi hn
    rw [if_pos (by omega), ht]
    exact ⟨t, by simp, hu⟩

/-- A sound load passes, gives the bytes, and changes the directory alone. -/
theorem loadAt_sound {c : CoreId} {g : Seg} {o : Word} {n : Nat} {s : State} (hn : 0 < n) (h : SoundAccess c g o n s) (hr : ((s.core c).seg g).r = true) :
    ∃ t, loadAt c g o n s = .ok (s.num (((s.core c).seg g).base.toNat + o.toNat) n) t ∧ Unmoved s t := by
  obtain ⟨h1, h2, h3, h4, h5, hq, h6⟩ := h
  have hp : segPasses ((s.core c).seg g) .read o.toNat n = true := by simp [segPasses, hr]; omega
  obtain ⟨t, hc, hu⟩ := coreRead_sound (n := n) h6 hq h5 h4 (by omega)
  exact ⟨t, by simp [loadAt, hp, h3, passes_quiet hq h5, hc, accessEnd, State.num], hu⟩

/-- A sound store passes, writes its bytes, and changes memory and the directory alone. -/
theorem storeAt_sound {c : CoreId} {g : Seg} {o : Word} {n : Nat} (v : Nat) {s : State} (hn : 0 < n) (h : SoundAccess c g o n s) (hw : ((s.core c).seg g).w = true) :
    ∃ u, storeAt c g o n v s = .ok 0 (u.setBytes (((s.core c).seg g).base.toNat + o.toNat) (toBytes n v)) ∧ Unmoved s u := by
  obtain ⟨h1, h2, h3, h4, h5, hq, h6⟩ := h
  have hp : segPasses ((s.core c).seg g) .write o.toNat n = true := by simp [segPasses, hw]; omega
  obtain ⟨u, hc, hu⟩ := coreWrite_sound (toBytes n v) h6 hq h5 h4 (by omega)
  exact ⟨u, by simp [storeAt, hp, h3, passes_quiet hq h5, hc, accessEnd], hu⟩

/-- A parcel of sound staging memory. -/
theorem fetchParcel_sound {c : CoreId} {o : Word} {s : State} (h : SoundMemory s) (hq : QuietRings (.core c) s) (ha : (s.core c).cs.base.toNat + o.toNat < 0x3ffffffff)
    (hd : s.dom 21 = 0) (hi : s.isolatedFor (.core c) 0 ((s.core c).cs.base.toNat + o.toNat) = false) :
    ∃ t, fetchParcel c o s = .ok (s.num ((s.core c).cs.base.toNat + o.toNat) 2) t ∧ Unmoved s t := by
  have hw : ∀ d, wakes ((s.core c).cs.base.toNat + o.toNat) = some d → s.dom d = 0 := by
    intro d hd'; rw [wakes_low (by omega)] at hd'; cases hd'; exact hd
  obtain ⟨t, hc, hu⟩ := coreRead_sound (n := 2) h hq hw hi (by omega)
  exact ⟨t, by simp [fetchParcel, passes_quiet hq hw, hc, accessEnd, State.num], hu⟩

/-- The code that a core holds is fetched without a change. -/
theorem fetchAll_held {c : CoreId} {n : Nat} {o : Word} {s : State} (h : s.holdsCode c o (2 * n) = true) : fetchAll c n o s = .ok 0 s := by
  have h' : ∀ i, i < n → s.cached c ((s.core c).cs.base.toNat + (o + BitVec.ofNat 32 (2 * i)).toNat) false = true := by
    simpa [State.holdsCode] using h
  clear h
  induction n generalizing o with
  | zero => rfl
  | succ n ih =>
    have h0 := h' 0 (by omega)
    simp at h0
    have hf : fetchParcel c o s = .ok (s.num ((s.core c).cs.base.toNat + o.toNat) 2) s := by simp [fetchParcel, coreRead, h0, accessEnd, State.num]
    rw [fetchAll, hf]
    refine ih (fun i hi => ?_)
    have := h' (i + 1) (by omega)
    rwa [show o + 2 + BitVec.ofNat 32 (2 * i) = o + BitVec.ofNat 32 (2 * (i + 1)) by
      rw [show 2 * (i + 1) = 2 + 2 * i by omega, BitVec.ofNat_add, ← BitVec.add_assoc]; rfl]

/-- A long read by an initiator of sound staging memory. -/
theorem longRead_sound {i : Initiator} {a n fuel : Nat} {s : State} (h : SoundAt (sourcePort i) a n s) (hf : n = 0 ∨ a % 64 + n ≤ 64 * fuel) :
    longRead i fuel a n s = (.ok, s.bytes a n, s) := runRead_sound fuel h hf

-- The canonical form of device memory

theorem memory_wf_reset : Memory.wf State.reset.mem = true := rfl
theorem memory_wf_setByte {s : State} (a : Nat) (v : Byte) (h : Memory.wf s.mem = true) : Memory.wf (s.setByte a v).mem = true :=
  twf_tset memDefault s.mem a v h
theorem memory_wf_setBytes (v : List Byte) {s : State} (a : Nat) (h : Memory.wf s.mem = true) : Memory.wf (s.setBytes a v).mem = true := by
  induction v generalizing s a with
  | nil => exact h
  | cons b bs ih => exact ih (a + 1) (memory_wf_setByte a b h)
/-- What a reset keeps of memory is canonical (Table BOOT-4). -/
theorem memory_wf_filter {s : State} (p : Host.Cell → Bool) (h : Memory.wf s.mem = true) : Memory.wf (s.mem.filter p) = true :=
  twf_filter memDefault p s.mem h

end Sys2Proof.Machine
end

