-- ==== Sys2Proof/Laws/Scalar.lean ====
section
/-! SUPPORT. What the issue of a scalar instruction can do: one lemma per shared operation of Machine/Scalar.lean and Machine/Entry.lean. -/
namespace Sys2Proof.Machine

@[simp] theorem Core.setReg_pc (k : Core) (d : Reg) (v : Word) : (k.setReg d v).pc = k.pc := by unfold Core.setReg; split <;> rfl
@[simp] theorem Core.setReg_sp (k : Core) (d : Reg) (v : Word) : (k.setReg d v).sp = k.sp := by unfold Core.setReg; split <;> rfl
@[simp] theorem Core.setReg_sr (k : Core) (d : Reg) (v : Word) : (k.setReg d v).sr = k.sr := by unfold Core.setReg; split <;> rfl
@[simp] theorem Core.setReg_run (k : Core) (d : Reg) (v : Word) : (k.setReg d v).run = k.run := by unfold Core.setReg; split <;> rfl
@[simp] theorem Core.setReg_traps (k : Core) (d : Reg) (v : Word) : (k.setReg d v).traps = k.traps := by unfold Core.setReg; split <;> rfl
@[simp] theorem Core.setReg_started (k : Core) (d : Reg) (v : Word) : (k.setReg d v).started = k.started := by unfold Core.setReg; split <;> rfl
@[simp] theorem Core.setReg_rep (k : Core) (d : Reg) (v : Word) : (k.setReg d v).rep = k.rep := by unfold Core.setReg; split <;> rfl
@[simp] theorem Core.setReg_div (k : Core) (d : Reg) (v : Word) : (k.setReg d v).div = k.div := by unfold Core.setReg; split <;> rfl
@[simp] theorem Core.setReg_muls (k : Core) (d : Reg) (v : Word) : (k.setReg d v).muls = k.muls := by unfold Core.setReg; split <;> rfl

/-- g0 reads 0 whatever is written (R193). -/
@[simp] theorem Core.reg_zero (k : Core) : k.reg 0 = 0 := rfl

/-- What a register reads after a write. -/
theorem Core.reg_setReg (k : Core) (d r : Reg) (v : Word) : (k.setReg d v).reg r = if r = 0 then 0 else if r = d then v else k.reg r := by
  unfold Core.reg Core.setReg
  by_cases hr : r = 0
  · simp [hr]
  · by_cases hd : d = 0
    · have : r ≠ d := fun h => hr (h.trans hd)
      simp [hr, hd]
    · simp only [hr, hd, if_false, tget_tset]
      by_cases hrd : r = d
      · simp [hrd]
      · simp [hrd, Fin.val_inj]

/-- Reading a register ignores the fields around the file. -/
@[simp] theorem Core.reg_started (k : Core) (b : Bool) (r : Reg) : Core.reg { k with started := b, rep := none } r = k.reg r := rfl

theorem Core.setReg_begun (k : Core) (d : Reg) (v : Word) (b : Bool) :
    Core.setReg { k with started := b, rep := none } d v = { k.setReg d v with started := b, rep := none } := by
  unfold Core.setReg; split <;> rfl

@[simp] theorem begins_core (c : CoreId) (s : State) : (begins c s).core c = { s.core c with started := true, rep := none } := by
  simp [begins]

/-- A divide's trap that is not there is not taken. -/
theorem takeTrap_none (c : CoreId) (s : State) (h : (s.core c).traps = []) : takeTrap c s = s := by
  unfold takeTrap; rw [h]; rfl

/-- The end of an instruction on a core that still runs it, without a trap. -/
theorem completed_plain (c : CoreId) (off pc : Word) (v : Bool) (s : State) (hg : GoesOn c s) (hv : v = false ∨ (s.core c).tv = false) :
    completed c off pc v s = setPc c pc s := by
  obtain ⟨ha, ht, hs⟩ := hg
  have h2 : (v && (s.core c).tv) = false := by cases hv with
    | inl h => simp [h]
    | inr h => simp [h]
  have h3 : ((setPc c pc s).core c).tv = (s.core c).tv := by simp [setPc, Core.tv]
  have h4 : ((setPc c pc s).core c).traps = [] := by simp [setPc, ht]
  unfold completed
  simp only [ha, Bool.not_true, Bool.false_eq_true, if_false, h3, h2, takeTrap_none c _ h4]
  have h5 : (setPc c pc s).stopping c.val = none := hs
  unfold stopHere
  rw [h5]

/-- An instruction that may begin does its work where it stands. -/
theorem fetchThen_ready (c : CoreId) (len : Nat) (f : At → State → State) (s : State) (h : Ready c len s) :
    fetchThen c len f s = f ⟨c, (s.core c).pc, len, 0⟩ (begins c s) := by
  obtain ⟨he, ht, hf, hc, _⟩ := h
  have hk : fetchAll c (len / 2) (s.core c).pc (begins c s) = .ok 0 (begins c s) := by
    refine fetchAll_held ?_
    rw [← hc]
    have hg : ((begins c s).core c).cs = (s.core c).cs := by rw [begins_core]
    have hd : (begins c s).dir = s.dir := rfl
    simp only [State.holdsCode, State.cached, State.dline, hg, hd]
    simp
  unfold fetchThen
  rw [if_neg (by simp [he]), if_neg (by simp [ht])]
  simp only
  rw [if_neg (by simp [hf]), hk]

/-- An instruction that may issue does what its body says. -/
theorem issue_ready (c : CoreId) (len : Nat) (b : Body) (s : State) (h : Ready c len s) :
    issue c len b s = settleOne ⟨c, (s.core c).pc, len, 0⟩ (begins c s) (b ⟨c, (s.core c).pc, len, 0⟩ (begins c s)) := fetchThen_ready c len _ s h

theorem executes_running {c : CoreId} {s : State} (h : s.executes c = true) : (s.core c).run = .running := by
  simp only [State.executes, Bool.and_eq_true, beq_iff_eq] at h
  exact h.1

/-- A core that begins an instruction is alive. -/
theorem alive_begins {c : CoreId} {s : State} (h : s.executes c = true) : (begins c s).alive c = true := by
  simp [State.alive, executes_running h]

/-- An instruction whose body only changes its core: it goes on behind itself. -/
theorem issue_advance (c : CoreId) (len : Nat) (b : Body) (s : State) (v : Bool) (f g : Core → Core) (h : Ready c len s)
    (hb : b ⟨c, (s.core c).pc, len, 0⟩ (begins c s) = .done v ((begins c s).modCore c f))
    (hg : f { s.core c with started := true, rep := none } = { g (s.core c) with started := true, rep := none })
    (hr : (g (s.core c)).run = (s.core c).run) (ht : (g (s.core c)).traps = (s.core c).traps)
    (hv : v = false ∨ (g (s.core c)).tv = false) :
    issue c len b s = advance c len g s := by
  rw [issue_ready c len b s h, hb]
  obtain ⟨he, htr, hf, _, hst⟩ := h
  show completed c (s.core c).pc ((s.core c).pc + BitVec.ofNat 32 len) v ((begins c s).modCore c f) = _
  have hk : ((begins c s).modCore c f).core c = { g (s.core c) with started := true, rep := none } := by
    rw [State.core_modCore_same, begins_core, hg]
  rw [completed_plain]
  · simp only [setPc, advance, begins, State.modCore, State.core_setCore_same, State.setCore_setCore, hg]
  · refine ⟨?_, ?_, hst⟩
    · simp only [State.alive, hk, hr, executes_running he]; rfl
    · rw [hk]; simp only [ht, htr]
  · rw [hk]; exact hv

end Sys2Proof.Machine
end

