-- ==== Sys2Proof/WellFormed.lean ====
section
/-! DEFINITION. Commands whose operands no hardware presents: the 16-bit forms name one register as destination and first operand, data lengths fit
their packets and messages, and a link trains 17 lanes at most. -/
namespace Sys2Proof

/-- In a 16-bit form the destination is the first operand (Table DCY-7). -/
def formOk : Form → Reg → Reg → Bool
  | .p16, d, s => d == s
  | .p32, _, _ => true

/-- A 6-bit immediate stands in the CI form, whose destination is the first operand. -/
def immOk : Imm → Reg → Reg → Bool
  | .i6 _, d, s => d == s
  | .i16 _, _, _ => true

/-- The message types of a kind of PTP message (IEEE 1588; log entry 44). -/
def ptpTypes : PtpKind → List Nat
  | .sync => [0]
  | .followUp => [8]
  | .delayResp => [9]
  | .announce => [0xB]
  | .delayReq => [1]
  | .peerDelay => [2, 3, 0xA]

/-- The operands are such as an encoding, a packet or a message can carry. -/
def Instr.wf : Instr → Bool
  | .add _ f d s _ | .sub _ f d s _ | .and _ f d s _ | .or _ f d s _ | .xor _ f d s _ => formOk f d s
  | .shl _ f d s _ | .shr _ f d s _ | .sar _ f d s _ | .sal _ f d s _ | .rol _ f d s _ | .ror _ f d s _ => formOk f d s
  | .addi _ d s i => immOk i d s
  | .mfx _ _ sel => decide (sel.val ≤ 8)
  | .wrl _ _ d => decide (1 ≤ d.lines.length) && decide (d.lines.length ≤ 8)
  | .bar4Access _ _ n w => decide (1 ≤ n) && w.all (fun v => v.length == n)
  | .trainingComplete _ _ lanes _ => decide (lanes ≤ 17)
  | .downloadSeg _ _ d => decide (d.length ≤ 60)
  | .grantSession _ b | .grantReenrolment _ b | .grantLifecycle _ b | .grantPolicy _ b => decide (b.length ≤ 65536)
  | .attestation _ n => n.length == 32
  | .ptpEventMessage k f => decide (34 ≤ f.bytes.length) && (ptpTypes k).contains ((f.bytes.getD 0 0).toNat % 16)
  | .headFlitRoute _ m | .messageDelivery m | .dackReceive m => decide (m.data.length ≤ 496)
  | _ => true

end Sys2Proof
end

