-- ==== Sys2Proof/Tests/Slice0.lean ====
section
/-! SUPPORT. Tests: each check of WellFormed refuses an ill-formed term, and the hypotheses of every statement are met by concrete states. -/
namespace Sys2Proof.Machine
set_option Elab.async false

-- Well-formedness (R202, Tables DCY-7, RING-3, HOST-2, SEAM-1, NAZ-4)

theorem test_wf_form : (Instr.add 0 .p16 1 2 3).wf = false ∧ (Instr.add 0 .p16 1 1 3).wf = true := by decide +kernel
theorem test_wf_shift_form : (Instr.shl 0 .p16 1 2 3).wf = false ∧ (Instr.shl 0 .p32 1 2 3).wf = true := by decide +kernel
theorem test_wf_imm : (Instr.addi 0 1 2 (.i6 0)).wf = false ∧ (Instr.addi 0 1 1 (.i6 0)).wf = true := by decide +kernel
theorem test_wf_mfx : (Instr.mfx 0 1 9).wf = false ∧ (Instr.mfx 0 1 8).wf = true := by decide +kernel
theorem test_wf_wrl : (Instr.wrl .mgmt 0 ⟨[], false⟩).wf = false ∧ (Instr.wrl .mgmt 0 ⟨List.replicate 9 0, false⟩).wf = false ∧ (Instr.wrl .mgmt 0 ⟨[0], true⟩).wf = true := by decide +kernel
theorem test_wf_bar4 : (Instr.bar4Access 0 0 0 none).wf = false ∧ (Instr.bar4Access 0 0 2 (some [1])).wf = false ∧ (Instr.bar4Access 0 0 1 (some [1])).wf = true := by decide +kernel
theorem test_wf_lanes : (Instr.trainingComplete 0 0 18 0).wf = false ∧ (Instr.trainingComplete 0 0 17 0).wf = true := by decide +kernel
theorem test_wf_download : (Instr.downloadSeg (.mailbox 0) 0 (List.replicate 61 0)).wf = false ∧ (Instr.downloadSeg (.mailbox 0) 0 [0]).wf = true := by decide +kernel
theorem test_wf_nonce : (Instr.attestation (.mailbox 0) [0]).wf = false ∧ (Instr.attestation (.mailbox 0) (List.replicate 32 0)).wf = true := by decide +kernel
theorem test_wf_message : (Instr.messageDelivery ⟨0, 0, 0, 0, 0, 0, 0, 0, 0, List.replicate 497 0⟩).wf = false ∧
    (Instr.messageDelivery ⟨0, 0, 0, 0, 0, 0, 0, 0, 0, []⟩).wf = true := by decide +kernel

-- Small states

/-- Every domain ON. -/
def tDoms : Table Word := (List.range 33).map (fun d => (cr 8 (0x300 + 8 * d), 0))
/-- The device with every domain ON, in READY, and further control-register words. -/
def tOn (r : Table Word) : State := { State.reset with creg := r ++ (cr 0 0x18, 3) :: tDoms }
/-- A core that runs at offset 0x40, with its segments in staging memory. -/
def tCore : Core :=
  { Core.reset with run := .running, started := true, pc := 0x40, sp := 0x100, cs := ⟨0, 0x1000, true, false, true⟩, ds := ⟨0x10000, 0x1000, true, true, false⟩
                    ss := ⟨0x20000, 0x1000, true, true, false⟩ }
/-- Core c runs as k, every core holding the lines below offset 0x1000 of staging memory. -/
def tRun (c : Nat) (k : Core) : State := { tOn [] with cores := [(c, k)], dir := (List.range 64).map (fun l => (l, ⟨63, false, none⟩)) }
/-- The checks of `Ready` as a Bool. -/
def tReady (c : CoreId) (len : Nat) (s : State) : Bool :=
  s.executes c && (s.core c).traps.isEmpty && s.fetchOk c (s.core c).pc len && s.holdsCode c (s.core c).pc len && (s.stopping c.val).isNone
theorem ready_of {c : CoreId} {len : Nat} {s : State} (h : tReady c len s = true) : Ready c len s := by
  simp only [tReady, Bool.and_eq_true, Option.isNone_iff_eq_none] at h
  exact ⟨h.1.1.1.1, by simpa using h.1.1.1.2, h.1.1.2, h.1.2, h.2⟩
theorem stack_sound {s : State} (h : s.memStacks = []) (k : Nat) : (s.stack k).failed = false := by simp only [State.stack, h]; rfl
/-- Memory without a flaw in which no stack has an entry. -/
theorem memory_of {s : State} (h : (s.lineErr.isEmpty && s.memStacks.isEmpty) = true) : SoundMemory s := by
  simp only [Bool.and_eq_true, List.isEmpty_iff] at h
  exact ⟨h.1, stack_sound h.2⟩
/-- The routes of reset, with no segment retired, lead everywhere. -/
theorem routed_of {s : State} (hr : s.routes = []) (hc : ∀ n, s.cutting n = none) (hb : ∀ n, n < 4 → s.r64 (cr 0x40 (0x40 + 8 * n)) = 0) : Routed s := by
  intro n x y hn hx hy
  have hk (b : Nat) : s.route b n x y = ⟨true, defaultRing n x y⟩ := by
    simp only [State.route, hr, tget, route0]
    rw [show (b * 1024 + n * 256 + x * 16 + y) / 256 % 4 = n by omega, show (b * 1024 + n * 256 + x * 16 + y) / 16 % 16 = x by omega,
      show (b * 1024 + n * 256 + x * 16 + y) % 16 = y by omega]
  have hd : defaultRing n x y < ringsOf n := by
    unfold defaultRing ringsOf
    generalize decide ((y + 16 - x) % 16 ≤ 8) = cw
    cases cw <;> by_cases h3 : n = 3 <;> simp [h3] <;> omega
  have hs (r i : Nat) : s.segOut n r i = false := by simp [State.segOut, State.bit, State.fld, hb n hn, hc, bits]
  have hx : (pathSegs n (defaultRing n x y) x y).any (s.segOut n (defaultRing n x y)) = false := by simp [hs]
  simp only [State.noRoute, State.unreachable, State.routeOf, hk, State.crosses, hx]
  simp; omega
/-- No packet, no transaction, no probe, no segment retired or being retired, no bucket that regulates, the routes of reset. -/
def tQuiet (src : Nat × Nat) (s : State) : Bool :=
  s.packets.isEmpty && s.dirBusy.isEmpty && !s.probing && s.acts.all (fun a => a.kind != 8) && [false, true].all (fun d => decide ((s.bucket src.1 d).1 = 0)) &&
    (decide (src.1 < 16) && s.routes.isEmpty && (List.range 4).all (fun n => s.r64 (cr 0x40 (0x40 + 8 * n)) == 0))
theorem quiet_of {src : Nat × Nat} {s : State} (h : tQuiet src s = true) : QuietFrom src s := by
  simp only [tQuiet, Bool.and_eq_true, List.isEmpty_iff, Bool.not_eq_true'] at h
  obtain ⟨⟨⟨⟨⟨h1, h2⟩, h3⟩, h4⟩, h5⟩, ⟨h6, h7⟩, h8⟩ := h
  have hc (n : Nat) : s.cutting n = none := by
    have : s.acts.find? (fun a => a.kind == 8 && a.unit == n) = none :=
      List.find?_eq_none.mpr (fun a ha => by have := List.all_eq_true.mp h4 a ha; simp at this; simp [this])
    simp [State.cutting, this]
  refine ⟨fun p hp => by simp [h1] at hp, h2, h3, hc, fun d => ?_, of_decide_eq_true h6, routed_of h7 hc (fun n hn => ?_)⟩
  · exact of_decide_eq_true (List.all_eq_true.mp h5 d (by cases d <;> decide))
  · exact eq_of_beq (List.all_eq_true.mp h8 n (List.mem_range.mpr hn))
theorem all_some {α : Type} {x : Option α} {p : α → Bool} (h : x.all p = true) : ∀ d, x = some d → p d = true := by
  intro d hd; subst hd; exact h
/-- No cache has a line alone. -/
theorem shared_of {s : State} (h : s.dir.all (fun e => !e.2.excl) = true) (l : Nat) : (s.dline l).excl = false := by
  have (t : Table DirLine) (h : t.all (fun e => !e.2.excl) = true) : (tget (konst DirLine.none) t l).excl = false := by
    induction t with
    | nil => rfl
    | cons e t ih =>
      simp only [List.all_cons, Bool.and_eq_true] at h
      unfold tget
      split
      · simpa using h.1
      · exact ih h.2
  exact this _ h
/-- A port reaches the first memory stack, whose domain is ON, nothing meets it, and no cache has a line alone; no stack has an entry. -/
def tAt (src : Nat × Nat) (s : State) : Bool :=
  (s.lineErr.isEmpty && s.memStacks.isEmpty) && tQuiet src s && decide (s.dom 21 = 0) && !(s.isolated 1 1 || s.noRoute 0 src.1 1) && s.dir.all (fun e => !e.2.excl)
/-- The n bytes at a in the first stack are sound. -/
theorem at_of {src : Nat × Nat} {a n : Nat} {s : State} (ha : a + n < 0x400000000) (h : tAt src s = true) : SoundAt src a n s := by
  simp only [tAt, Bool.and_eq_true (a := _) (b := _), Bool.not_eq_true', decide_eq_true_eq] at h
  obtain ⟨⟨⟨⟨h1, h2⟩, h3⟩, h4⟩, h5⟩ := h
  have := stagingEnd_pos
  refine ⟨by omega, memory_of (by simpa using h1), quiet_of h2, fun x hx hn => ?_⟩
  have hx : x < 0x400000000 := by omega
  refine ⟨by rw [isolatedFrom_low hx]; exact h4, shared_of h5 _, fun d hd => ?_⟩
  rw [wakes_low hx] at hd; cases hd; exact h3
/-- The checks of `SoundAccess` in the first memory stack. -/
def tSound (c : CoreId) (g : Seg) (o : Word) (n : Nat) (s : State) : Bool :=
  let x := (s.core c).seg g
  let a := x.base.toNat + o.toNat
  decide (o.toNat + n ≤ x.lim.toNat) && decide (a + n < 0x400000000) && decide (a % n = 0) && decide (0 < n) && tAt (sourcePort (.core c)) s
theorem sound_of {c : CoreId} {g : Seg} {o : Word} {n : Nat} {s : State} (h : tSound c g o n s = true) : SoundAccess c g o n s := by
  simp only [tSound, Bool.and_eq_true, decide_eq_true_eq] at h
  obtain ⟨⟨⟨⟨h1, h2⟩, h3⟩, h4⟩, h5⟩ := h
  obtain ⟨-, hm, hq, hx⟩ := at_of (a := ((s.core c).seg g).base.toNat + o.toNat) (n := n) h2 h5
  have hx := hx _ (Nat.le_refl _) (by omega)
  exact ⟨h1, by omega, h3, hx.1, hx.2.2, hq, hm⟩
/-- An access that passes, with what holds of its result. -/
def tOk (x : Access) (p : Nat → State → Bool) : Bool := match x with | .ok v u => p v u | _ => false
theorem ok_of {x : Access} {p : Nat → State → Bool} (h : tOk x p = true) : ∃ v u, x = .ok v u ∧ p v u = true := by
  cases x with
  | ok v u => exact ⟨v, u, rfl, h⟩
  | _ => simp [tOk] at h
theorem ex_of {α : Type} {x : Option α} {p : α → Bool} (h : (match x with | some a => p a | none => false) = true) : ∃ a, x = some a ∧ p a = true := by
  cases x with
  | some a => exact ⟨a, rfl, h⟩
  | none => simp at h

-- Scalar cores

/-- Every length an instruction may have, at the last offset of CS where it still fits. -/
theorem test_hyp_scalar : ((tRun 0 tCore).core 0).tv = false ∧ Ready 0 2 (tRun 0 { tCore with pc := 0xffe }) ∧ Ready 0 4 (tRun 0 { tCore with pc := 0xffc }) ∧
    Ready 5 4 (tRun 5 tCore) ∧ Ready 4 2 (tRun 4 tCore) ∧ immLen (.i6 0) = 2 ∧ immLen (.i16 0) = 4 :=
  ⟨by decide +kernel, ready_of (by decide +kernel), ready_of (by decide +kernel), ready_of (by decide +kernel), ready_of (by decide +kernel), rfl, rfl⟩

theorem test_hyp_OverflowTrap : let k := { tCore with sr := 0x100, g := [(1, 0x7fffffff), (2, 1), (3, 0x80000000)] }
    Ready 0 4 (tRun 0 k) ∧ Ready 0 2 (tRun 0 k) ∧ immLen (.i6 1) = 2 ∧ immLen (.i16 1) = 4 ∧ ((tRun 0 k).core 0).tv = true ∧ (k.reg 1).saddOverflow (k.reg 2) = true ∧
      (k.reg 3).ssubOverflow (k.reg 2) = true :=
  ⟨ready_of (by decide +kernel), ready_of (by decide +kernel), rfl, rfl, by decide +kernel, by decide +kernel, by decide +kernel⟩

/-- Memory, the directory, tags and free values apart, the states are the same. -/
def Same (s u : State) : Prop := { u with mem := s.mem, dir := s.dir, nextTag := s.nextTag, free := s.free } = s
theorem Unmoved.same {s t : State} (h : Unmoved s t) : Same s t := by
  have hm : t.mem = s.mem := by rw [← h]
  unfold Same; rw [← hm]; exact h
theorem Same.refl (s : State) : Same s s := by cases s; exact Eq.refl _
theorem Same.setBytes {s t : State} (h : Same s t) (v : List Byte) (a : Nat) : Same s (t.setBytes a v) := by
  induction v generalizing a t with
  | nil => exact h
  | cons b v ih => exact ih (t := t.setByte a b) h _
theorem Same.core {s u : State} (h : Same s u) (c : Nat) : u.core c = s.core c := by
  have hu : ({ u with mem := s.mem, dir := s.dir, nextTag := s.nextTag, free := s.free } : State) = s := h
  have hk := congrArg (fun x : State => x.core c) hu
  exact hk
/-- The checks of `GoesOn`, of which an access leaves what it finds. -/
def tGoes (c : CoreId) (s : State) : Bool := s.alive c && (s.core c).traps.isEmpty && (s.stopping c.val).isNone
theorem goes_of {s u : State} {c : CoreId} (hs : Same s u) (h : tGoes c s = true) : GoesOn c u := by
  have hu : tGoes c u = true := (congrArg (tGoes c) hs).trans h
  simp only [tGoes, Bool.and_eq_true, Option.isNone_iff_eq_none] at hu
  exact ⟨hu.1.1, by simpa using hu.1.2, hu.2⟩
/-- A core goes on behind a sound load, with its registers, and behind a sound store. -/
theorem load_ok {c : CoreId} {g : Seg} {o : Word} {n : Nat} {s : State} (h : tSound c g o n s = true) (hr : ((s.core c).seg g).r = true) (hg : tGoes c s = true) :
    ∃ u, loadAt c g o n s = .ok (s.num (((s.core c).seg g).base.toNat + o.toNat) n) u ∧ GoesOn c u ∧ u.core c = s.core c := by
  have hn : 0 < n := by simp only [tSound, Bool.and_eq_true, decide_eq_true_eq] at h; exact h.1.2
  obtain ⟨u, hu, hm⟩ := loadAt_sound hn (sound_of h) hr
  exact ⟨u, hu, goes_of hm.same hg, hm.same.core c⟩
theorem store_ok {c : CoreId} {g : Seg} {o : Word} {n : Nat} (v : Nat) {s : State} (h : tSound c g o n s = true) (hw : ((s.core c).seg g).w = true) (hg : tGoes c s = true) :
    ∃ u, storeAt c g o n v s = .ok 0 u ∧ GoesOn c u := by
  have hn : 0 < n := by simp only [tSound, Bool.and_eq_true, decide_eq_true_eq] at h; exact h.1.2
  obtain ⟨u, hu, hm⟩ := storeAt_sound v hn (sound_of h) hw
  exact ⟨_, hu, goes_of (hm.same.setBytes _ _) hg⟩

/-- LD and ST at the last offset of DS, and in SS. -/
theorem test_hyp_LoadsAndStores : let s := tRun 0 { tCore with g := [(1, 0xff8), (2, 7)] }
    Ready 0 4 s ∧ Ready 0 2 s ∧ ¬ (memSize (.m .b8 .ds 1 0) = 8 ∧ (2 : Reg).val % 2 = 1) ∧
      (∃ v u, loadAt 0 .ds (memOffset (.m .b8 .ds 1 0) (s.core 0)) 8 s = .ok v u ∧ GoesOn 0 u) ∧
      (∃ v u, storeAt 0 .ds (memOffset (.m .b8 .ds 1 0) (s.core 0)) 8 7 s = .ok v u ∧ GoesOn 0 u) ∧
      (∃ v u, loadAt 0 .ss 0x100 4 s = .ok v u ∧ GoesOn 0 u) ∧ (∃ v u, storeAt 0 .ss (0x100 - 4) 4 7 s = .ok v u ∧ GoesOn 0 u) := by
  refine ⟨ready_of (by decide +kernel), ready_of (by decide +kernel), by decide +kernel, ?_, ?_, ?_, ?_⟩
  · obtain ⟨u, h, h1, -⟩ := load_ok (c := 0) (g := .ds) (o := 0xff8) (n := 8) (s := tRun 0 { tCore with g := [(1, 0xff8), (2, 7)] }) (by decide +kernel) (by decide +kernel) (by decide +kernel)
    exact ⟨_, u, h, h1⟩
  · obtain ⟨u, h, h1⟩ := store_ok (c := 0) (g := .ds) (o := 0xff8) (n := 8) 7 (s := tRun 0 { tCore with g := [(1, 0xff8), (2, 7)] }) (by decide +kernel) (by decide +kernel) (by decide +kernel)
    exact ⟨_, u, h, h1⟩
  · obtain ⟨u, h, h1, -⟩ := load_ok (c := 0) (g := .ss) (o := 0x100) (n := 4) (s := tRun 0 { tCore with g := [(1, 0xff8), (2, 7)] }) (by decide +kernel) (by decide +kernel) (by decide +kernel)
    exact ⟨_, u, h, h1⟩
  · obtain ⟨u, h, h1⟩ := store_ok (c := 0) (g := .ss) (o := 0x100 - 4) (n := 4) 7 (s := tRun 0 { tCore with g := [(1, 0xff8), (2, 7)] }) (by decide +kernel) (by decide +kernel) (by decide +kernel)
    exact ⟨_, u, h, h1⟩

theorem test_hyp_AccessChecks : let s := tRun 0 { tCore with g := [(1, 0xffd), (2, 2)] }
    let inside (m : MemOperand) : Bool := decide ((memOffset m (s.core 0)).toNat + memSize m ≤ 0x1000)
    Ready 0 4 s ∧ inside (.m .b4 .ds 1 0) = false ∧ inside (.m .b4 .ds 2 0) = true ∧ (0x10000 + (memOffset (.m .b4 .ds 2 0) (s.core 0)).toNat) % 4 ≠ 0 ∧
      ((s.core 0).seg .ds).r = true ∧ ((s.core 0).seg .ds).w = true :=
  ⟨ready_of (by decide +kernel), by decide +kernel, by decide +kernel, by decide +kernel, by decide +kernel, by decide +kernel⟩

/-- An instruction beyond the limit of CS; one that the core holds, begun; one at an address that nothing answers. -/
theorem test_hyp_Fetches : let out := tRun 0 { tCore with pc := 0xffe }
    let on := tRun 0 tCore
    let far := tRun 0 { tCore with cs := ⟨0x2000000000, 0x1000, true, false, true⟩ }
    (out.executes 0 = true ∧ (out.core 0).traps = [] ∧ out.fetchOk 0 (out.core 0).pc 4 = false ∧ (tRun 0 { tCore with pc := 0x1000 }).fetchOk 0 0x1000 2 = false) ∧
      (on.executes 0 = true ∧ (on.core 0).traps = [] ∧ on.fetchOk 0 (on.core 0).pc 4 = true ∧ begins 0 on = on ∧ fetchAll 0 2 (on.core 0).pc on = .ok 0 on ∧ Ready 0 4 on) ∧
      (far.executes 0 = true ∧ (far.core 0).traps = [] ∧ far.fetchOk 0 (far.core 0).pc 4 = true ∧ begins 0 far = far ∧
        ∃ t, fetchAll 0 2 (far.core 0).pc far = .exc 6 RStat.unmapped.code 0x40 t ∧ begins 0 t = t ∧ (t.core 0).pc = (far.core 0).pc) := by
  intro out on far
  have h1 := stagingEnd_le
  have hp : decodePort 0x2000000040 = none := by
    unfold decodePort dataRange
    rw [if_neg (show ¬ 0x2000000040 < stagingEnd by omega), if_neg (show ¬ 0x2000000040 + 1 ≤ stagingEnd by omega)]
    decide
  have hf (s : State) (ha : (s.core 0).cs.base.toNat + 64 = 0x2000000040) (hc : s.cached 0 0x2000000040 false = false) :
      fetchParcel 0 0x40 s = .exc 6 RStat.unmapped.code 0x40 (s.reportUnmapped 0x2000000040) := by
    have hr : s.passes (sourcePort (.core 0)) false 0x2000000040 = true := by unfold State.passes State.reachable wakes; rw [hp]; rfl
    have hd : dataRange 0x2000000040 2 = .other := by unfold dataRange; rw [if_neg (show ¬ 0x2000000040 + 2 ≤ stagingEnd by omega)]; decide
    unfold fetchParcel coreRead busRead carry
    have e : (s.core (0 : CoreId)).cs.base.toNat + (0x40 : Word).toNat = 0x2000000040 := ha
    rw [e]
    simp only [hc, hr, hp, if_neg (show ¬ 0x2000000040 < stagingEnd by omega)]
    have ht : targetRead (.core 0) 0x2000000040 2 s = unmappedRead 0x2000000040 2 s := by
      unfold targetRead devRead dataRead
      rw [hd]
      exact if_neg (by decide)
    rw [ht]
    rfl
  refine ⟨by decide +kernel, ⟨by decide +kernel, by decide +kernel, by decide +kernel, rfl, fetchAll_held (by decide +kernel), ready_of (by decide +kernel)⟩,
    by decide +kernel, by decide +kernel, by decide +kernel, rfl, far.reportUnmapped 0x2000000040, ?_, rfl, rfl⟩
  show fetchAll 0 2 0x40 far = _
  rw [fetchAll, hf far (by decide +kernel) (by decide +kernel)]

theorem test_hyp_Staging : SoundAccess 0 .ds 0xff8 8 (tRun 0 tCore) ∧ SoundAccess 0 .ds 0 1 (tRun 0 tCore) ∧ (tCore.seg .ds).w = true ∧ (tCore.seg .ds).r = true :=
  ⟨sound_of (by decide +kernel), sound_of (by decide +kernel), rfl, rfl⟩

theorem test_hyp_CallsAndReturns : let s := { tRun 0 { tCore with g := [(1, 0x80)] } with mem := [(0x20100, 0x44)] }
    Ready 0 4 s ∧ Ready 0 2 s ∧ ((s.core 0).reg 1).toNat % 2 = 0 ∧ (∃ v u, storeAt 0 .ss (0x100 - 4) 4 0x44 s = .ok v u ∧ GoesOn 0 u) ∧
      (∃ u, loadAt 0 .ss 0x100 4 s = .ok 0x44 u ∧ GoesOn 0 u ∧ (u.core 0).sp = (s.core 0).sp) := by
  refine ⟨ready_of (by decide +kernel), ready_of (by decide +kernel), by decide +kernel, ?_, ?_⟩
  · obtain ⟨u, h, h1⟩ := store_ok (c := 0) (g := .ss) (o := 0x100 - 4) (n := 4) 0x44 (s := { tRun 0 { tCore with g := [(1, 0x80)] } with mem := [(0x20100, 0x44)] })
      (by decide +kernel) (by decide +kernel) (by decide +kernel)
    exact ⟨_, u, h, h1⟩
  · obtain ⟨u, h, h1, h2⟩ := load_ok (c := 0) (g := .ss) (o := 0x100) (n := 4) (s := { tRun 0 { tCore with g := [(1, 0x80)] } with mem := [(0x20100, 0x44)] })
      (by decide +kernel) (by decide +kernel) (by decide +kernel)
    exact ⟨u, h.trans (congrArg (fun v => Access.ok v u) (Eq.refl 0x44)), h1, congrArg Core.sp h2⟩

theorem test_hyp_SpecialRegisters : let s := tRun 0 tCore
    let locked := { tRun 0 tCore with creg := (sq 0 0x20, 0x3f) :: (tOn []).creg }
    Ready 0 4 s ∧ Ready 0 2 s ∧ selOf 0 0 = some .sr ∧ selOf 0 16 ≠ none ∧ selOf 0 24 ≠ none ∧ selWritable 0 1 = some .rc ∧ s.locked 0 .rc = false ∧
      Ready 0 4 locked ∧ selWritable 0 3 = some .vb ∧ locked.locked 0 .vb = true ∧ selOf 0 0xfff = none :=
  ⟨ready_of (by decide +kernel), ready_of (by decide +kernel), by decide +kernel, by decide +kernel, by decide +kernel, by decide +kernel, by decide +kernel, ready_of (by decide +kernel), by decide +kernel, by decide +kernel, by decide +kernel⟩

theorem test_hyp_MultiplyAndDivide : let k := { tCore with muls := [6, 7], div := some ⟨2, 1, false, false, 0x40⟩ }
    let f (d v : Bool) (sr : Word) : Core := { tCore with div := some ⟨2, 1, d, v, 0x40⟩, sr := sr }
    let w (g : Bool) := tRun 0 { tCore with div := some ⟨2, 1, false, false, 0x40⟩, run := .waiting (.divider g 1 2), pc := 0x44 }
    ((tRun 0 tCore).core 0 = tCore ∧ tCore.div = none ∧ (tRun 0 k).core 0 = k ∧ k.muls = 6 :: [7] ∧ k.run = .running ∧ k.traps = [] ∧ k.rep = none ∧ k.div ≠ none) ∧ Ready 0 4 (tRun 0 k) ∧
      ((f true false 0x200).sr.getLsbD 9 = true ∧ (f true false 0x100).sr.getLsbD 9 = false ∧ (f false true 0x100).sr.getLsbD 8 = true ∧ (f false true 0x200).sr.getLsbD 8 = false) ∧
      ∀ g, ((w g).core 0).div = some ⟨2, 1, false, false, 0x40⟩ ∧ ((w g).core 0).run = .waiting (.divider g 1 2) ∧ ((w g).core 0).started = true ∧ (w g).stopping 0 = none :=
  ⟨by decide +kernel, ready_of (by decide +kernel), by decide +kernel, fun g => by cases g <;> decide +kernel⟩

/-- Entry of an exception with SP at 16, the lowest. -/
theorem test_hyp_ExceptionEntry : let s := tRun 0 { tCore with sp := 16 }
    s.programOf 0 = none ∧ 16 ≤ (s.core 0).sp.toNat ∧ (s.core 0).ss.w = true ∧ (∀ i : Fin 4, SoundAccess 0 .ss ((s.core 0).sp - BitVec.ofNat 32 (4 * i.val + 4)) 4 s) ∧
      s.alive 0 = true :=
  ⟨by decide +kernel, by decide +kernel, by decide +kernel, fun i => sound_of (by revert i; decide), by decide +kernel⟩

theorem test_hyp_ReturnFromException : let s := { tRun 0 { tCore with sp := 0xff0 } with mem := [(0x20ff7, 1), (0x20ffc, 0x60)] }
    Ready 0 2 s ∧ (s.core 0).sp.toNat + 16 < 2 ^ 32 ∧ (s.core 0).ss.r = true ∧ (∀ i : Fin 4, SoundAccess 0 .ss ((s.core 0).sp + BitVec.ofNat 32 (4 * i.val)) 4 s) ∧
      s.num (0x20ff0 + 4) 4 / 2 ^ 24 ≠ 16 ∧ s.num (0x20ff0 + 12) 4 % 2 = 0 :=
  ⟨ready_of (by decide +kernel), by decide +kernel, by decide +kernel, fun i => sound_of (by revert i; decide), by decide +kernel, by decide +kernel⟩

/-- A frame above SP of core c whose CAUSE is that of source j and whose SR is sr, with the registers r; source 69 is pending at the core's ICU. -/
def tFrame (c j sr : Nat) (r : Table Word) : State :=
  let frame : List Host.Cell := [(0x20ff4, BitVec.ofNat 8 j), (0x20ff5, BitVec.ofNat 8 (j / 256)), (0x20ff7, 16), (0x20ff8, BitVec.ofNat 8 sr), (0x20ffc, 0x60)]
  { tRun c { tCore with sp := 0xff0 } with mem := frame.filter (fun x => decide (x.2 ≠ 0)), creg := r ++ [(icuCfg c 69, 9), (icu c 0x108, 0x20), (icu c 0x208, 0x20)] ++ (tOn []).creg }
/-- RETI of an interrupt: its source active, with nothing to chain to and with source 69; its source not active; a machine check's. -/
theorem test_hyp_ReturnFromInterrupt : let s := tFrame 0 70 0 [(icu 0 0x308, 0x40)]
    let x := tFrame 0 70 0x80 [(icu 0 0x308, 0x40)]
    let n := tFrame 0 70 0 []
    let m := tFrame 5 1022 0 [(icu 5 0x28, 2 ^ 30)]
    let good (s : State) (c : CoreId) (j sr : Nat) : Prop := Ready c 2 s ∧ (s.core c).sp.toNat + 16 < 2 ^ 32 ∧ (s.core c).ss.r = true ∧ s.dom (coreDomain c) = 0 ∧
      (∀ i : Fin 4, SoundAccess c .ss ((s.core c).sp + BitVec.ofNat 32 (4 * i.val)) 4 s) ∧ s.num 0x20ff4 4 = 16 * 2 ^ 24 + j ∧ s.num 0x20ff8 4 = sr ∧ s.num 0x20ffc 4 % 2 = 0
    (good s 0 70 0 ∧ s.icuBit 0 0x300 70 = true) ∧
      (good x 0 70 0x80 ∧ x.icuBit 0 0x300 70 = true ∧ (completeFrame 0 (16 * 2 ^ 24 + 70) x).best 0 0 = some 69 ∧ (x.core 0).ss.w = true) ∧
      (good n 0 70 0 ∧ n.icuBit 0 0x300 70 = false) ∧ (good m 5 1022 0) :=
  ⟨⟨⟨ready_of (by decide +kernel), by decide +kernel, by decide +kernel, by decide +kernel, fun i => sound_of (by revert i; decide), by decide +kernel, by decide +kernel, by decide +kernel⟩, by decide +kernel⟩,
    ⟨⟨ready_of (by decide +kernel), by decide +kernel, by decide +kernel, by decide +kernel, fun i => sound_of (by revert i; decide), by decide +kernel, by decide +kernel, by decide +kernel⟩, by decide +kernel, by decide +kernel, by decide +kernel⟩,
    ⟨⟨ready_of (by decide +kernel), by decide +kernel, by decide +kernel, by decide +kernel, fun i => sound_of (by revert i; decide), by decide +kernel, by decide +kernel, by decide +kernel⟩, by decide +kernel⟩,
    ready_of (by decide +kernel), by decide +kernel, by decide +kernel, by decide +kernel, fun i => sound_of (by revert i; decide), by decide +kernel, by decide +kernel, by decide +kernel⟩

/-- Source 69 pending and enabled at ICU 0, with priority 9. -/
def tIrq (k : Core) : State := { tRun 0 k with creg := [(icuCfg 0 69, 9), (icu 0 0x108, 0x20), (icu 0 0x208, 0x20)] ++ (tOn []).creg }
theorem test_hyp_InterruptEntry : let s := tIrq { tCore with sr := 0x80, sp := 16 }
    (s.core 0).interruptible = true ∧ s.domUp (coreDomain 0) = true ∧ (s.core 0).sr.getLsbD 7 = true ∧ s.best 0 (bits (s.core 0).sr.toNat 20 8) = some 69 ∧
      (s.core 0).traps = [] ∧ (s.core 0).started = true ∧ (∀ i : Fin 4, SoundAccess 0 .ss ((s.core 0).sp - BitVec.ofNat 32 (4 * i.val + 4)) 4 s) ∧
      (tRun 0 tCore).best 0 0 = none :=
  ⟨by decide +kernel, by decide +kernel, by decide +kernel, by decide +kernel, by decide +kernel, by decide +kernel, fun i => sound_of (by revert i; decide), by decide +kernel⟩

theorem test_hyp_MachineCheck : let s := { tRun 5 { tCore with sp := 16 } with mcq := [1] }
    (s.core 5).atPoint = true ∧ s.domUp 32 = true ∧ s.mcPending = true ∧ (s.core 5).traps = [] ∧ (s.core 5).started = true ∧ 16 ≤ (s.core 5).sp.toNat ∧
      (s.core 5).ss.w = true ∧ (∀ i : Fin 4, SoundAccess 5 .ss ((s.core 5).sp - BitVec.ofNat 32 (4 * i.val + 4)) 4 s) ∧ (tRun 5 tCore).mcPending = false :=
  ⟨by decide +kernel, by decide +kernel, by decide +kernel, by decide +kernel, by decide +kernel, by decide +kernel, by decide +kernel, fun i => sound_of (by revert i; decide), by decide +kernel⟩

theorem test_hyp_WaitsAndTraps : let w := tRun 0 { tCore with run := .waiting (.sync 1), muls := [1] }
    let x := tIrq { tCore with run := .waiting .wfi }
    (w.core 0).run = .waiting (.sync 1) ∧ (w.core 0).rep = none ∧ (w.core 0).started = true ∧ (w.core 0).traps = [] ∧ w.syncHolds 0 1 = false ∧ w.syncHolds 0 2 = true ∧
      (x.core 0).run = .waiting .wfi ∧ x.wfiHolds 0 = true ∧ x.domUp (coreDomain 0) = true := by decide +kernel

/-- A NOP in a line that the core holds is fetched without a change. -/
theorem fetch_nop {c : CoreId} {o : Word} {s : State} (h : s.fetchOk c o 2 = true) (hc : s.cached c ((s.core c).cs.base.toNat + o.toNat) false = true)
    (hz : s.num ((s.core c).cs.base.toNat + o.toNat) 2 = 0) : fetchInsn c o s = .ok (2 * 2 ^ 64) s := by
  have hp : fetchParcel c o s = .ok (s.num ((s.core c).cs.base.toNat + o.toNat) 2) s := by simp [fetchParcel, coreRead, hc, accessEnd, State.num]
  unfold fetchInsn
  simp [h, hp, hz, parcelLen, fetchMore]
/-- A prefix before a NOP, with RC = rc, begun. -/
def tRep (rc : Word) : State := tRun 0 { tCore with rc := rc }
/-- REP with RC = 0, 1 and 256, REPN with RC = 257. -/
theorem test_hyp_Repeat (rc : Word) (h : rc = 0 ∨ rc = 1 ∨ rc = 256 ∨ rc = 257) : let s0 := (tRep rc).modCore 0 (fun k => { k with started := true, rep := none })
    Ready 0 2 (tRep rc) ∧ GoesOn 0 s0 ∧ (s0.core 0).rep = none ∧ fetchInsn 0 (((tRep rc).core 0).pc + 2) s0 = .ok (2 * 2 ^ 64) s0 ∧
      prefixIllegal 0 (BitVec.ofNat 64 (2 * 2 ^ 64)) (2 * 2 ^ 64 / 2 ^ 64) = false := by
  rcases h with rfl | rfl | rfl | rfl <;>
    exact ⟨ready_of (by decide +kernel), goes_of (Same.refl _) (by decide +kernel), by decide +kernel, fetch_nop (by decide +kernel) (by decide +kernel) (by decide +kernel), by decide +kernel⟩

/-- Port i of the fabric bound to region 0, which is CONFIGURED. -/
def tPort (i : Nat) (s : State) : State := { s with fab := { FabState.reset with portmap := [(i, 0)], phase := [(0, 4)] } }
theorem test_hyp_Coprocessor : let s := tPort 0 { tRun 0 tCore with creg := (sq 0 0x30, 1) :: (tOn []).creg }
    let w := tPort 0 (tRun 0 { tCore with run := .waiting (.cop 3 1 0 5 6 7 .sent) })
    Ready 0 4 s ∧ s.copEnabled 0 0 = true ∧ s.portOpen 0 = true ∧ (tRun 0 tCore).portOpen 0 = false ∧ (tRun 0 tCore).copEnabled 0 63 = false ∧
      (w.core 0).run = .waiting (.cop 3 1 0 5 6 7 .sent) ∧ (w.core 0).rep = none ∧ (w.core 0).started = true ∧ (w.core 0).traps = [] ∧ (w.core 0).tv = false :=
  ⟨ready_of (by decide +kernel), by decide +kernel, by decide +kernel, by decide +kernel, by decide +kernel, by decide +kernel, by decide +kernel, by decide +kernel, by decide +kernel, by decide +kernel⟩

/-- A request that waits for CQ_RDY, where the design drives it. -/
theorem test_hyp_CoprocessorWait (h : (Config.portSignals 0 0).2.1 = true) : let w := tPort 0 (tRun 0 { tCore with run := .waiting (.cop 3 1 0 5 6 7 .waiting) })
    (w.core 0).run = .waiting (.cop 3 1 0 5 6 7 .waiting) ∧ (w.core 0).rep = none ∧ (w.core 0).started = true ∧ (w.core 0).traps = [] ∧ CopStage.waiting ≠ .sent ∧
      w.portOpen 0 = true ∧ (Config.portSignals w.free 0).2.1 = true ∧ ((w.micro_ 0).cq = false ∧ ((w.setMicro 0 { w.micro_ 0 with cq := true }).micro_ 0).cq = true) :=
  ⟨by decide +kernel, by decide +kernel, by decide +kernel, by decide +kernel, by decide, by decide +kernel, h, by decide +kernel⟩

-- The array

/-- An array instruction of 8-bit fields A = 0, B = 8, D = 16. -/
def tQ (op mode : Nat) : QEntry :=
  { op := BitVec.ofNat 8 op, len := 7, a := 0, b := 8, d := 16, mode := BitVec.ofNat 4 mode, mod := 0, scope := 0, beta := 5, care := 0xff, entry := 0, lo := 0, hi := 4096
    klen := 0, kbase := 0 }
/-- Sequencer 0 as x. -/
def tSeq (x : Seq) : State := { tRun 0 { tCore with asLim := 4096, asR := true, asW := true } with seqs := [(0, x)] }
/-- The instruction at the head of the array queue, or of the lane. -/
def tArr (q : QEntry) : State := tSeq { Seq.reset with queue := [q] }
def tLane (q : QEntry) : State := tSeq { Seq.reset with lane := [q], frame := some .boundary }
/-- The checks of `HeadIs`. -/
def tHead (q : QEntry) (lane : Bool) (s : State) : Bool :=
  decide (s.head 0 = some (q, lane)) && !s.treeHeld 0 q && decide (tget (konst 0) s.arr.clr 0 = 0) && !(s.seq (s.driver 0)).badWord &&
    ((popHead 0 lane s).altered 0 q).isEmpty && s.arr.rowErr.isEmpty
theorem head_of {q : QEntry} {lane : Bool} {s : State} (h : tHead q lane s = true) : HeadIs 0 q lane s := by
  simp only [tHead, Bool.and_eq_true, decide_eq_true_eq, Bool.not_eq_true', List.isEmpty_iff] at h
  exact ⟨h.1.1.1.1.1, h.1.1.1.1.2, h.1.1.1.2, h.1.1.2, h.1.2, h.2⟩

/-- A pushed instruction: ADD of 8-bit fields passes the checks of R62 into an empty queue, a full one, and the lane; code 0x7F names none. -/
theorem test_hyp_ArrayPushes : let w : Dword := BitVec.ofNat 64 (3 * 2 ^ 62 + 0x20 * 2 ^ 54 + 7 * 2 ^ 48 + 16 * 2 ^ 36 + 8 * 2 ^ 24)
    let full := tSeq { Seq.reset with queue := List.replicate 64 (tQ 0 0) }
    let susp := tSeq { Seq.reset with frame := some .boundary }
    let ok (x : PushCheck) : Bool := match x with | .ok _ => true | _ => false
    let ill (x : PushCheck) : Bool := match x with | .illegal => true | _ => false
    (0 : CoreId) ≠ 5 ∧ Ready 0 8 (tSeq Seq.reset) ∧ ok (arrayCheck (tSeq Seq.reset) 0 w 0) = true ∧ ((tSeq Seq.reset).seq 0).full = false ∧
      Ready 0 8 full ∧ ok (arrayCheck full 0 w 0) = true ∧ (full.seq 0).full = true ∧ (susp.seq 0).susp = true ∧
      ill (arrayCheck (tSeq Seq.reset) 0 (BitVec.ofNat 64 (3 * 2 ^ 62 + 0x7f * 2 ^ 54)) 0) = true :=
  ⟨by decide +kernel, ready_of (by decide +kernel), by decide +kernel, by decide +kernel, ready_of (by decide +kernel), by decide +kernel, by decide +kernel, by decide +kernel, by decide +kernel⟩

/-- An ADD outside the array, beyond the limit, without the read right, of a key row, with mode 6, and β selectors of each kind; a push that a full queue held. -/
theorem test_hyp_ArrayChecks : let w : Dword := BitVec.ofNat 64 (3 * 2 ^ 62 + 0x20 * 2 ^ 54 + 7 * 2 ^ 48 + 16 * 2 ^ 36 + 8 * 2 ^ 24)
    let s := tSeq Seq.reset
    let k (k : Core) : State := { s with cores := [(0, k)] }
    let lim := k { tCore with asLim := 23, asR := true, asW := true }
    let nor := k { tCore with asLim := 4096, asW := true }
    let key := { s with creg := (cr 9 0x200, 0x10017) :: s.creg }
    let is (e : Nat) (x : PushCheck) : Bool := match x with | .segFault n _ => n == e | _ => false
    let ill (x : PushCheck) : Bool := match x with | .illegal => true | _ => false
    let stt (x : PushCheck) : Bool := match x with | .illegalState => true | _ => false
    let ok (x : PushCheck) : Bool := match x with | .ok _ => true | _ => false
    let sel (n : Nat) : Dword := BitVec.ofNat 64 (3 * 2 ^ 62 + 0x22 * 2 ^ 54 + 7 * 2 ^ 48 + 16 * 2 ^ 36 + n * 2 ^ 24)
    let held := { tSeq Seq.reset with cores := [(0, { tCore with run := .waiting (.push (tQ 0xE0 0)) })] }
    is 1 (arrayCheck lim 0 w 0) = true ∧ is 2 (arrayCheck nor 0 w 0) = true ∧ is 3 (arrayCheck key 0 w 0) = true ∧ ok (arrayCheck key 0 (BitVec.ofNat 64 (3 * 2 ^ 62 + 0x01 * 2 ^ 54 + 7 * 2 ^ 48 + 16 * 2 ^ 36 + 1)) 0) = true ∧
      stt (arrayCheck (tRun 4 tCore) 4 w 0) = true ∧ ill (arrayCheck s 0 (w + 6 * 256) 0) = true ∧ (opInfo 0x20 8).isSome = true ∧
      (held.core 0).run = .waiting (.push (tQ 0xE0 0)) ∧ (held.core 0).rep = none ∧ (held.core 0).started = true ∧ (held.core 0).traps = [] ∧ (held.seq 0).full = false ∧
      held.drives 0 = some 0 ∧ (opInfo 0x22 8).map (·.fb) = some .beta ∧ (∀ n ∈ [0, 255, 256 + 14, 512 + 7, 768, 1024 + 255], ok (arrayCheck s 0 (sel n) 0) = true) ∧
      ∀ n ∈ [256 + 15, 512 + 8, 0x500], ill (arrayCheck s 0 (sel n) 0) = true := by
  refine ⟨?_, ?_, ?_, ?_, ?_, ?_, ?_, ?_, ?_, ?_, ?_, ?_, ?_, ?_, ?_, ?_⟩ <;> decide +kernel

theorem test_hyp_SuspendAndResume : let s := tSeq Seq.reset
    let susp := tSeq { Seq.reset with frame := some .boundary }
    Ready 0 4 s ∧ s.drives 0 ≠ none ∧ (s.seq 0).susp = false ∧ Ready 0 4 susp ∧ susp.drives 0 ≠ none ∧ (susp.seq 0).susp = true ∧ Ready 4 4 (tRun 4 tCore) ∧
      (tRun 4 tCore).drives 4 = none ∧ ((tRun 0 { tCore with run := .waiting (.apre 1) }).core ((tRun 0 tCore).driver 0)).run = .waiting (.apre 1) :=
  ⟨ready_of (by decide +kernel), by decide +kernel, by decide +kernel, ready_of (by decide +kernel), by decide +kernel, by decide +kernel, ready_of (by decide +kernel), by decide +kernel, by decide +kernel⟩

/-- Every opcode of the statements heads the queue and the lane, in its least and greatest mode. -/
theorem test_hyp_heads : ∀ op ∈ [0x00, 0x01, 0x02, 0x03, 0x04, 0x05, 0x06, 0x07, 0x08, 0x09, 0x0A, 0x0B, 0x0C, 0x0D, 0x0E, 0x0F, 0x20, 0x21, 0x22, 0x23, 0x24, 0x25, 0x26,
    0x27, 0x28, 0x29, 0x30, 0x31, 0x32, 0x33, 0x34, 0x35, 0x36, 0x37, 0x38, 0x39, 0x3A, 0x3B, 0x3C, 0x3D, 0x40, 0x41, 0x42, 0x43, 0x44, 0x45, 0x50, 0x51, 0x52, 0x53, 0x54,
    0x60], ∀ m ∈ [0, 1, 5], HeadIs 0 (tQ op m) false (tArr (tQ op m)) ∧ HeadIs 0 (tQ op m) true (tLane (tQ op m)) := by
  intro op ho m hm
  have h : ([0x00, 0x01, 0x02, 0x03, 0x04, 0x05, 0x06, 0x07, 0x08, 0x09, 0x0A, 0x0B, 0x0C, 0x0D, 0x0E, 0x0F, 0x20, 0x21, 0x22, 0x23, 0x24, 0x25, 0x26,
    0x27, 0x28, 0x29, 0x30, 0x31, 0x32, 0x33, 0x34, 0x35, 0x36, 0x37, 0x38, 0x39, 0x3A, 0x3B, 0x3C, 0x3D, 0x40, 0x41, 0x42, 0x43, 0x44, 0x45, 0x50, 0x51, 0x52, 0x53, 0x54,
    0x60].all (fun op => [0, 1, 5].all (fun m => tHead (tQ op m) false (tArr (tQ op m)) && tHead (tQ op m) true (tLane (tQ op m))))) = true := by decide +kernel
  have h1 := List.all_eq_true.mp (List.all_eq_true.mp h op ho) m hm
  simp only [Bool.and_eq_true] at h1
  exact ⟨head_of h1.1, head_of h1.2⟩

/-- Fields inside, the same or apart, at the last row too; MULW's and DIV's D apart; every part of MUL. -/
theorem test_hyp_fields : let q := tQ 0x27 1
    (tQ 0 1).mode.toNat ≤ 1 ∧ Inside q.a q.n ∧ Inside q.b q.n ∧ Inside q.d q.n ∧ Inside 4088 8 ∧ ExactOrApart q.d q.a q.n ∧ ExactOrApart q.d q.b q.n ∧ ExactOrApart 8 8 8 ∧
      overlap q.a.toNat q.n q.d.toNat (2 * q.n) = false ∧ overlap q.b.toNat q.n q.d.toNat (2 * q.n) = false ∧ Inside q.d (2 * q.n) ∧ 7 < mulDivParts q ∧
      ((tArr q).seq ((tArr q).driver 0)).run = none := by
  unfold Inside ExactOrApart; decide +kernel

theorem test_hyp_Selfirst : (tQ 0x42 1).mode = 1 ∧ (tQ 0x42 1).scope = 0 ∧ ((tArr (tQ 0x42 1)).trees 0).first = [] := by decide +kernel

/-- NMOV in each of the four directions, near and far, at an edge of fill mode. -/
theorem test_hyp_NeighbourMoves : ∀ dir ∈ List.range 8, let q := { tQ 0x60 1 with mod := BitVec.ofNat 8 (8 * dir) }
    tHead q false (tArr q) = true ∧ (tArr q).edgeMode 0 (dir % 4) false ≠ 3 ∧ tget (konst none) (tArr q).arr.newEdge 0 = none := by decide +kernel

theorem test_hyp_HashColumnParities : let q := { tQ 0x70 1 with a := 0, b := 1600, d := 1920 }
    tHead q false (tArr q) = true ∧ q.op = 0x70 ∧ Inside q.a 1600 ∧ Inside q.b 320 ∧ Inside q.d 1600 ∧ overlap q.a.toNat 1600 q.b.toNat 320 = false ∧
      overlap q.a.toNat 1600 q.d.toNat 1600 = false ∧ overlap q.b.toNat 320 q.d.toNat 1600 = false ∧ q.beta.toNat < 24 := by unfold Inside; decide +kernel
/-- The turns and constants of the statement are those of Tables ARR-4 and ARR-5. -/
theorem test_keccak : (∀ x ∈ List.range 5, ∀ y ∈ List.range 5, rhoTurn x y = keccakTurns.getD (x + 5 * y) 0) ∧
    ∀ i ∈ List.range 24, ∀ z ∈ List.range 64, iotaBit i z = (keccakConstants.getD i 0).getLsbD z := by decide +kernel

-- Micro-routines

/-- A fabric plane function as routine, n microwords issued. -/
def tRout (n : Nat) : Routine := { Routine.start (tQ 0xE0 0) false with issued := n }
/-- The microword at μPC 0 of sequencer 0, with its parity, and sequencer 0 as x. -/
def tUser (w : Nat) (x : Seq) : State := { tSeq x with micro := [(uwKey 0 0, BitVec.ofNat 165 (w + parity w * 2 ^ 160))] }
/-- The checks of `Fetched` for a microword. -/
def tFetched (r : Routine) (s : State) : Bool :=
  let q := s.driver 0
  let w := s.uword q r.upc.toNat
  decide ((s.seq q).run = some r) && isUser r.q.op && r.byWord && !(s.seq q).badWord && s.canIssue 0 && !s.runOut q r 0 && !r.lost && badGroups w == 0 &&
    !illegalWord (inUser r.upc.toNat) (w % 2 ^ 160) && !s.stopActs q && !wordHeld 0 r (w % 2 ^ 160) s && (boundFault r (wordCtl r (w % 2 ^ 160))).isNone
theorem fetched_of {r : Routine} {s : State} (h : tFetched r s = true) : Fetched 0 r s := by
  simp only [tFetched, Bool.and_eq_true, decide_eq_true_eq, Bool.not_eq_true', beq_iff_eq, Option.isNone_iff_eq_none] at h
  obtain ⟨⟨⟨⟨⟨⟨⟨⟨⟨⟨⟨h1, h2⟩, h3⟩, h4⟩, h5⟩, h6⟩, h7⟩, h8⟩, h9⟩, h10⟩, h11⟩, h12⟩ := h
  exact ⟨h1, h2, h3, h4, h5, h6, h7, h8, h9, h10, h11, h12⟩

/-- The start; a first word with the port open and closed; a word that goes on, one that ends, and one at the run bound; a held word under the wait bound. -/
theorem test_hyp_UserMicrowords : let go := tUser 0 { Seq.reset with run := some (tRout 0) }
    let end_ := tUser (5 * 2 ^ 131) { Seq.reset with run := some (tRout 1) }
    let last := { tUser 0 { Seq.reset with run := some (tRout 1023) } with creg := (sq 0 0x840, 0x10) :: (tOn []).creg }
    let held := { tUser (12 * 2 ^ 134) { Seq.reset with run := some (tRout 0) } with creg := (sq 0 0x840, 1) :: (tOn []).creg }
    ((tArr (tQ 0xE0 0)).head 0 = some (tQ 0xE0 0, false) ∧ isUser (tQ 0xE0 0).op = true) ∧ (Fetched 0 (tRout 0) go ∧ go.portOpen 0 = false ∧ go.arr.rowErr = []) ∧
      (MayIssue 0 (tRout 0) (tPort 0 go) ∧ (tPort 0 go).runOut 0 (tRout 0) 1 = false) ∧ (MayIssue 0 (tRout 1) end_ ∧ nextUpc end_ 0 (tRout 1) (5 * 2 ^ 131) = none) ∧
      (MayIssue 0 (tRout 1023) last ∧ last.runOut 0 (tRout 1023) 1 = true ∧ nextUpc last 0 (tRout 1023) 0 ≠ none) ∧
      ((held.seq 0).run = some (tRout 0) ∧ held.waitBound 0 = true ∧ held.isHeld 0 = true) ∧
      ((tQ 0x27 0).op.toNat = 0x27 ∧ (tQ 0x70 0).op.toNat = 0x70) := by
  refine ⟨by decide +kernel, ⟨fetched_of ?_, ?_⟩, ⟨⟨fetched_of ?_, ?_⟩, ?_⟩, ⟨⟨fetched_of ?_, ?_⟩, ?_⟩, ⟨⟨fetched_of ?_, ?_⟩, ?_⟩, ?_, ?_⟩ <;> decide +kernel
/-- The checks of `longRead_sound` in the first memory stack, with the lines that the reader has fuel for. -/
def tLow (i : Initiator) (fuel a n : Nat) (s : State) : Bool := decide (n = 0 ∨ a % 64 + n ≤ 64 * fuel) && decide (a + n < 0x400000000) && tAt (sourcePort i) s
/-- The bytes there are read as they are stored. -/
theorem read_of {i : Initiator} {fuel a n : Nat} {s : State} (h : tLow i fuel a n s = true) : longRead i fuel a n s = (.ok, s.bytes a n, s) := by
  simp only [tLow, Bool.and_eq_true, decide_eq_true_eq] at h
  exact longRead_sound (at_of h.1.2 h.2) h.1.1

/-- A microword that has failed, once or again, with a spare row left or none; a source in sound staging memory, and one that is not there. -/
theorem test_hyp_MicrowordReloads : let r : Routine := { tRout 0 with upc := 0x3000 }
    let s (b : Bool) (c : Table Word) : State :=
      { tSeq { Seq.reset with run := some r, badWord := true, hadError := [0x3000], again := b } with creg := c ++ (tOn []).creg }
    let img := (sq 0 0x848, (0x10001 : Word))
    (∀ b ∈ [false, true], ∀ c ∈ [[img], [img, (sq 0 0x860, 0)]], ((s b c).seq ((s b c).driver 0)).run = some r ∧ ((s b c).seq ((s b c).driver 0)).badWord = true ∧
      ((s b c).seq ((s b c).driver 0)).frame = none ∧ reloadSource 0 0x3000 (s b c) = (some 0, s b c) ∧ ((s b c).seq ((s b c).driver 0)).again = b) ∧
      (s true [img]).driver 0 = 0 ∧ (s true [img]).spareRow 0 = some 0 ∧ (s true [img, (sq 0 0x860, 0)]).spareRow 0 = none ∧
      reloadSource 0 0x3000 (s false []) = (none, s false []) := by
  have src (s : State) (h : (tLow (.core 0) 8 0x10000 24 s && decide (s.fld (sq 0 0x848) 6 26 * 64 + s.fld (sq 0 0x84c) 0 8 * 2 ^ 32 = 0x10000) && s.bit (sq 0 0x848) 0 &&
      decide (s.bytes 0x10000 24 = List.replicate 24 0)) = true) : reloadSource 0 0x3000 s = (some 0, s) := by
    simp only [Bool.and_eq_true, decide_eq_true_eq] at h
    have hr : longRead (.core 0) 8 0x10000 24 s = (.ok, s.bytes 0x10000 24, s) := read_of h.1.1.1
    have h0 : 32 * (0x3000 % 4096) = 0 := by decide
    have h1 : ofBytes (List.replicate 24 (0 : Byte)) % 2 ^ 160 = 0 := by decide
    have hi : imageWord (Fin.ofNat 6 0) 0 (0x3000 % 4096) s = (some 0, s) := by
      unfold imageWord
      simp only [h0, Nat.add_zero, h.1.1.2, show Fin.ofNat 6 0 = 0 from rfl, hr, h.2, h1, if_true]
    unfold reloadSource
    rw [if_pos (by decide), if_pos h.1.2, hi]
  have no (s : State) (h : s.bit (sq 0 0x848) 0 = false) : reloadSource 0 0x3000 s = (none, s) := by
    unfold reloadSource
    rw [if_pos (by decide), h]
    rfl
  refine ⟨fun b hb c hc => ⟨?_, ?_, ?_, src _ ?_, ?_⟩, ?_, ?_, ?_, no _ ?_⟩ <;> (try revert b c) <;> decide +kernel

theorem test_hyp_Microstore : mayMicro (.core 0) 0 0x3000 = true ∧ mayMicro .mgmt 4 16383 = true ∧ (tget (konst (32768, 0)) ((tSeq Seq.reset).seq 0).buf0 (respKey .mgmt)).1 ≠ 0x3000 ∧
    ((tUser 0 { Seq.reset with run := some (tRout 0) }).seq 0).run.isSome = true := by decide +kernel

/-- APRE waits while a routine stands at a resumption point, while the array is idle, and while an instruction is queued. -/
theorem test_hyp_Suspension : let k := { tCore with run := .waiting (.apre 1) }
    let w (x : Seq) : State := { tRun 0 k with seqs := [(0, x)], micro := [(uwKey 0 0, BitVec.ofNat 165 (2 ^ 139 + parity (2 ^ 139) * 2 ^ 160))] }
    ((w Seq.reset).core 0).run = .waiting (.apre 1) ∧ atResumption (w { Seq.reset with run := some (tRout 1) }) 0 (tRout 1) = true ∧ Seq.reset.frame = none ∧
      Seq.reset.run = none ∧ Seq.reset.queue = [] ∧ Seq.reset.qHalt = false ∧ (w Seq.reset).stopping 0 = none ∧ Seq.reset.flush = false ∧
      ({ Seq.reset with queue := [tQ 0 0] }).queue ≠ [] ∧ maySeq .mgmt 4 = true ∧ maySeq (.core 3) 3 = true := by decide +kernel
/-- A first microword that no reload delays; a frame to go back to. -/
theorem test_hyp_Resumption : let s := tSeq { Seq.reset with run := some (tRout 0) }
    let x := tSeq { Seq.reset with frame := some (.routine (tRout 1)), resuming := true }
    ((s.seq (s.driver 0)).run = some (tRout 0) ∧ (tRout 0).issued = 0 ∧ (tRout 0).steps = 0 ∧ (s.seq (s.driver 0)).badWord = false) ∧
      ((x.seq (x.driver 0)).resuming = true ∧ (x.seq (x.driver 0)).run = none ∧ (x.seq (x.driver 0)).lane = [] ∧ (x.seq (x.driver 0)).frame = some (.routine (tRout 1))) := by
  decide +kernel
/-- A transfer of one presentation that waits for its swap. -/
def tXfer (out : Bool) : Transfer :=
  { base := [(0, 0x1000)], cnt := [(0, 1)], stride := 1, sstride := 1, out := out, manual := false, pad := false, keep := false, merge := false, fab := false
    map := [⟨0, false, 3, 1, 1, 0⟩], pres := 0, sent := [], buf := [], out_ := [], drained := [], turn := [], capture := 0, restore := none, mark := 0, zero := 0, ending := false, fail := none, key := false
    job := none }
def tMoves (t : Transfer) : State := { tSeq Seq.reset with arr := { ArrState.reset with transfers := [(0, some t)], ready := BitVec.allOnes _ } }
theorem test_hyp_AutoSwap : let s := tMoves (tXfer false)
    let k := { tMoves { tXfer false with key := true } with creg := (cr 9 0x200, 0x10000003) :: (tOn []).creg }
    s.xfer 0 = some (tXfer false) ∧ (tXfer false).autoSwap = some 3 ∧ (s.seq 0).quiet = true ∧ s.allReady (s.quads 0) = true ∧ s.canIssue 0 = true ∧ s.inKey 0 3 = (tXfer false).key ∧
      s.arr.rowErr = [] ∧ k.inKey 0 3 = ({ tXfer false with key := true }).key ∧ (k.seq 0).quiet = true ∧ k.allReady (k.quads 0) = true ∧ k.canIssue 0 = true := by decide +kernel

theorem test_hyp_ArrayRegisters : let s := tOn []
    (∀ qs ∈ shapeParts s.shape, (s.seq (s.driver (qs.headD 0))).busy = false) ∧ ({ ArrState.reset with newShape := some 7 }).newShape = some 7 ∧ s.arr.trees = [] ∧
      s.arr.transfers = [] ∧ bits 0x10000fff 0 12 + bits 0x10000fff 16 13 ≤ 4096 + 4095 ∧ bits 0x0fff 0 12 + bits 0x0fff 16 13 ≤ 4096 ∧ s.arr.takeover = none ∧
      (s.admits (act 13 0 0)).1 = true := by decide +kernel

-- Reach, plane I/O, integrity

/-- Offers at the least and greatest position, of both classes, and a device match of the partitions of the shape. -/
theorem test_hyp_TreeLandings : let o : Offer := ⟨0, false, 63, true, true, 1, none, false⟩
    let e : Offer := ⟨0, true, 0, false, false, 0, none, false⟩
    let d : Offer := ⟨1, false, 0, true, false, 2, none, false⟩
    let s := { tOn [] with arr := { ArrState.reset with trees := [(0, ⟨[e, o], [o], [e]⟩)] } }
    let w := { tOn [] with arr := { ArrState.reset with trees := (List.range 4).map (fun p => (p, ⟨[d], [d], [d]⟩)) } }
    let u := { tOn [] with halves := [(2, { Half.reset with link := .up, rxRed := List.replicate 15 ⟨false, false, 0, 0⟩, rxEv := List.replicate 63 0 })] }
    o.scope = 0 ∧ e.got = none ∧ (s.trees 0).wick = e :: [o] ∧ (s.trees 0).count = [o] ∧ (s.trees 0).first = [e] ∧ (s.seq (s.driver 0)).run = none ∧ tget (konst 0) s.arr.clr 0 = 0 ∧ w.inTree = false ∧
      w.offering = [0, 1, 2, 3] ∧ (∀ t ∈ [Tree.wick, .count, .first], w.firsts t (w.deviceOffer t) = some [d, d, d, d]) ∧ (u.half 1 0).link = .up ∧ (u.half 1 0).rxRed.length < 16 ∧
      (u.half 1 0).rxEv.length < 64 := by decide +kernel

theorem mapped_low {a n : Nat} (h : a + n ≤ 0x1000000000) : mapped a n = true := by
  have h1 : decide (nvmBase + 0x460000 < a + n) = false := decide_eq_false (by unfold nvmBase; omega)
  unfold mapped; rw [dataRange_staging (by have := stagingEnd_pos; omega), h1, Bool.and_false]; rfl
/-- A descriptor at address 0: one record of one byte of quadrant 0, one map entry of one bit. -/
def tPtd : State := { tOn [] with mem := [(0x20, 1), (0x30, 1), (0x32, 1)] }
theorem test_hyp_Go : let s0 := enginesRun (tPtd.quads 0) tPtd
    let d := readPtd (tPtd.quads 0) (ofBytes (s0.bytes 0 64)) ((List.range 1).map (fun x => bits (ofBytes (s0.bytes 64 8)) (64 * x) 64))
    mayEngine .mgmt 0 tPtd = true ∧ tPtd.goOk 0 = true ∧ s0.quads 0 = tPtd.quads 0 ∧ tPtd.ptdAddr 0 = 0 ∧ mapped 0 64 = true ∧
      longRead (.engine 0) 16 0 64 s0 = (.ok, s0.bytes 0 64, s0) ∧ bits (ofBytes (s0.bytes 0 64)) (8 * 0x32) 8 = 1 ∧ mapped 64 8 = true ∧
      longRead (.engine 0) 80 64 8 s0 = (.ok, s0.bytes 64 8, s0) ∧ (tPtd.quads 0).all (fun q => !(tPtd.stack q).failed) = true ∧ d.bad = false ∧ addressBad (tPtd.quads 0) d.t = false ∧ keyBad s0 0 d.t = false ∧ d.t.fab = false := by
  refine ⟨?_, ?_, ?_, ?_, mapped_low (by decide +kernel), read_of (by decide +kernel), ?_, mapped_low (by decide +kernel), read_of (by decide +kernel), ?_, ?_, ?_, ?_⟩
  any_goals decide +kernel
  have h : ∀ q ∈ tPtd.quads 0, q = 0 ∨ (readPtd (tPtd.quads 0) (ofBytes ((enginesRun (tPtd.quads 0) tPtd).bytes 0 64))
      ((List.range 1).map (fun x => bits (ofBytes ((enginesRun (tPtd.quads 0) tPtd).bytes 64 8)) (64 * x) 64))).t.cnt_ q = 0 := by decide +kernel
  refine List.any_eq_false.mpr (fun q hq => ?_)
  rcases h q hq with rfl | h
  · rw [mapped_low (show _ ≤ 0x1000000000 from of_decide_eq_true (by decide +kernel))]; simp
  · rw [h]; simp

/-- Two passes: nine map entries of 64 bits each. -/
def tLong : Transfer := { tXfer false with map := (List.range 9).map (fun e => ⟨0, false, BitVec.ofNat 12 (64 * e), 64, 8, 0⟩), sent := [(0, 1)] }
/-- A pass whose line is read and sent, one whose lines are read ahead; one that drains and one that is written, by an engine without records; a presentation to
fill, one to capture and a zeroing due; a transfer to cancel, drained and not; a stream that has stopped, and one whose port is closed; a stack in use, with a line
stored wrong and without, one in self-refresh and one that is off. -/
theorem test_hyp_PlaneTransfers : let t := tXfer false
    let s := tMoves t
    let o := { tXfer true with cnt := [], pres := 1 }
    let o1 := { o with drained := [(0, 1)] }
    let c := { tXfer true with capture := 1 }
    let z := { tXfer true with zero := 1 }
    let f := { tXfer true with fab := true, capture := 2 }
    let fd := { f with pres := 1 }
    let sent := { t with sent := [(0, 1)] }
    let low := { tMoves sent with arr := { (tMoves sent).arr with ready := 0 } }
    let idle (x : State) (t : Transfer) : Bool := decide (x.xfer ((x.partOf 0).headD 0) = some t) && t.fail.isNone && !x.stalledElse 0
    let scrub := tOn [(mc 0 0x10, 1)]
    (s.engineWaits 0 false (t.passLines 0 0) = false ∧ (tMoves tLong).engineWaits 0 false ((tLong.passLines 0 1).take bufLines) = false ∧ (tMoves o).engineWaits 0 true [] = false ∧
      (tMoves o1).engineWaits 0 true ((o1.lines_ 0).map (·.addr)) = false) ∧
    (idle s t = true ∧ t.sent_ 0 < t.passes ∧ t.fab = false ∧ t.passStart 0 ≤ s.reached t 0 ∧ t.cnt_ 0 ≤ 262144 ∧ t.buf_ 0 = [] ∧
      readPassLines 0 (t.passLines 0 0) s = (.ok, [BitVec.ofNat 512 (ofBytes (s.bytes 0x1000 64))], s)) ∧
    (idle (tMoves tLong) tLong = true ∧ tLong.sent_ 0 < tLong.passes ∧ (tMoves tLong).reached tLong 0 < tLong.passStart 1 ∧
      readPassLines 0 ((tLong.passLines 0 1).take bufLines) (tMoves tLong) = (.ok, [BitVec.ofNat 512 (ofBytes ((tMoves tLong).bytes 0x1000 64))], tMoves tLong)) ∧
    (idle (tMoves o) o = true ∧ o.drained_ 0 < o.passes ∧ o.drained_ 0 ≤ o.sent_ 0 ∧ o.fab = false ∧ o.out = true ∧ o.ending = false ∧ o.passStart 1 ≤ (tMoves o).reached o 0 ∧
      outLines (outBits o ((tMoves o).reached o 0) 0 0) = []) ∧
    (idle (tMoves o1) o1 = true ∧ o1.sent_ 0 < o1.passes ∧ o1.sent_ 0 < o1.drained_ 0) ∧
    (writeLines 0 o.merge [] (tMoves o) = (.ok, tMoves o) ∧ writeLines 0 o1.merge (o1.lines_ 0) (tMoves o1) = (.ok, tMoves o1)) ∧
    (s.goOk 0 = false ∧ mayEngine .mgmt 0 s = true ∧ s.quads 0 ≠ []) ∧ ((tMoves o).undrained { o with sent := [(0, 1), (1, 1)] } 0 = false ∧ f.out = true ∧ (tMoves f).undrained f 0 = true) ∧
    (idle low sent = true ∧ sent.pres < sent.total ∧ sent.pres < sent.passStart 1 ∧ low.arr.ready &&& quadClusters 0 = 0) ∧
    (idle (tMoves c) c = true ∧ c.ending = false ∧ c.zero.getLsbD 0 = false ∧ c.mark.getLsbD 0 = false ∧ c.capture.getLsbD 0 = true ∧ c.pres < c.passStart 1) ∧
    (idle (tMoves z) z = true ∧ z.ending = false ∧ z.zero.getLsbD 0 = true) ∧
    (idle (tMoves f) f = true ∧ f.fab = true ∧ f.drained_ 0 < f.passes ∧ ({ tMoves f with creg := (ct 0 0x18, 1) :: (tOn []).creg }).fld (ct 0 0x18) 0 4 ≠ 0) ∧
    (idle (tMoves fd) fd = true ∧ fd.passStart 1 ≤ (tMoves fd).reached fd 0 ∧ (tMoves fd).portOpen 6 = false) ∧
    (scrub.fld (mc 0 0x10) 0 16 ≠ 0 ∧ scrub.stackUp 0 = true ∧ (scrub.stack 0).refresh = false ∧ scrub.domUp 21 = true ∧
      (scrub.modStack 0 (fun x => { x with refresh := true })).stackUp 0 = false) ∧ scrub.scrubLine 0 = none ∧ ({ scrub with lineErr := [(5, 1)] }).scrubLine 0 = some 5 := by
  have one (x : State) (h : tLow (.engine 0) 80 0x1000 64 x = true) : readPassLines 0 [0x1000] x = (.ok, [BitVec.ofNat 512 (ofBytes (x.bytes 0x1000 64))], x) := by
    unfold readPassLines
    rw [read_of h]
    rfl
  have h1 : (tXfer false).passLines 0 0 = [0x1000] := by decide +kernel
  have h2 : (tLong.passLines 0 1).take bufLines = [0x1000] := by decide +kernel
  have h3 : 5 * 64 / stackSize = 0 := Nat.div_eq_of_lt (by have := stackSize_pos; omega)
  have h4 : 320 < stagingEnd := by have := stagingEnd_pos; omega
  have own : ownStack (.engine 0) 0x1000 = true := by
    have := stackSize_pos
    have := stagingEnd_pos
    simp [ownStack, show (0x1000 : Nat) < stagingEnd by omega, Nat.div_eq_of_lt (show 0x1000 < stackSize by omega)]
  have near (x : State) (d : Bool) : x.engineWaits 0 d [0x1000] = false := by simp [State.engineWaits, own]
  refine ⟨⟨by rw [h1]; exact near _ _, by rw [h2]; exact near _ _, rfl, by decide +kernel⟩, ⟨?_, ?_, ?_, ?_, ?_, ?_, ?_⟩, ⟨?_, ?_, ?_, ?_⟩, ?_, ?_, ⟨rfl, rfl⟩, ?_, ?_, ?_, ?_, ?_, ?_, ?_, ?_, ?_, ?_⟩
  case refine_7 => rw [h1]; exact one _ (by decide +kernel)
  case refine_11 => rw [h2]; exact one _ (by decide +kernel)
  case refine_22 => rfl
  case refine_23 =>
    have hs : ∀ x : State, x.lineErr = [(5, 1)] → (x.stack 0).scrub = 0 → x.scrubLine 0 = some 5 := by
      intro x hx hk; unfold State.scrubLine; rw [hx, hk]; simp [h4, show (64 * 5 / stackSize) = 0 from h3]
    exact hs _ rfl rfl
  all_goals decide +kernel

-- Integrity, the seam, interrupts, banks, rings, power

/-- Sequencer 0 empty, with the array as f leaves it. -/
def tArrOn (f : ArrState → ArrState) (r : Table Word := []) : State := { tSeq Seq.reset with arr := f ArrState.reset, creg := r ++ (tOn []).creg }

/-- A pass, a step, a window; a candidate; a copy in a stolen and a forced cycle, at its first and last row; the switches; a record due. -/
theorem test_hyp_ArrayIntegrity : let on := tOn [(cr 6 0, 0x17), (cr 6 0x10, 1)]
    let s := tSeq Seq.reset
    let c := tArrOn (fun a => { a with candidates := [(0, 5)] }) [(cr 6 0, 0x17)]
    let g : Migration := ⟨0, 5, 5, 288, 0, none, false⟩
    let m (g : Migration) := tArrOn (fun a => { a with migrations := [g] }) [(cr 6 0, 0x17)]
    let x : Substitution := ⟨0, 63, 64, 4096, none, true⟩
    let u := tArrOn (fun a => { a with ueWin := [(0, [1, 2])] }) [(cr 6 0, 0x17)]
    let w := tArrOn (fun a => { a with substs := [x] })
    on.bit (cr 6 0) 0 = true ∧ on.fld (cr 6 0x10) 0 16 ≠ 0 ∧ s.stolen 0 = true ∧ s.arr.rowErr = [] ∧ s.arr.writeBacks = [] ∧ s.arr.migrations = [] ∧ s.arr.substs = [] ∧
      s.arr.scrubLate = [] ∧ twf (konst 0) s.arr.colCnt = true ∧ c.arr.candidates.find? (·.1 == 0) = some (0, 5) ∧ c.bit (cr 6 0) 1 = true ∧
      c.arr.migrations.any (·.pc == 0) = false ∧ c.retired 0 = false ∧ (List.range 64).find? (fun x => c.physOf 0 x == 0) = some 0 ∧
      (List.range 288).find? (fun l => c.physCol 0 l == 5) = some 5 ∧ (c.freeCols 0).head? = some 288 ∧ c.blocker (act 1 0 0) = none ∧
      (m g).arr.migrations = [g] ∧ ((m g).quads 0).contains (tileQuad (g.pc / 66)) = true ∧ (m g).bit (cr 6 0) 1 = true ∧ (m g).stolen 0 = true ∧ (m g).fld (cr 6 0) 4 4 ≠ 0 ∧
      ((m g).seq ((m g).driver 0)).run = none ∧ (m { g with ended := true }).arr.migrations = [{ g with ended := true }] ∧
      u.substCause 0 0 = true ∧ u.canSubst (u.physOf 0 0) = true ∧ u.freeCluster 0 = some 64 ∧ u.blocker (act 2 (u.physOf 0 0) 0) = none ∧ u.arr.substs.any (fun g => g.tile == 0 && g.cl == 0) = false ∧
      w.arr.substs = [x] ∧ (w.quads 0).contains (tileQuad x.tile) = true ∧ (w.seq (w.driver 0)).run = none ∧ ({ s with mapDue := [.lane 0 0 32] }).mapDue = [.lane 0 0 32] ∧
      s.writerHeld = false ∧ ({ s with acts := [act 9 0 0] }).writerHeld = true := by decide +kernel

/-- Half-edge 0 of edge 0 as x. -/
def tHalf (x : Half) (r : Table Word := []) : State := { tOn r with halves := [(0, x)] }
/-- A flit of TYPE 1 with the right CRC. -/
def tFlit : BitVec 560 := BitVec.ofNat 560 (0x2000 + 7 * 2 ^ 16 + crc32Bits 528 (0x2000 + 7 * 2 ^ 16) * 2 ^ 528)
/-- Every state of Table SEAM-3, the bounds of NAKs, credits and lanes, flits that pass and fail. -/
theorem test_hyp_SeamHalfEdges : let d := tHalf { Half.reset with link := .detect }
    let t := tHalf { Half.reset with link := .train }
    let u := tHalf { Half.reset with link := .up, rxEv := List.replicate 63 0 }
    let n := tHalf { Half.reset with link := .up, nakRun := 7, nakSeq := 3 }
    let n6 := tHalf { Half.reset with link := .up, nakRun := 6 }
    let due (k : Nat) : Half := { Half.reset with link := .up, nakDue := some 3, nakOut := k }
    let x := tHalf { Half.reset with link := .down } [(sm 0 0, 0x100)]
    let b := tOn [(lane 0 31 + 4, 0xc0000000), (lane 0 0 + 4, 0)]
    let f := tHalf { Half.reset with link := .up, parity := 0, rxEv := List.replicate 63 0 }
    ((f.half 0 0).parity = 0 ∧ (f.half 0 0).expSeq = flitSeq tFlit ∧ (f.half 0 0).rxEv.length < 64) ∧ (n.half 0 0).nakRun ≠ 0 ∧
      (((tHalf (due 6)).half 0 0).nakOut < 7 ∧ ((tHalf (due 7)).half 0 0).nakDue ≠ none ∧ 7 ≤ ((tHalf (due 7)).half 0 0).nakOut ∧ (u.half 0 0).nakDue = none) ∧
      ((u.half 0 0).lmf = [] ∧ ackTo 0 (u.half 0 0).resend = []) ∧
      (tOn []).dom 25 = 0 ∧ ((tOn []).half 0 0).link = .disabled ∧ (d.half 0 0).link ≠ .disabled ∧ (d.half 0 0).link = .detect ∧ (t.half 0 0).link = .train ∧ (u.half 0 0).link = .up ∧
      (u.half 0 0).nakRun < 7 ∧ (u.half 0 0).out = [] ∧ (u.half 0 0).rxEv.length < 64 ∧ (n.half 0 0).link = .up ∧ 7 ≤ (n.half 0 0).nakRun ∧ (n.half 0 0).nakSeq = 3 ∧
      (n6.half 0 0).nakRun < 7 ∧ (x.half 0 0).link = .down ∧ x.bit (sm 0 0) 8 = true ∧ u.laneState 0 33 < 2 ∧ (u.admits (act 5 0 0)).1 = true ∧ b.laneState 0 31 = 3 ∧
      b.laneState 0 0 = 0 ∧ u.timeSrc ≠ 2 ∧ flitOk 0 = false ∧ flitOk tFlit = true ∧ flitBody tFlit = .ev 7 ∧ flitSeq tFlit = (u.half 0 0).expSeq ∧
      max 1 (u.fld (sm 0 8) 0 8) ≤ (255 : Byte).toNat ∧
      (tOn []).boot.tap.disturbs = false ∧ x.boot.tap.disturbs = false := by decide +kernel
/-- A half-edge that receives codewords of one lane, its next flit at the end of a payload. -/
def tRx : Half := { Half.reset with link := .up, width := 1, parity := 14, rxPos := 4580 }
/-- `tFlit` at the end of a payload with the parity of RS(528,514); its first symbol, which is 0, as given. -/
def tWord (c : BitVec 10) : List (BitVec 10) :=
  List.replicate 458 0 ++ [c, 456] ++ List.replicate 50 0 ++ [512, 821, 624, 768, 10, 803, 842, 722, 1018, 746, 541, 957, 979, 867, 490, 151, 709, 132]
/-- A symbol that is wrong and corrected. -/
theorem test_hyp_Codeword : let w := tRx.flitIn [tWord 5]
    tRx.parity ≠ 0 ∧ w.2 = some tFlit ∧ flitOk w.1 = false := by decide +kernel
/-- Eight symbols that are wrong and not corrected. -/
theorem test_hyp_CodewordLost : let x := tRx.flitIn [List.replicate 520 0 ++ [1, 2, 3, 4, 5, 6, 7, 8]]
    x.2 = none ∧ flitOk x.1 = false := by decide +kernel
/-- Where the ceilings let one half-edge of 17 lanes be, EN0 is allowed; RATE 00 without a lane is allowed anywhere; 34 are not allowed where the ceiling lies below. -/
theorem test_hyp_SeamCeilings (h : 17 ≤ Config.lanes.toNat) :
    let ok : State → Word → Prop := fun s v => bits v.toNat 6 2 ≠ 3 ∧ bits v.toNat 6 2 ≤ Config.rate.toNat ∧
      bits v.toNat 12 4 ≤ Config.swing.toNat ∧ s.lanesWith 0 v.toNat ≤ Config.lanes.toNat
    ok (tOn []) 1 ∧ (1 : Word).toNat.testBit 0 = true ∧ ok (tHalf { Half.reset with link := .up }) 0 ∧ (0 : Word).toNat.testBit 0 = false := by
  refine ⟨⟨by decide +kernel, ?_, ?_, ?_⟩, by decide +kernel, ⟨by decide +kernel, ?_, ?_, ?_⟩, by decide +kernel⟩
  · exact Nat.le_trans (by decide +kernel : _ ≤ 0) (Nat.zero_le _)
  · exact Nat.le_trans (by decide +kernel : _ ≤ 0) (Nat.zero_le _)
  · exact Nat.le_trans (by decide +kernel : _ ≤ 17) h
  · exact Nat.le_trans (by decide +kernel : _ ≤ 0) (Nat.zero_le _)
  · exact Nat.le_trans (by decide +kernel : _ ≤ 0) (Nat.zero_le _)
  · exact Nat.le_trans (by decide +kernel : _ ≤ 0) (Nat.zero_le _)
theorem test_hyp_SeamCeilingsBroken (h : Config.lanes.toNat < 34) : let s := tOn []
    s.dom 25 = 0 ∧ bits (3 : Word).toNat 6 2 ≠ 3 ∧ ¬ s.lanesWith 0 (3 : Word).toNat ≤ Config.lanes.toNat := by
  refine ⟨by decide +kernel, by decide +kernel, Nat.not_le.mpr (Nat.lt_of_lt_of_le h (by decide +kernel))⟩

/-- ICU 0 with its source 69, a timer that runs, and the last line that carries one. -/
theorem test_hyp_InterruptSources : let s := { tOn [(icuCfg 0 69, 0x80000009), (icuCfg 0 127, 0x82000009), (icuCfg 0 1021, 0x80000000)] with timers := [(69, some 3)], ran := 5, fab := { FabState.reset with phase := [(15, 3)] } }
    69 < 1022 ∧ hasLine 69 = true ∧ hasLine 127 = true ∧ isMessage 127 = false ∧ s.target 0 69 = true ∧ s.target 0 127 = true ∧ isMessage ((1021 : Word).toNat % 1024) = true ∧
      s.target 0 ((1021 : Word).toNat % 1024) = true ∧ isMessage ((1007 : Word).toNat % 1024) = false ∧ mayIcu (.core 0) 0 = true ∧ mayIcu (.core 5) 4 = true ∧ bits (0x84000000 : Word).toNat 24 3 < 5 ∧
      5 ≤ bits (0x85000000 : Word).toNat 24 3 ∧ tget (konst none) s.timers (0 * 1024 + 69) = some 3 ∧ s.fld (icuCfg 0 127) 24 3 = 2 ∧ s.line 127 true = true ∧
      tget (konst false) s.samples 127 = false ∧ 3 + 1000 * s.fld (icu 0 (0x3000 + 4 * 69)) 0 16 ≤ s.ran ∧
      s.ran < 3 + 1000 * ({ s with creg := (icu 0 (0x3000 + 4 * 69), 5) :: s.creg }).fld (icu 0 (0x3000 + 4 * 69)) 0 16 ∧
      (let w := { tIrq { tCore with sr := 0x80 } with creg := (pw 0x380, 3) :: (tIrq tCore).creg }
       w.deliverable 0 (bits (w.core 0).sr.toNat 20 8) 69 = true ∧ w.dom 16 = 3 ∧ w.heldOff 16 = false) ∧
      (let v := { s with creg := (icuCfg 0 69, 0x81000000) :: s.creg }
       v.line 69 (v.fab.firq.getLsbD (69 - 64)) = v.lastSample 0 69 ∧ v.lvl 0 69 = true ∧ v.icuBit 0 0x300 69 = false ∧ s.lvl 0 127 = false ∧ s.icuCount 0 127 = 0) := by decide +kernel

/-- Bank b as x. -/
def tBank (b : Nat) (x : Bank) (r : Table Word := []) : State := { tOn r with banks := [(b, x)] }
/-- Bank 62 of core 0 ON and calm, of another, in each power state; a handover, a wake and a test that end. -/
theorem test_hyp_ScratchpadBanks : let own := tOn [(bk 62 0, 1)]
    let calm (s : State) : Bool := !s.bankPend 62 && decide ((s.bank 62).newOwner = none) && decide (s.bankPwr 62 = 0) && decide ((s.bank 62).test = none) && s.flaw.isEmpty
    let st (n : Nat) := tOn [(bk 62 0, 1), (bk 62 8, BitVec.ofNat 32 (n * 2 ^ 30 + 0x100))]
    let hand := tBank 62 { Bank.reset with newOwner := some 2 }
    let test := tBank 62 { Bank.reset with test := some ⟨1023, []⟩ }
    calm own = true ∧ (65528 : BitVec 16).toNat % 8 = 0 ∧ own.owns 62 (.core 0) = true ∧ own.owns 62 (.core 1) = false ∧ (62 : Nat) = (0x3e8000 : BitVec 22).toNat / 65536 ∧
      ownerValid ((0x3f : Word).toNat % 64) = true ∧ own.blocker (act 4 62 0) = none ∧ (hand.bank 62).newOwner = some 2 ∧ (hand.bank 62).held = [] ∧ (st 0).bankPwr 62 = 0 ∧
      (st 0).fld (bk 62 8) 8 16 ≠ 0 ∧ mayPower (.core 0) 62 (st 0) = true ∧ ((st 0).bank 62).waking = false ∧ (st 1).bankPwr 62 = 1 ∧ (st 2).bankPwr 62 = 2 ∧ (st 3).bankPwr 62 = 3 ∧
      ((st 3).bank 62).stalled = [] ∧ ((st 3).bank 62).cmds = [] ∧ mayPower .mgmt 63 (tOn []) = true ∧
      (tOn [(bk 62 0x20, 0x80000000)]).bit (bk 62 0x20) 31 = true ∧ calm (tOn [(bk 62 0x20, 0x80000000)]) = true ∧ own.blocker (act 3 62 62) = none ∧
      (test.bank 62).test = some ⟨1023, []⟩ ∧ (test.bank 62).cmds = [] ∧ hand.traceQ = [] ∧ (st 3).bankWakes 62 = true ∧ (st 3).traceQ = [] ∧ ((st 0).bank 62).test = none ∧
      (let low := tOn [(bk 0 0, 1)]
       low.owns 0 (.core 0) = true ∧ low.bankPend 0 = false ∧ (low.bank 0).newOwner = none ∧ low.bankPwr 0 = 0 ∧ (low.bank 0).test = none ∧ low.flaw = []) := by decide +kernel
theorem page_port {a : Nat} (h : 0x1800000000 ≤ a) (hc : inControl a = true) :
    decodePort a = if pageListed ((a - 0x4200000000) / 65536) then some (pagePort ((a - 0x4200000000) / 65536)) else none := by
  have := stagingEnd_le
  unfold decodePort
  rw [if_neg (by omega), if_pos hc]
theorem alias_port : decodePort (0x4080000000 + 0x3e8000) = some (7, 6) := by
  have h := stagingEnd_le
  unfold decodePort dataRange
  rw [if_neg (show ¬ 0x4080000000 + 0x3e8000 < stagingEnd by omega), if_neg (show ¬ 0x4080000000 + 0x3e8000 + 1 ≤ stagingEnd by omega)]
  decide +kernel
/-- The rotate alias of bank 62, reachable and behind an isolated port, and the bank's control page. -/
theorem test_hyp_RotateAlias : let s := tOn [(bk 62 0, 1)]
    let iso := tOn [(cr 0x40 0x11c, 0x40)]
    let clear (s : State) (i : Initiator) (x : Nat) : Prop := (∀ n, s.cutting n = none) ∧ s.packets = [] ∧ s.probing = false ∧ s.issues i = true ∧
      s.passes (sourcePort i) false x = true ∧ ∀ d, wakes x = some d → s.dom d = 0
    let at_ := 0x4080000000 + 0x3e8000
    let page := 0x4200000000 + bk 62 0
    (clear s (.core 0) at_ ∧ s.isolatedFor (.core 0) 0 at_ = false ∧ ∀ d, decodePort at_ = some d → s.noReturn (sourcePort (.core 0)) d (.rd .b1) .ok = false) ∧
      (clear iso (.core 0) at_ ∧ iso.isolatedFor (.core 0) 0 at_ = true) ∧ clear s .mgmt page ∧ s.isolatedFor .mgmt 0 page = false := by
  have hp : decodePort (0x4200000000 + bk 62 0) = some (7, 6) := by rw [page_port (by decide +kernel) (by decide +kernel)]; decide +kernel
  have cl (r : Table Word) (i : Initiator) (x : Nat) (hd : decodePort x = some (7, 6)) (h : ((tOn r).probing = false ∧ (tOn r).issues i = true) ∧
      (tOn r).tokenless (sourcePort i) (7, 6) false = false ∧ ∀ d, portDomain 7 6 = some d → (tOn r).dom d = 0) :
      (∀ n, (tOn r).cutting n = none) ∧ (tOn r).packets = [] ∧ (tOn r).probing = false ∧ (tOn r).issues i = true ∧
        (tOn r).passes (sourcePort i) false x = true ∧ ∀ d, wakes x = some d → (tOn r).dom d = 0 := by
    have hw : wakes x = portDomain 7 6 := by simp only [wakes, hd]
    refine ⟨fun n => rfl, rfl, h.1.1, h.1.2, ?_, fun d hq => h.2.2 d (hw ▸ hq)⟩
    simp only [State.passes, State.reachable, hw, hd, h.2.1]
    cases hd2 : portDomain 7 6 with
    | none => rfl
    | some d => simp [State.domUp, h.2.2 d hd2]
  refine ⟨⟨cl _ _ _ alias_port (by decide +kernel), ?_, ?_⟩, ⟨cl _ _ _ alias_port (by decide +kernel), ?_⟩, cl _ _ _ hp (by decide +kernel), ?_⟩
  · unfold State.isolatedFor State.isolatedFrom; rw [alias_port]; decide +kernel
  · intro d hd; rw [alias_port] at hd; cases hd; decide +kernel
  · unfold State.isolatedFor State.isolatedFrom; rw [alias_port]; decide +kernel
  · unfold State.isolatedFor State.isolatedFrom; rw [hp]; decide +kernel

/-- A request of core 0 to the first memory stack, its tail there. -/
def tPkt (op : RingOp) : Packet :=
  { tag := 7, ref := 7, init := .core 0, net := op.net, sstop := 0, sport := 0, dstop := 1, dport := 1, addr := 0x3fffff8, cargo := .req op, prio := 0, ring := 0
    resends := 0, left := 0, stage := .flying, answered := false, status := none, data := none, discard := false }
/-- The packets of the rings. -/
def tSent (ps : List Packet) (r : Table Word := []) : State := { tOn r with packets := ps, nextTag := 8 }
/-- A packet with tag 5 that concerns the request, on its way back. -/
def tBack (c : Cargo) : Packet := { tPkt (.rd .b8) with tag := 5, net := .rsp, sstop := 1, sport := 1, dstop := 0, dport := 0, cargo := c }
/-- The checks of `Still` and `Ejects`. -/
def tStill (s : State) : Bool := !s.probing && s.packets.all (fun p => decide (p.stage ≠ .waiting) && decide (p.stage ≠ .held) && decide (p.left = 0) && decide (p.tag < s.nextTag))
@[inherit_doc tStill] def tEjects (p : Packet) (s : State) : Bool := tStill s && decide (s.packet p.tag = some p) && s.arrives p && p.bridge.all (fun d => decide (s.dom d = 0))
theorem still_of {s : State} (h : tStill s = true) : Still s := by
  simp only [tStill, Bool.and_eq_true, Bool.not_eq_true', List.all_eq_true, decide_eq_true_eq] at h
  exact ⟨h.1, fun p hp => ⟨(h.2 p hp).1.1.1, (h.2 p hp).1.1.2, (h.2 p hp).1.2, (h.2 p hp).2⟩⟩
theorem ejects_of {p : Packet} {s : State} (h : tEjects p s = true) : Ejects p s := by
  simp only [tEjects, Bool.and_eq_true, decide_eq_true_eq] at h
  exact ⟨still_of h.1.1.1, h.1.1.2, h.1.2, fun d hd => of_decide_eq_true (all_some h.2 d hd)⟩
/-- An address that decodes to nothing. -/
theorem decode_hole : decodePort 0x2000000000 = none := by
  have h := stagingEnd_le
  unfold decodePort dataRange
  rw [if_neg (show ¬ 0x2000000000 < stagingEnd by omega), if_neg (show ¬ 0x2000000000 + 1 ≤ stagingEnd by omega)]
  decide +kernel
/-- A route that a network has, one it has not; a read, a write and a posted write at the end of a stack; their answers; one that is not answered. -/
theorem test_hyp_RingRequests :
    let served (op : RingOp) := Ejects (tPkt op) (tSent [tPkt op]) ∧ Returns (tPkt op) (tSent [tPkt op]) ∧ (tSent [tPkt op]).isolated 1 1 = false ∧
      SoundMemory (tSent [tPkt op]) ∧ (tSent [tPkt op]).dirBusy = [] ∧ ∀ o, (tPkt op).op = some o → (tSent [tPkt op]).snoopLost (.core 0) o (tPkt op).linesOf = false
    let cut := { tSent [] with routes := [(1, ⟨false, 0⟩)] }
    let x := { tPkt (.rd .b8) with stage := .served }
    ((tSent []).issues .fabric = false ∧ (tSent []).issues (.core 0) = true) ∧ (∀ y, y ∈ (tSent [tPkt (.rd .b8)]).packets → y.tag < (tSent [tPkt (.rd .b8)]).nextTag ∧ y.ref < (tSent [tPkt (.rd .b8)]).nextTag) ∧
      (∀ n, n < 4 → (tSent []).noRoute n (sourcePort (.core 0)).1 1 = false ∧ (tSent []).noRoute n 1 0 = false) ∧ decodePort 0 = some (1, 1) ∧ decodePort 0x2000000000 = none ∧
      (cut.packets = [] ∧ cut.cutting 0 = none ∧ cut.noRoute 0 (sourcePort (.core 0)).1 1 = true) ∧
      (∀ op ∈ [RingOp.rd .b8, .wr .b8 5, .wrp .b8 5, .rdl .b8], served op) ∧ (tPkt (.rd .b8)).addr.toNat + 8 ≤ stagingEnd ∧ 0x3fffff8 / 64 * 64 + 64 * 8 ≤ stagingEnd ∧
      (∀ st ∈ [RStat.ok, .unmapped], let p := tBack (.rsp st (List.replicate 8 1))
        Ejects p (tSent [x, p]) ∧ (tSent [x, p]).packet p.ref = some x ∧ x.tag ≠ p.tag ∧ x.data = none ∧ x.discard = false ∧ x.readsLines = false) ∧
      ((tSent [x]).packet 7 = some x ∧ x.posted = false ∧ x.answered = false ∧ x.dport < 8) := by
  refine ⟨by decide +kernel, by decide +kernel, by decide +kernel, decodePort_low (by decide), decode_hole, by decide +kernel,
    fun op ho => ⟨ejects_of ?_, ?_, ?_, memory_of ?_, ?_, fun o h => by cases h; revert op; decide +kernel⟩,
    Nat.le_trans (by decide +kernel : _ ≤ 0x1000000000) stagingEnd_pos, Nat.le_trans (by decide +kernel : _ ≤ 0x1000000000) stagingEnd_pos,
    fun st hs => ⟨ejects_of ?_, ?_, ?_, ?_, ?_, ?_⟩, by decide +kernel⟩
  · revert op; decide +kernel
  · revert op; unfold Returns; decide +kernel
  all_goals (first | revert op | revert st); decide +kernel

/-- A segment that retires, one whose replay is counted; a request and a response to send again, and sent 4 times. -/
theorem test_hyp_RingRetirement : let s := tOn [(cr 0x40 0x18, 2)]
    let x (n : Nat) := { tPkt (.rd .b8) with stage := .cut, resends := n }
    let p := tBack .retry
    let t (n : Nat) := tSent [x n, p]
    let y := { tPkt (.rd .b8) with tag := 6, ref := 6, stage := .served, answered := true }
    let z := { tPkt (.rd .b8) with ref := 6, net := .rsp, sstop := 1, sport := 1, dstop := 0, dport := 0, cargo := .rsp .ok (List.replicate 8 1), stage := .cut, resends := 4 }
    let r := tBack .retry
    let u := tSent [y, z, r]
    (0 < ringsOf 3 ∧ s.segOut 3 0 5 = false ∧ max 1 (s.fld (cr 0x40 0x18) 0 8) ≤ ([0] : List Nat).length + 1 ∧ ¬ max 1 (s.fld (cr 0x40 0x18) 0 8) ≤ (s.replaysOf 3 0 5).length + 1 ∧
      s.fbusy 3 = false ∧ s.rbusy 3 = false ∧ s.blocker (act 8 3 0) = none) ∧
      (∀ n ∈ [3, 4], Ejects p (t n) ∧ (t n).packets.find? (fun y => y.cargo == .retry && y.ref == (x n).tag) = some p ∧ (t n).packet 7 = some (x n) ∧ (x n).tag ≠ p.tag ∧
        (t n).noRoute 0 0 1 = false ∧ (x n).op.isSome = true ∧ (x n).posted = false ∧ (x n).discard = false) ∧
      (Ejects r u ∧ u.packets.find? (fun y => y.cargo == .retry && y.ref == z.tag) = some r ∧ u.packet 7 = some z ∧ z.tag ≠ r.tag ∧ u.packet z.ref = some y ∧ y.tag ≠ z.tag ∧
        y.tag ≠ r.tag ∧ y.op.isSome = true ∧ y.posted = false ∧ y.discard = false) := by
  refine ⟨by decide +kernel, fun n hn => ⟨ejects_of ?_, ?_⟩, ejects_of ?_, ?_⟩ <;> (try revert n) <;> decide +kernel

/-- A line in its transaction, its snoop and the last response; networks idle, in a flip; a stop's tokens; a probe off. -/
theorem test_hyp_RingService : let y : Packet := { tPkt .rds with init := .core 1, addr := 0x140, stage := .served }
    let x : DirTxn := ⟨y, agent 0⟩
    let q (c : Cargo) : Packet := { tBack c with net := .snp, init := .core 0, addr := 0x140, dstop := if c = .snoopRsp then 1 else 0, dport := if c = .snoopRsp then 1 else 0 }
    let l (c : Cargo) := { tSent [y, q c] with dirBusy := [(5, ⟨some x, []⟩)], dir := [(5, ⟨1, true, none⟩)] }
    let f := tOn [(ringStat, 1)]
    (∀ c ∈ [Cargo.snoop true, .snoop false, .snoopRsp], Ejects (q c) (l c) ∧ (l c).packets.find? (fun p => p.addr.toNat / 64 == 5 && p.init == .core 0 && p.cargo == c) = some (q c)) ∧
      (l .snoopRsp).noRoute 2 (agentPort 0).1 (homePort 5).1 = false ∧ (((l .snoopRsp).dbusy 5).now = some x ∧ ((l .snoopRsp).dbusy 5).queue = [] ∧ x.await = agent 0 ∧
        (l .snoopRsp).packet 7 = some y ∧ y.tag ≠ 5 ∧ y.answered = false ∧ Returns y (l .snoopRsp)) ∧
      (tOn []).fbusy 3 = false ∧ (tOn []).rbusy 3 = false ∧ (tOn []).blocker (act 7 3 0) = none ∧ (f.fbusy 0 = true ∧ Still f) ∧
      (tOn []).fbusy (bits ((tOn []).r32 (cr 0x40 0x10)) 8 2) = false ∧ (tOn []).netBank 0 < 2 ∧ (0x80000000 : Word).getLsbD 31 = true := by
  have hp : homePort 5 = (1, 1) := by unfold homePort; rw [Nat.div_eq_of_lt (by have := stackSize_pos; omega)]; rfl
  refine ⟨fun c hc => ⟨ejects_of ?_, ?_⟩, by rw [hp]; decide +kernel, ⟨?_, ?_, ?_, ?_, ?_, ?_, ?_⟩, ?_, ?_, ?_, ⟨?_, still_of ?_⟩, ?_⟩
  any_goals first | (revert c; decide +kernel) | decide +kernel
  unfold Returns; decide +kernel

/-- Domain 0 in state n, and further words. -/
def tDom (n : Nat) (r : Table Word := []) : State := tOn (r ++ [(pw 0x300, BitVec.ofNat 32 n)])
/-- Array domain 0 in each state; PGEN on; held in a bridge; a partition that works; OFF in ALARM; a core's domain with a request under way. -/
theorem test_hyp_PowerDomains : let p (n : Nat) := tDom n [(pw 0x100, 0x20000000)]
    let busy (n : Nat) := { p n with seqs := [(0, { Seq.reset with queue := [tQ 0 0] })] }
    let two := { p 2 with power := { PowerState.reset with pnr := [(0, 2)] } }
    let out := { tOn [(pw 0x380, 2)] with packets := [tPkt (.rd .b8)], cores := [(0, { Core.reset with run := .waiting .wfi })] }
    (p 0).dom 0 = 0 ∧ (p 1).dom 0 = 1 ∧ (p 1).pgen 0 = true ∧ (p 1).mayDrain 0 = true ∧ (tDom 1 [(pw 0x100, 0)]).pgen 0 = false ∧ (busy 1).mayDrain 0 = false ∧ (p 2).dom 0 = 2 ∧ (p 2).pnr 0 = 0 ∧
      ((busy 2).dom 0 = 2 ∧ (busy 2).pnr 0 = 0 ∧ (busy 2).mayDrain 0 = false) ∧ ((busy 3).dom 0 = 3 ∧ (busy 3).heldOff 0 = false ∧ (busy 3).wakeSource 0 = true) ∧ (p 3).wakeSource 0 = false ∧
      ((p 2).mayDrain 0 = true ∧ (p 2).outstanding 0 = false ∧ (p 2).wakeHeld 0 = false) ∧ (out.dom 16 = 2 ∧ out.pnr 16 = 0 ∧ out.mayDrain 16 = true ∧ out.outstanding 16 = true) ∧
      two.dom 0 = 2 ∧ two.pnr 0 = 2 ∧ two.heldOff 0 = false ∧ (p 3).dom 0 = 3 ∧ (p 3).heldOff 0 = false ∧
      ({ p 3 with boot := { BootState.reset with trip := true } }).heldOff 0 = true ∧ (p 4).dom 0 = 4 ∧ (p 4).packets = [] ∧ (p 4).fab.waiting = [] ∧
      twf (konst 0) (p 4).arr.mem = true := by decide +kernel

-- Clocks, time, resets

/-- Set points, requests, readings and limits at their bounds. -/
theorem test_hyp_ClocksAndThrottle : let s := tOn [(pw 0x300, 0x000c3500 <<< 12), (pw 0x18, 600)]
    let a (n : Nat) := { s with power := { PowerState.reset with above := [(0, n)] } }
    let hot := { s with power := { PowerState.reset with hot := [33] } }
    let far := { s with power := { PowerState.reset with avs := true, avsReq := [(0, 0), (1, 0xffff)] } }
    bits (1025 : Word).toNat 0 12 % 50 ≠ 0 ∧ bits (950 : Word).toNat 0 12 < 1000 ∧ (∀ p, p < 4 → s.quads p = [] ∨ s.partIdle p = true) ∧ s.dom 0 ≠ 3 ∧
      tget (konst 0) (a 98).power.above 0 < 99 ∧ 99 ≤ tget (konst 0) (a 99).power.above 0 ∧ (0 : BitVec 20).toNat + 30000 < s.vset 0 ∧
      (far.railAsked 0 + 80 ≤ far.railWant 0) ∧ (far.railWant 1 + 80 ≤ far.railAsked 1) ∧ s.boot.held = none ∧ s.boot.trip = false ∧ (104999 : Int) < 105000 ∧ s.power.tlRise = none ∧
      far.power.avs = true ∧ s.power.avs = false ∧ hot.power.hot.contains 33 = true ∧ (∀ d, d < 33 → s.dom d = 3 ∨ s.tj d < 103000) ∧ s.power.pilotTemp < 103000 ∧ s.fld (pw 0x18) 0 16 < 601 ∧ 569 * 100 < s.fld (pw 0x18) 0 16 * 95 ∧
      bits (720 : Word).toNat 0 16 ≤ 720 ∧ 720 < bits (721 : Word).toNat 0 16 ∧ s.errq = none := by decide +kernel
/-- An array frequency below and above the ceiling, where it is not the least or the greatest. -/
theorem test_hyp_ArrayClock (h1 : 1000 ≤ Config.fmax.toNat) (h2 : Config.fmax.toNat < 4050) : let m : Word → Nat := fun v => bits v.toNat 0 12
    (m 1000 % 50 = 0 ∧ 1000 ≤ m 1000 ∧ m 1000 ≤ Config.fmax.toNat) ∧ (m 4050 % 50 = 0 ∧ 1000 ≤ m 4050 ∧ Config.fmax.toNat < m 4050) :=
  ⟨⟨by decide, by decide, h1⟩, by decide, by decide, h2⟩

/-- An alarm due, and one that is not; pulses at the second's offset, passed and not; a step; a calibration due. -/
theorem test_hyp_SidebandAndTime : let s := { tOn [(tm 0x14, 0xc0000000), (tm 0x28, 10), (tm 0x34, 0xc0000000), (tm 0x10, 0x03000001)] with
        now := 64000000010, ran := 64000000010, time := { TimeState.reset with prev := 63999999999, lockAt := some 10 } }
    s.boot.sleep = false ∧ (∀ d, d < 33 → s.tj d ≤ 0) ∧ s.tj 32 = 0 ∧ ({ s with boot := { BootState.reset with sleep := true } }).boot.sleep = true ∧ (128000001 : Word).toInt > 128000000 ∧
      -128000000 ≤ (128000000 : Word).toInt ∧ (128000000 : Word).toInt ≤ 128000000 ∧ s.r64 (tm 0x28) ≠ 0 ∧ s.r64 (tm 0x28) ≤ s.now.toNat ∧ (tOn []).r64 (tm 0x28) = 0 ∧ s.bit (tm 0x30) 63 = true ∧
      s.bit (tm 0x14) 31 = true ∧ s.ppsPassed = true ∧ stReady ≤ s.devState ∧ (tOn []).ppsPassed = false ∧ (tOn []).bit (tm 0x30) 63 = false ∧ s.bit (tm 0x30) 62 = true ∧ s.ppsSoon = false ∧
      s.timeSrc = 3 ∧ s.stepTh ≤ (withinSecond s.now.toNat).natAbs ∧ s.time.lockAt = some 10 ∧
      s.bit (tm 0x14) 30 = true ∧ 10 + 64000000000 ≤ s.ran ∧ (tOn []).time.lockAt = none ∧ s.smbOn = true ∧
      ({ s with boot := { BootState.reset with vio18 := false } }).smbOn = false ∧ (∃ d, d < 33 ∧ s.tj d = 0) := by decide +kernel
/-- PTP messages over each transport: one that GM_ALLOW discards, one that the role does, one that the port does not carry, and ones that go out and come in, stamped and
not; the fullest millisecond of the port. -/
theorem test_hyp_PtpMessages (h : 1 ≤ Config.etx.toNat) : let f (o : PtpOver) : PtpFrame := ⟨true, o, [0x00, 0x02]⟩
    let s (ctl : Nat) (gm : Nat) := tOn [(cr 0x4c 0, BitVec.ofNat 32 ctl), (cr 0 0x10, BitVec.ofNat 32 gm)]
    let full := { s 0x97000000 0x80 with dict := { DictState.reset with mgeBegun := [(0, 12500)] } }
    (ptpMaster .sync = true ∧ (s 0x97000000 0).bit (cr 0 0x10) 7 = false ∧ (s 0x97000000 0x80).bit (cr 0 0x10) 7 = true ∧ (s 0 0).bit (cr 0x4c 0) 31 = false) ∧
      (∀ o ∈ [PtpOver.ip4, .ip6, .ether], (s 0x97000000 0x80).bit (cr 0x4c 0) 31 = true ∧ (o = .ip4 → (s 0x97000000 0x80).bit (cr 0x4c 0) 25 = true) ∧
        (o = .ip6 → (s 0x97000000 0x80).bit (cr 0x4c 0) 26 = true) ∧ (s 0x97000000 0x80).mgeRoom (frameBytes (ptpSession (f o), (f o).bytes)) = true ∧
        full.mgeRoom (frameBytes (ptpSession (f o), (f o).bytes)) = false) ∧
      (s 0x97000000 0x80).bit (cr 0x4c 0) 24 = true ∧ (s 0x96000000 0x80).bit (cr 0x4c 0) 24 = false ∧ (s 0x97000000 0x80).dict.mgeWait = [] ∧
      (decide (ptpType [0x00, 0x02] < 4) && (s 0x97000000 0x80).ptpStamps (ptpKindOf [0x00, 0x02])) = true ∧ (s 0x87000000 0x80).ptpStamps .sync = false := by
  have hl : 0 < Config.etx.toNat * 1000 := Nat.mul_pos h (by decide)
  have room (s : State) (n : Nat) (hn : (s.dict.mgeBegun.isEmpty && decide (n ≤ 12500)) = true) : s.mgeRoom n = true := by
    simp only [Bool.and_eq_true, List.isEmpty_iff, decide_eq_true_eq] at hn
    unfold State.mgeRoom
    rw [hn.1]
    exact Bool.and_eq_true_iff.mpr ⟨decide_eq_true hl, decide_eq_true hn.2⟩
  have crowd (s : State) (n : Nat) (hn : decide (12500 < (recentMge s.ran 1000000 s.dict.mgeBegun).foldl (fun k t => k + t.2) n) = true) : s.mgeRoom n = false :=
    Bool.and_eq_false_iff.mpr (Or.inr (decide_eq_false (Nat.not_le.mpr (of_decide_eq_true hn))))
  refine ⟨by decide +kernel, fun o ho => ⟨by decide +kernel, fun _ => by decide +kernel, fun _ => by decide +kernel, room _ _ ?_, crowd _ _ ?_⟩, ?_⟩
  · revert o; decide +kernel
  · revert o; decide +kernel
  · decide +kernel

/-- OFF and PILOT; rails that are out of order while the device holds and while it runs; a nap that a held core's domain ends. -/
theorem test_hyp_RailsAndNap : let off := { tOn [] with creg := [(cr 0 0x18, 0)] }
    let bad := { tOn [] with boot := { BootState.reset with railsBad := true } }
    let nap := { tOn [(pw 0x388, 3), (pw 0x3c8, 3)] with boot := { BootState.reset with nap := true }, cores := [(5, { tCore with run := .waiting .wfi })] }
    (off.devState = stOff ∧ ({ tOn [] with creg := [(cr 0 0x18, 1)] }).devState = stPilot) ∧ (bad.boot.railsBad = true ∧ bad.boot.vio18 = true ∧ bad.devState ≠ stOff ∧ bad.boot.sleep = false) ∧
      (nap.boot.nap = true ∧ nap.dom 17 = 3 ∧ (nap.core 1).run = .held ∧ (nap.core 5).run = .waiting .wfi ∧ nap.dom 25 = 3 ∧ nap.storedEnables 0 = 0 ∧
        ({ nap with dict := { nap.dict with copyA := nap.dict.copyA, vals := nap.dict.vals } }).dom 16 = 0) := by decide +kernel

/-- The start-up finds neither image, or the TESTMODE pin; the watchdog runs; cores in each state; sleep with each wake source. -/
theorem test_hyp_ResetAndSleep : let bad : Mem := (List.range 4).flatMap (fun k => [(nvmBase + k, 0), (nvmBase + 0x200000 + k, 0)])
    let s := { tOn [(cr 1 0x10, 7), (cr 7 0x1c, 0)] with mem := bad, boot := { BootState.reset with fw := true } }
    let env : BootEnv := .plain
    let held := { s with boot := { BootState.reset with held := some env, railsBad := true } }
    let run (c : Nat) := { s with cores := [(c, { Core.reset with run := .running })], creg := (cr 7 0x18, 0x80000000) :: s.creg }
    let zz := { s with boot := { BootState.reset with sleep := true } }
    (env.testMode = false ∧ env.otpFault = false ∧ s.lifeField ≤ 1 ∧ s.power.pilotTemp < 100000 ∧ s.boot.railsBad = false) ∧ s.imageGood 0 = false ∧ s.imageGood 1 = false ∧ s.devState ≠ stOff ∧ s.devState ≠ stPilot ∧ s.boot.sleep = false ∧
      held.boot.held ≠ none ∧ held.boot.railsBad = true ∧ s.boot.held = none ∧ s.wdRuns = true ∧ (tOn []).wdRuns = false ∧ (0x52538000 : Word).toNat / 65536 = 0x5253 ∧
      (0x52538000 : Word).getLsbD 15 = true ∧ (0x52530010 : Word).toNat = 0x52530000 + 2 ^ 4 ∧ ((run 4).core 4).run ≠ .halted ∧ (s.core 4).run = .held ∧ ((run 4).core 4).run ≠ .held ∧
      ((run 3).core 3).started = false ∧ (run 3).arr.takeover = none ∧ (run 3).bit (cr 7 0x18) 31 = true ∧ ({ run 3 with creg := [(cr 7 0x18, 0)] }).bit (cr 7 0x18) 31 = false ∧ zz.boot.sleep = true ∧
      (∀ k, k < 3 → zz.bit (cr 1 0x10) k = true) ∧ (tOn [(cr 1 0x10, 0)]).bit (cr 1 0x10) 2 = false ∧ ({ s with boot := { BootState.reset with nap := true } }).boot.nap = true ∧
      ({ tOn [] with creg := [(cr 0 0x18, 0)] }).devState = stOff ∧ ({ env with testMode := true }).testMode = true := by decide +kernel
/-- VIO18 in and out of its window; a start held with TESTMODE and without; ICU5 with a deliverable source and none; each kind of TAP mode, the rails in order and not. -/
theorem test_hyp_PinsAndTap : let s := tOn []
    let vio := { s with boot := { BootState.reset with vio18 := false } }
    let held (m : Bool) := { s with boot := { BootState.reset with held := some { (.plain : BootEnv) with testMode := m }, railsBad := true } }
    let i5 := { tRun 5 { tCore with sr := 0x80, run := .waiting .wfi } with
        creg := [(icuCfg 5 69, 9), (icu 5 0x108, 0x20), (icu 5 0x208, 0x20)] ++ (tOn []).creg, boot := { BootState.reset with nap := true } }
    (s.boot.vio18 = true ∧ s.devState ≠ stOff ∧ vio.boot.vio18 = false) ∧ (∀ m, ((held m).boot.held.map (·.testMode)) = some m) ∧
      (i5.boot.nap = true ∧ i5.best 5 (bits (i5.core 5).sr.toNat 20 8) ≠ none ∧ s.best 5 (bits (s.core 5).sr.toNat 20 8) = none) ∧
      (TapMode.extest.disturbs = true ∧ TapMode.bypass.disturbs = false ∧ s.boot.railsBad = false ∧ (held false).boot.railsBad = true) ∧
      ({ s with boot := { BootState.reset with tap := .extestTrain } }).boot.tap.disturbs = true ∧ s.bit (sm 0 0) 0 = false ∧ s.blocker (act 13 3 0) = none := by decide +kernel

-- Security and grants

/-- Alarms open and latched, under LOG and under SESSION; a marked erasure and one of the session keys; policies at the edges of R398 and R400; key windows at the end of staging. -/
theorem test_hyp_SecurityMonitor : let s := tOn [(secAlarm, 0)]
    let er := tOn [(secSnuf, 0x40000000)]
    let weak := tOn [(secPol, 0x8055a &&& ~~~0xc &&& ~~~0x30 ||| 0x10)]
    s.bit secAlarm 2 = false ∧ (tOn [(secAlarm, 4)]).bit secAlarm 2 = true ∧ (tOn [(secPol, 0)]).policy 5 = 0 ∧ (tOn [(secPol, 0x400)]).policy 5 ≠ 0 ∧ s.meshOff = false ∧
      (true ≠ s.sec.drive ∨ false ≠ s.sec.drive) ∧ ({ s with sec := { SecState.reset with differed := true } }).sec.differed = true ∧ er.bit secSnuf 30 = true ∧
      ({ er with sec := { SecState.reset with step5 := true } }).sec.step5 = true ∧ er.sec.step5 = false ∧ er.fld secSnuf 28 2 ≠ 2 ∧ s.bit secSnuf 30 = false ∧
      (0x534E0001 : Word).toNat / 65536 = 0x534E ∧ (0x534E0001 : Word).toNat % 4 = 1 ∧ (0x534E0002 : Word).toNat % 4 = 2 ∧
      (∀ j, j < 11 → bits ((tOn [(secPol, 0x8055a)]).r32 secPol - 16 * 1 + 16 * 2) (2 * j) 2 = if j = 2 then 2 else (tOn [(secPol, 0x8055a)]).fld secPol (2 * j) 2) ∧
      polRank ((tOn [(secPol, 0x8055a)]).fld secPol 4 2) < polRank 2 ∧
      polRank 1 < polRank ((tOn [(secPol, 0x8056a)]).fld secPol 4 2) ∧ polRank (bits polFloor 4 2) ≤ polRank 1 ∧ s.sec.lower = [] ∧ weak.fld secPol 4 2 = 1 ∧ s.errq = none ∧
      (polRank 0 < polRank (weak.fld secPol 4 2) ∧ polRank 0 < polRank (bits polFloor 4 2) ∧ ∀ j, j < 11 → bits (weak.r32 secPol - 16) (2 * j) 2 = if j = 2 then 0 else weak.fld secPol (2 * j) 2) ∧
      (let g := { s with sec := { SecState.reset with lower := [(2, 1, 0)] } }
       (∃ x, x ∈ g.sec.lower ∧ x.1 = 2 ∧ x.2.1 = 1 ∧ g.ran ≤ x.2.2 + 10000000000) ∧
        ∀ x, x ∈ g.sec.lower → x.1 = 2 → x.2.1 = 1 → x.2.2 + 10000000000 < ({ g with ran := 10000000001 }).ran) ∧
      s.testing = false ∧ ({ s with boot := { BootState.reset with held := some { BootEnv.plain with testMode := true } } }).testing = true := by decide +kernel
/-- OFF, and any other state; the mesh sampled, and in TEST with a policy that turns it off. -/
theorem test_hyp_Sensors : let off := { tOn [] with creg := [(cr 0 0x18, 0)] }
    let test := { tOn [(secPol, 3)] with sec := { SecState.reset with lifeNow := 0 } }
    off.devState = stOff ∧ (tOn []).devState ≠ stOff ∧ (tOn []).meshOff = false ∧ (test.devState ≠ stOff ∧ test.meshOff = true) ∧ (secAlarm ≠ secSnuf ∧ (tOn []).sec.drive = (tOn []).mantleDrv) := by decide +kernel
theorem test_hyp_KeyWindows : let fits : Dword → Prop := fun w => (bits w.toNat 0 20 + bits w.toNat 32 20) * 2 ^ 20 ≤ stagingEnd
    fits (0x800000010000ffff : Dword) ∧ ¬ fits (0x8000000100017fff + 1 : Dword) := by
  refine ⟨Nat.le_trans (by decide +kernel : _ ≤ 0x1000000000) stagingEnd_pos, Nat.not_le.mpr (Nat.lt_of_le_of_lt stagingEnd_le (by decide +kernel))⟩

/-- A CAN node at level 2 in READY. -/
def tNode : Session := .can 1 CanFrame.any
def tHear (r : Table Word := []) : State :=
  { tOn ((cr 0x4d 0, 0x80000001) :: r) with boot := { BootState.reset with fw := true }, dict := { DictState.reset with vals := [(dkey 0x1200 1, 2)] } }
/-- The checks of `Hears` and `Operator`. -/
def tHears (s : State) : Bool := s.served tNode && s.boot.fw && !s.boot.nap && s.errq.isNone
@[inherit_doc tHears] def tOper (s : State) : Bool := tHears s && decide (2 ≤ s.reqLevel tNode) && decide (stReady ≤ s.devState) && decide (s.devState ≤ stDegraded)
theorem hears_of {s : State} (h : tHears s = true) : Hears tNode s := by
  simp only [tHears, Bool.and_eq_true, Bool.not_eq_true', Option.isNone_iff_eq_none] at h
  exact ⟨fun f => (by simp [tNode]), h.1.1.1, h.1.1.2, h.1.2, h.2⟩
theorem oper_of {s : State} (h : tOper s = true) : Operator tNode s := by
  simp only [tOper, Bool.and_eq_true, decide_eq_true_eq] at h
  exact ⟨hears_of h.1.1.1, h.1.1.2, h.1.2, h.2⟩

theorem oper_sec {s : State} (y : SecState) (h : Operator tNode s) : Operator tNode { s with sec := y } := h
theorem bit_sec (s : State) (y : SecState) (a k : Nat) : ({ s with sec := y } : State).bit a k = s.bit a k := rfl

/-- A slot into which one byte is written holds no whole image. -/
theorem short_image {s : State} {i n : Nat} (hn : n < 2820) : s.installed i n = false := by
  rw [State.installed, Bool.and_eq_false_iff]
  exact Or.inr (decide_eq_false (by omega))
/-- A region that begins where staging memory may not reach. -/
theorem far_region {a n : Nat} (h : 0x1800000000 ≤ a ∧ n ≠ 0) : regionOk a n = false := by
  have := stagingEnd_le
  simp only [regionOk, Bool.or_eq_false_iff, beq_eq_false_iff_ne, decide_eq_false_iff_not]
  omega
/-- Nonces below and at ten a second; a blob of the least and greatest size; the states of every kind of grant; a report that is asked for, under way and given; images
that fail; a region. -/
theorem test_hyp_GrantsAndImages : let s := tHear
    let within (s : State) (l : List Nat) : Nat := (l.filter (fun t => decide (s.ran < t + 1000000000))).length
    let bad := { s with mem := (List.range 4).flatMap (fun k => [(nvmBase + k, 0), (nvmBase + 0x200000 + k, 0)]) }
    let re := { s with sec := { SecState.reset with reenrol := some tNode } }
    let tasks (l : List FwTask) := { bad with dict := { DictState.reset with vals := [(dkey 0x1200 1, 2)], tasks := l } }
    let far := { s with dict := { DictState.reset with vals := [(dkey 0x1031 1, 0x1800000000), (dkey 0x1031 2, 1), (dkey 0x1200 1, 2)] } }
    let busy := { s with acts := [act 9 0 0] }
    let sign := tasks [.attest tNode (List.replicate 32 0)]
    let inst := tasks [.install tNode 0 1]
    Operator tNode s ∧ Hears tNode (tHear [(cr 0 0x18, 7)]) ∧ Hears tNode re ∧ Hears tNode sign ∧ sign.dict.tasks = [.attest tNode (List.replicate 32 0)] ∧
      (Hears tNode inst ∧ inst.dict.tasks = [.install tNode 0 1] ∧ SoundAt (7, 0) 0 1 inst ∧ (inst.setBytes (nvmBase + 0x200000) (inst.bytes 0 1)).installed 1 1 = false) ∧
      (Operator tNode far ∧ regionOk (far.dval 0x1031 1) (min (far.dval 0x1031 2) 0x200000) = false ∧ Operator tNode busy ∧ (busy.blocker (act 11 0 0)).isSome = true ∧
        regionOk (s.dval 0x1031 1) (min (s.dval 0x1031 2) 0x200000) = true) ∧
      (Operator tNode bad ∧ bad.imageGood 0 = false ∧ bad.imageGood 1 = false) ∧ within s s.sec.nonceReads < 10 ∧ 10 ≤ within s (List.replicate 10 0) ∧
      ((64 ≤ (List.replicate 65536 (0 : Byte)).length ∧ (List.replicate 65536 (0 : Byte)).length ≤ 65536) ∧ (tHear [(cr 0 0x18, 7)]).devState = stLocked ∧ s.life = 1 ∧
      s.sec.reenrol = none ∧ s.devState = stReady ∧ lifeRank s.lifeField < lifeRank 3 ∧ re.sec.reenrol = some tNode ∧ s.sec.next < 2 ^ 40 ∧ 1 ≤ s.reqLevel tNode ∧
      within s s.sec.attests < 10 ∧ s.blocker (act 12 0 0) = none ∧ s.blocker (act 11 0 0) = none ∧ s.dict.tasks.any FwTask.signs = false ∧ sign.dict.tasks.any FwTask.signs = true ∧
      s.pending = [] ∧ s.dict.tasks = []) ∧ ∃ sd, s.sec.seeds = some sd := by
  refine ⟨oper_of (by decide +kernel), hears_of (by decide +kernel), hears_of (by decide +kernel), hears_of (by decide +kernel), by decide +kernel,
    ⟨hears_of (by decide +kernel), by decide +kernel, at_of (by decide +kernel) (by decide +kernel), ?_⟩,
    ⟨oper_of (by decide +kernel), ?_, oper_of (by decide +kernel), by decide +kernel, by decide +kernel⟩,
    ⟨oper_of (by decide +kernel), by decide +kernel, by decide +kernel⟩, by decide +kernel, by decide +kernel, by decide +kernel, ⟨_, rfl⟩⟩
  · exact short_image (by decide)
  · exact far_region (by decide +kernel)
/-- An accepted grant and an image that verifies, where the vendor's signature does. -/
theorem test_hyp_Signed (blob : List Byte) (nonce : List Byte) (k a till : Nat) (hg : Config.grantFields (blob.take 64) = (k, a, Config.serial.toNat, nonce, till)) (hs : Config.vendorSigned blob = true)
    (hm : ofBytes (blob.take 4) = 0x544E5247) : let s := { tHear [(cr 2 0x14, 0x80000000)] with sec := { SecState.reset with nonce := some nonce } }
    (grantCheck blob s).1 = some (k, a, till) ∧ grantKind blob = k ∧ Operator tNode s := by
  refine ⟨?_, by simp [grantKind, hg], oper_sec _ (oper_of (by decide +kernel))⟩
  have hv : (State.bit { tHear [(cr 2 0x14, 0x80000000)] with sec := { SecState.reset with nonce := some nonce } } (cr 2 0x14) 31) = true := (bit_sec _ _ _ _).trans (by decide +kernel)
  simp only [grantCheck, hg, hs, hm, hv]
  rw [if_pos]
  simp [tHear, tOn, State.reset]
/-- An image of the least length in slot i, all of its header listed. -/
def tImage (i : Nat) : Mem := (List.range 256).map (fun k => (nvmBase + i * 0x200000 + k, BitVec.ofNat 8 ((0x0000000000001000 * 2 ^ 64 + 0x4D52465A) / 2 ^ (8 * k))))
/-- The checks of an image at an address but its signature. -/
def tGood (s : State) (b : Nat) : Bool :=
  let len := s.num (b + 8) 4
  s.num b 4 == 0x4D52465A && len % 16 == 0 && decide (0x1000 ≤ len) && decide (len ≤ 0x1FF4F0) && decide (s.num (b + 0xC) 1 ≤ 64) && decide (s.sec.svn ≤ s.num (b + 0xC) 1) &&
    (s.bytes (b + 0xD) 0xF3).all (· == 0)
theorem good_of (h : ∀ b, Config.vendorSigned b = true) {s : State} {i : Nat} (hg : tGood s (nvmBase + i * 0x200000) = true) : s.imageGood i = true := by
  simp only [State.imageGood, h, Bool.and_true]
  exact hg
theorem sec_setBytes (v : List Byte) (a : Nat) (s : State) : (s.setBytes a v).sec = s.sec := by
  have h := congrArg (fun x : State => x.sec) (same_setBytes v a s)
  exact h
/-- An image copied whole passes the checks that it passed where it was. -/
theorem copied_checks {s t : State} {a b n : Nat} (hg : tGood s a = true) (hn : 256 ≤ n) (hs : t.sec = s.sec) : tGood (t.setBytes b (s.bytes a n)) b = true := by
  have hm (k m : Nat) (hk : k + m ≤ n) : (t.setBytes b (s.bytes a n)).num (b + k) m = s.num (a + k) m := congrArg ofBytes (bytes_copied hk)
  have hb := bytes_copied (s := s) (t := t) (a := a) (b := b) (n := n) (k := 0xD) (m := 0xF3) (by omega)
  have hx : (t.setBytes b (s.bytes a n)).sec = s.sec := (sec_setBytes _ _ t).trans hs
  have h0 := hm 0 4 (by omega)
  simp only [Nat.add_zero] at h0
  unfold tGood
  rw [h0, hm 8 4 (by omega), hm 0xC 1 (by omega), hb, hx]
  exact hg
/-- An image at address a, copied whole to slot i. -/
theorem copied_good (h : ∀ b, Config.vendorSigned b = true) {s t : State} {a n : Nat} (i b : Nat) (hb : b = nvmBase + i * 0x200000)
    (hg : (tGood s a && decide (s.num (a + 8) 4 + 2820 ≤ n)) = true) (hs : t.sec = s.sec) : (t.setBytes b (s.bytes a n)).installed i n = true := by
  simp only [Bool.and_eq_true, decide_eq_true_eq] at hg
  have hc := copied_checks (t := t) (b := b) (n := n) hg.1 (by omega) hs
  have hl : (t.setBytes b (s.bytes a n)).num (b + 8) 4 = s.num (a + 8) 4 := congrArg ofBytes (bytes_copied (k := 8) (m := 4) (by omega))
  subst hb
  rw [State.installed, Bool.and_eq_true, decide_eq_true_eq, hl]
  exact ⟨good_of h hc, hg.2⟩
theorem test_hyp_Image (h : ∀ b, Config.vendorSigned b = true) : ({ tHear with mem := tImage 0 ++ tImage 1 }).imageGood 0 = true ∧ ({ tHear with mem := tImage 0 ++ tImage 1 }).imageGood 1 = true := by
  constructor <;> apply good_of h <;> decide +kernel
/-- An image of the least length at address 0, which an install writes to both slots. -/
theorem test_hyp_Install (h : ∀ b, Config.vendorSigned b = true) :
    let t := { tHear with mem := (List.range 256).map (fun k => (k, BitVec.ofNat 8 ((0x0000000000001000 * 2 ^ 64 + 0x4D52465A) / 2 ^ (8 * k)))),
                          dict := { DictState.reset with vals := [(dkey 0x1200 1, 2)], tasks := [.install tNode 0 6916] } }
    let b1 := t.setBytes (nvmBase + 0x200000) (t.bytes 0 6916)
    Operator tNode t ∧ t.dict.tasks = [.install tNode 0 6916] ∧ SoundAt (7, 0) 0 6916 t ∧ b1.installed 1 6916 = true ∧ (b1.setBytes nvmBase (t.bytes 0 6916)).installed 0 6916 = true := by
  refine ⟨oper_of (by decide +kernel), rfl, at_of (by decide +kernel) (by decide +kernel), copied_good h 1 _ (by decide +kernel) ?_ rfl,
    copied_good h 0 _ (by decide +kernel) ?_ ?_⟩
  · decide +kernel
  · decide +kernel
  · exact sec_setBytes _ _ _

-- The dictionary and maintenance

theorem slot_port : decodePort (slotAddr 0) = some (bankStop 3, 7) := by
  have h := stagingEnd_le
  unfold decodePort dataRange
  rw [if_neg (show ¬ slotAddr 0 < stagingEnd from Nat.not_lt.mpr (Nat.le_trans h (by decide +kernel))),
    if_neg (show ¬ slotAddr 0 + 1 ≤ stagingEnd from Nat.not_le.mpr (Nat.lt_of_le_of_lt h (by decide +kernel)))]
  decide +kernel

/-- Reads, writes and transfers of a session at level 2; a mailbox polled; commands in READY and in RUN, with the link down and up. -/
theorem test_hyp_NazenRequests : let s := tHear
    let run := tHear [(cr 0 0x18, 4)]
    let with_ (w : DictXfer) := { s with dict := { s.dict with sess := [⟨tNode, none, some w, 0, []⟩] }, ran := 1000000000 }
    let up (n : Nat) : DictXfer := ⟨false, 0x8001, 0, n, List.replicate n 7, 0⟩
    let down : DictXfer := ⟨true, 0x1031, 2, 4, [], 0⟩
    let long : DictXfer := ⟨true, 0x8002, 0, 65536, [], 65536⟩
    let link := { s with host := { HostState.reset with links := [(1, ⟨.l1, 16, 8⟩)] } }
    Operator tNode s ∧ Hears tNode (with_ (up 60)) ∧ Operator tNode (with_ down) ∧ Operator tNode run ∧ Operator tNode link ∧ checkRead tNode 0x1020 0 s = (0, roN 1) ∧
      (roN 1).size = some 1 ∧ 1 ≤ msgLen tNode - 4 ∧ msgLen tNode - 4 = 60 ∧ checkRead tNode 0x9999 0 s = (1, roN 1) ∧ (checkWrite tNode 0x1020 0 0 s).1 ≠ 0 ∧
      ((with_ (up 60)).sess tNode).xfer = some (up 60) ∧ (up 60).down = false ∧ ((up 60).len + 60 - 1) / 60 = (0 : BitVec 16).toNat + 1 ∧
      ((up 3841).len + 60 - 1) / 60 = (64 : BitVec 16).toNat + 1 ∧ (segOk tNode 0 = true ∧ segOk tNode 64 = true ∧ segOk tNode 63 = false) ∧ (64 : BitVec 16).toNat ≠ down.seg % 65536 ∧
      (s.sess tNode).xfer = none ∧
      ((with_ down).sess tNode).xfer = some down ∧ down.down = true ∧ (0 : BitVec 16).toNat = down.seg % 65536 ∧
      (down.data ++ [1, 2, 3].take (min 60 (down.len - down.data.length))).length < down.len ∧ (0 : BitVec 16).toNat = long.seg % 65536 ∧
      (down.data ++ [1, 2, 3, 4].take (min 60 (down.len - down.data.length))).length = 4 ∧ (checkWrite tNode 0x1031 2 (2 ^ 32 - 1) s).1 = 0 ∧
      lenOk (checkWrite tNode 0x1031 2 (2 ^ 32 - 1) s).2 0x1031 4 = true ∧ ((with_ down).sess tNode).last + 1000000000 ≤ (with_ down).ran ∧
      s.ran < (s.sess tNode).last + 1000000000 ∧ s.domUp 32 = true ∧ s.dval 0x1101 3 ≠ 0 ∧ s.bit (cr 0x4d 0) 31 = true ∧
      ({ s with dict := { s.dict with vals := [(dkey 0x1101 3, 0)] } }).dval 0x1101 3 = 0 ∧ s.blocker (act 9 0 0) = none ∧ s.devState ≠ stRun ∧ run.devState = stRun ∧ s.linkAwake = false ∧ link.linkAwake = true ∧ (4 : Word).toNat ≤ 4 ∧
      (s.core 4).run ≠ .halted ∧ s.fab.cur = none ∧ s.fab.waiting = [] ∧
      ({ s with dict := { s.dict with vals := (dkey 0x9001 1, 0x4200000018) :: s.dict.vals } }).dval 0x9001 1 = 0x4200000018 ∧ s.bit (cr 0x40 0x11c) 3 = false ∧
      s.dval 0x9001 1 < 0x4200000000 ∧ ((∀ k, k < 4 → s.xfer k = none) ∧ s.packets = [] ∧ s.boot.tap.disturbs = false ∧ s.mayDrain 0 = true ∧ s.mayDrain 21 = true) ∧
      (let q := { s with dict := { s.dict with canWait := [(tNode, [1])] } }
       tOper q = true ∧ q.dict.canWait ≠ [] ∧ CanFrame.any.dest ≠ 0) := by
  refine ⟨oper_of (by decide +kernel), (oper_of (by decide +kernel)).1, oper_of (by decide +kernel), oper_of (by decide +kernel), oper_of (by decide +kernel), by decide +kernel⟩
/-- A message that no server takes, and one that it does; a datagram that is lost in each way, and one that is not. -/
abbrev tListed (l : List Byte) : Prop := l.headD 0 ∈ ([0x10, 0x13, 0x20, 0x22, 0x24, 0x7F] : List Byte) ∧ (l.headD 0 ∈ ([0x13, 0x24] : List Byte) → l.getD 1 0 = 0)
@[inherit_doc tListed] abbrev tLost (fragment : Bool) (b : List Byte) : Prop := fragment = true ∨ b.length < 8 ∨ 68 < b.length ∨ b.take 2 ≠ [0x5A, 0x4E]
theorem test_hyp_Malformed : (¬ tListed [0x11] ∧ ¬ tListed [0x13, 1] ∧ tListed [0x13, 0] ∧ tListed [0x7F, 1]) ∧
    (tLost true [0x5A, 0x4E, 0, 0, 0x10, 1, 0, 0] ∧ tLost false [0x5A] ∧ tLost false (List.replicate 69 0x5A) ∧ tLost false (List.replicate 8 0)) ∧
    (¬ tLost false [0x5A, 0x4E, 0, 0, 0x12, 1, 0, 0] ∧ ¬ tListed [0x12, 1, 0, 0]) ∧ ¬ tLost false [0x5A, 0x4E, 0, 0, 0x10, 1, 0, 0] ∧ tListed [0x10, 1, 0, 0] := by
  refine ⟨⟨?_, ?_, ?_, ?_⟩, ⟨?_, ?_, ?_, ?_⟩, ⟨?_, ?_⟩, ?_, ?_⟩ <;> decide +kernel
/-- A frame of MGE with room, where the frame ceiling is not 0. -/
theorem room_of (h : 0 < Config.etx.toNat) {s : State} {m : Session × List Byte} (h0 : s.dict.mgeBegun = []) (hn : frameBytes m ≤ 12500) : s.mgeRoom (frameBytes m) = true := by
  unfold State.mgeRoom
  rw [h0]
  exact Bool.and_eq_true_iff.mpr ⟨decide_eq_true (Nat.mul_pos h (by decide)), decide_eq_true hn⟩
/-- A response that leaves at once. -/
theorem test_hyp_Leaves (h : 0 < Config.etx.toNat) : let s := tHear
    s.dict.canWait = [] ∧ s.dict.mgeWait = [] ∧ s.canRoom = true ∧ s.mgeRoom (frameBytes (tNode, hdr 0x21 0 0)) = true := by
  refine ⟨rfl, rfl, by decide +kernel, room_of h rfl (by decide +kernel)⟩
theorem test_hyp_Mailbox : let s (q : Byte) : State := { tHear [(bk 3 0, 6)] with mem := [(slotAddr 0, q), (slotAddr 0 + 0x40, 0x10), (slotAddr 0 + 0x42, 0x20), (slotAddr 0 + 0x43, 0x10)] }
    (∀ q, (s q).isolatedFor .mgmt 0 (slotAddr 0) = false ∧ QuietRings .mgmt (s q) ∧ (s q).served (.mailbox 0) = true ∧ (s q).boot.nap = false ∧ ((s q).bank 3).newOwner = none ∧
      (s q).bankPwr 3 = 0 ∧ ((s q).bank 3).test = none ∧ (s q).flaw = [] ∧ (s q).owns 3 .mgmt = true ∧ (s q).dom 31 = 0) ∧
      (s 0).num (slotAddr 0) 4 = (tget (konst 0) (s 0).dict.served 0).toNat ∧ (s 1).num (slotAddr 0) 4 ≠ (tget (konst 0) (s 1).dict.served 0).toNat ∧
      (s 1).num (slotAddr 0 + 0x40) 4 = 0x10200010 := by
  refine ⟨fun q => ⟨?_, quiet_of ?_, ?_⟩, ?_⟩
  · unfold State.isolatedFor State.isolatedFrom
    rw [slot_port]
    revert q; decide +kernel
  all_goals (try revert q) <;> decide +kernel

/-- Activities that may start and one that is refused; frames with and without room; a record due; registers that answer. -/
theorem test_hyp_ManagementAndMaintenance : let s := tHear
    let b := { s with acts := [act 1 0 7] }
    let c : Session × List Byte := (tNode, [1])
    let w (n : Nat) := { s with dict := { s.dict with canWait := [c], canBegun := List.replicate n 0 } }
    let e : ErrEntry := ⟨1, 2, 2, 3, 4, 5, 6⟩
    Operator tNode s ∧ Operator tNode b ∧ Operator tNode (tHear [(cr 6 0, 4)]) ∧ Operator tNode (tHear [(bk 63 0x20, 0x80000000)]) ∧ QuietRings .mgmt s ∧
      QuietRings (.core 0) s ∧ s.isolatedFor .mgmt 0 (0x4200060008 : BitVec 40).toNat = false ∧ s.isolatedFor (.core 0) 0 (0x4200060008 : BitVec 40).toNat = false ∧
      s.isolatedFor .mgmt 0 (0x4200060020 : BitVec 40).toNat = false ∧ bits (0x3f3f011f : Word).toNat 16 7 < 64 ∧ bits (0x3f3f011f : Word).toNat 0 9 < 288 ∧
      s.blocker (act 1 (s.physOf 63 63) 0x3f3f011f) = none ∧ (s.freeCols (s.physOf 63 63)).head? = some 288 ∧ b.blocker (act 1 (b.physOf 0 0) 0) = some (act 1 0 7) ∧ b.freeCols (b.physOf 0 0) ≠ [] ∧
      s.blocker (act 2 (0 * 66 + 0) 0) = none ∧ (tHear [(cr 6 0, 4)]).canSubst 0 = true ∧ s.freeCluster 0 = some 64 ∧ bits (0x30021 : Word).toNat 0 6 < 34 ∧
      s.laneState 3 33 < 2 ∧ s.blocker (act 5 3 0x30021) = none ∧ bits (0x03300000 : Word).toNat 20 2 < ringsOf 3 ∧ s.fbusy 3 = false ∧ s.rbusy 3 = false ∧
      s.blocker (act 8 3 0x03300000) = none ∧ (tHear [(bk 63 0x20, 0x80000000)]).bit (bk 63 0x20) 31 = true ∧ s.bankPwr 63 = 0 ∧ s.bankPend 63 = false ∧
      (s.bank 63).test = none ∧ s.blocker (act 3 63 63) = none ∧ (w 1).dict.canWait = c :: [] ∧ (w 1).canRoom = true ∧ (w 2).canRoom = false ∧ s.boot.fw = true ∧
      s.domUp 32 = true ∧ (tHear [(cr 0x4c 0, 0x80000000)]).bit (cr 0x4c 0) 31 = true ∧ ({ s with flogDue := [e] }).flogDue = e :: [] ∧
      ({ s with mapDue := [.lane 0 0 32] }).mapDue = .lane 0 0 32 :: [] ∧ s.writerHeld = false ∧
      ({ s with acts := [act 9 0 0] }).writerHeld = true ∧ (∀ d, d ∈ s.dict.due → 1 < d.2.1) ∧
      (let d := { w 0 with dict := { (w 0).dict with due := [(.can, 1, .sleep)] } }
       d.dict.due = [(.can, 1, .sleep)] ∧ d.dict.canWait = [c] ∧ d.canRoom = true) ∧
      (let a := { tHear [(cr 0x4c 0, 0x82000000)] with dict := { DictState.reset with vals := [(dkey 0x1110 2, 0x0a000001)] } }
       a.boot.fw = true ∧ a.domUp 32 = true ∧ a.bit (cr 0x4c 0) 31 = true ∧ a.bit (cr 0x4c 0) 25 = true ∧ a.dval 0x1110 2 = (0x0a000001 : BitVec 32).toNat) ∧
      (tHear [(cr 0x4c 0, 0)]).bit (cr 0x4c 0) 31 = false := by
  refine ⟨oper_of (by decide +kernel), oper_of (by decide +kernel), oper_of (by decide +kernel), oper_of (by decide +kernel), quiet_of (by decide +kernel), quiet_of (by decide +kernel), ?_, ?_, ?_, by decide +kernel⟩ <;>
  · unfold State.isolatedFor State.isolatedFrom
    rw [page_port (by decide +kernel) (by decide +kernel)]
    decide +kernel
theorem test_hyp_MgeRoom (h : 0 < Config.etx.toNat) : let s := { tHear with dict := { DictState.reset with mgeWait := [(.udp 0 0 0, [1])] } }
    s.dict.mgeWait = (.udp 0 0 0, [1]) :: [] ∧ s.mgeRoom (frameBytes (.udp 0 0 0, [1])) = true := ⟨rfl, room_of h rfl (by decide)⟩

-- Seam messages and the fabric

/-- The router on, with rings of two and of 4,096 entries at 0x1000 and 0x300000. -/
def tSrt (ra : Router) (r : Table Word := []) : State :=
  { tOn (r ++ [(srt 8, 0x80400000), (srt 0x30, 0x1000), (srt 0x34, 0x11000), (srt 0x38, 0x300000), (srt 0x3c, 0xc000)]) with router := ra }
/-- A message from device 0 to device d with its first 8 of 8 bytes. -/
def tMsg (d : BitVec 16) (ttl : BitVec 16) : SeamMsg := ⟨d, 0, 0, 0, 0, 8, ttl, 0, 0, List.replicate 8 1⟩
/-- An entry sent well and badly formed; a head with hops left, without, and without a route; deliveries first, full, again and off; the answers to the oldest; resends at their bound; flips and edges. -/
theorem test_hyp_SeamMessages : let s := tSrt .reset
    let good := { s with mem := [(0x1000, 1), (0x1002, 240), (0x1003, 1)] }
    let m := tMsg 1 1
    let head (m : SeamMsg) := { s with router := { Router.reset with inject := [m] } }
    let dead := { head m with creg := (srt 0x28, 0xf000000) :: s.creg }
    let full := tSrt .reset [(srt 0x38, 0x300000), (srt 0x3c, 0x1000 + 0x10000)]
    let again (e : BitVec 16) := { s with router := { Router.reset with pair := [(0, ⟨some (e, 0), 0⟩)] } }
    let st (k : Nat) := { s with router := { Router.reset with store := [(tMsg 0 1, k)] } }
    let up := { s with halves := [(2, { Half.reset with link := .up })] }
    let edge (m : SeamMsg) := { s with halves := [(0, { Half.reset with link := .up, rxM0 := msgFlits m })] }
    let mine : SeamMsg := { tMsg (BitVec.ofNat 16 s.ownAddr) 1 with src := 3 }
    let held (n : Nat) (s : State) := { s with router := { s.router with held := List.replicate n (tMsg 0 1) } }
    let stood := { full with halves := (edge mine).halves }
    ((edge m).bit (srt 0x28) 28 = false ∧ (msgFlits m).isPrefixOf ((edge m).half 0 0).rxM0 = true ∧ (msgFlits m).isPrefixOf ((edge m).half 0 0).rxM1 = false ∧
      (edge m).outEdge m = some 1 ∧ mine.dest.toNat = s.ownAddr ∧ (msgFlits mine).isPrefixOf (stood.half 0 0).rxM0 = true ∧ stood.holds mine = true ∧
      (msgFlits m).isPrefixOf (s.half 0 0).rxM0 = false ∧ (s.half 0 0).rxM0 = (s.half 0 0).rxM1) ∧
    ((∃ y, y ∈ (held 1 s).router.held ∧ y.src = m.src) ∧ (held 7 s).router.held.length < 8 ∧ ¬ (held 8 s).router.held.length < 8 ∧ ¬ ∃ y, y ∈ s.router.held ∧ y.src = m.src) ∧
    (SoundAt routerPort (s.ringBase 0x30 + s.txHead * 512) 512 s ∧ SoundAt routerPort (good.ringBase 0x30 + good.txHead * 512) 512 good ∧ SoundAt routerPort (s.ringBase 0x38 + s.rxTail * 512) (16 + m.data.length) s) ∧
      s.srtOn = true ∧ (tOn []).srtOn = false ∧ s.ringLog 0x30 ≠ 0 ∧ s.txHead ≠ s.txTail % s.ringLen 0x30 ∧ s.router.store.length < 256 ∧ good.txOk (good.bytes (good.ringBase 0x30 + good.txHead * 512) 512) = true ∧
      s.txOk (s.bytes (s.ringBase 0x30 + s.txHead * 512) 512) = false ∧ (head m).router.inject.head? = some m ∧ (head m).bit (srt 0x28) 28 = false ∧ m.dest.toNat ≠ s.ownAddr ∧
      (head m).outEdge m = some 1 ∧ (tMsg 0x8000 1).dest.toNat ≠ s.ownAddr ∧ (head (tMsg 0x8000 1)).outEdge (tMsg 0x8000 1) = some 2 ∧ m.ttl ≠ 0 ∧ (tMsg 1 0).ttl = 0 ∧ (head (tMsg 1 0)).outEdge (tMsg 1 0) = some 1 ∧
      dead.router.inject.head? = some m ∧ dead.outEdge m = none ∧ dead.bit (srt 0x28) 28 = false ∧ m.mt = 0 ∧ s.ringLog 0x38 ≠ 0 ∧ m.data.length = m.len.toNat ∧ (s.pair m.src.toNat).recv = none ∧
      s.rxFull = false ∧ full.srtOn = true ∧ full.ringLog 0x38 ≠ 0 ∧ full.rxFull = true ∧ ((again 1).pair 0).recv = some (1, m.epoch) ∧ 1 ≤ ((1 : BitVec 16) - m.eseq).toNat ∧
      ((again 32768).pair 0).recv = some (32768, m.epoch) ∧ ((32768 : BitVec 16) - m.eseq).toNat ≤ 32768 ∧ (st 0).router.store = [] ++ (tMsg 0 1, 0) :: [] ∧ (tMsg 0 1).dest = m.src ∧ m.st = 0 ∧
      (∀ y ∈ (st 3).router.store, y.1.dest = 0 → y.2 < 4) ∧ (st 4).router.store = [(tMsg 0 1, 4)] ∧ (∀ y ∈ (st 4).router.store, y.1.dest ≠ (7 : BitVec 16)) ∧
      (tSrt .reset [(srt 0x28, 0x10000000)]).bit (srt 0x28) 28 = true ∧ s.bit (srt 0x28) 28 = false ∧ s.blocker ⟨6, s.diffEdges.headD 64, s.diffEdges.tail, 0⟩ = none ∧ (up.half 1 0).link = .up ∧
      (s.half 1 0).link ≠ .up ∧ s.router.held = [] ∧ ({ m with data := [] }).data.length < m.len.toNat ∧ s.errq = none ∧
      ({ s with acts := [act 6 0 0] }).blocker ⟨6, s.diffEdges.headD 64, s.diffEdges.tail, 0⟩ = some (act 6 0 0) := by
  refine ⟨?_, ⟨⟨tMsg 0 1, List.Mem.head _, ?_⟩, ?_, ?_, fun ⟨y, hy, _⟩ => (by cases hy)⟩, ⟨at_of ?_ ?_, at_of ?_ ?_, at_of ?_ ?_⟩, ?_⟩ <;> decide +kernel

/-- The fabric as f leaves it. -/
def tFab (f : FabState) (r : Table Word := []) : State := { tOn r with fab := f }
/-- Loads out of range, waiting, and with domain F OFF; a misaligned image; each phase of a region and of a full load; scrubbing, the flash and windows in each answer. -/
theorem test_hyp_FabricControl : let s := tFab .reset
    let l : FabLoad := ⟨0, 15, none, false⟩
    let lf : FabLoad := ⟨0, 0xFFFF, none, false⟩
    let busy := tFab { FabState.reset with cur := some l }
    let off := tFab .reset [(pw (0x300 + 8 * 30), 3)]
    let ph (l : FabLoad) (k : Nat) := tFab { FabState.reset with cur := some l, phase := (List.range 16).map (fun g => (g, k)) }
    let win (k : Nat) := tFab { FabState.reset with winmap := [(0, 0x8000000000000000)], phase := [(0, k)] } [(fb 0x20, 0x30000)]
    16 ≤ (16 : BitVec 16).toNat ∧ (16 : BitVec 16) ≠ 0xFFFF ∧ (15 : BitVec 16).toNat < 16 ∧ s.domUp 30 = true ∧ busy.domUp 30 = true ∧ busy.fab.cur ≠ none ∧ off.dom 30 = 3 ∧ off.heldOff 30 = false ∧
      s.fab.cur = none ∧ s.fab.waiting = [] ∧ (BitVec.ofNat 64 ((tFab .reset [(fb 0x10, 1)]).r64 (fb 0x10))).toNat % 64 ≠ 0 ∧ (ph l 1).inPhase (some 15) 1 = some l ∧ s.inPhase none 1 = none ∧
      (ph lf 1).inPhase none 1 = some lf ∧ (ph l 2).inPhase (some 15) 2 = some l ∧ (ph lf 3).inPhase none 3 = some lf ∧ (ph l 3).inPhase (some 15) 3 = some l ∧ l.job = none ∧
      (tFab .reset [(fb 0, 2)]).bit (fb 0) 1 = true ∧ twf (konst Frame512.zero) s.fab.frames = true ∧ (∀ e ∈ s.fab.frames, e.2.flaw ≠ .uncorrectable) ∧ ((ph l 2).portRegion 0 = 255 ∧ (tPort 0 (ph l 2)).portRegion 0 = 0) ∧ (tFab .reset [(fb 0, 0)]).bit (fb 0) 1 = false ∧
      (ph l 2).designRuns = true ∧ s.designRuns = false ∧ (win 3).winStatus 0 = none ∧ (win 3).winStatus 0xffff = none ∧ (win 3).winStatus 0x10000 = some .unmapped ∧ (win 2).winStatus 0 = some .notReady := by decide +kernel

/-- Every codeword decodes, without a correction, to a frame that selects and drives nothing wrong, in columns that read back right; the FIO banks have a supply. -/
def tFrames : Prop := ∃ z, (∀ l, Config.frameDecode l = some (z, 0)) ∧ (∀ a m, Config.selectsOk a m z = true) ∧ Config.ioCells z = [] ∧
  (∀ n b, (supplyLevel (Config.bankSupply n b)).isSome = true) ∧ ∀ n a c, Config.readBack n a c = false
/-- The records from address a on carry the frame addresses of a list. -/
def tRecords (s : State) : List Nat → Nat → Prop
  | [], _ => True
  | x :: xs, a => ofBytes ((s.bytes a 72).take 4) = x ∧ tRecords s xs (a + 72)
/-- Memory, the rings, the fabric's faulty columns and the registers below its page are those of s0, whose rings carry no packet. -/
structure FabOnly (s0 s : State) : Prop where
  mem : s.mem = s0.mem
  lineErr : s.lineErr = s0.lineErr
  memStacks : s.memStacks = s0.memStacks
  dirBusy : s.dirBusy = s0.dirBusy
  packets : s.packets = s0.packets ∧ s0.packets = []
  acts : s.acts = s0.acts
  routes : s.routes = s0.routes
  routeBank : s.routeBank = s0.routeBank
  dir : s.dir = s0.dir
  low : ∀ a, a < 0x480000 → s.r32 a = s0.r32 a
  faulty : s.fab.faulty = s0.fab.faulty
theorem FabOnly.rfl {s : State} (h : s.packets = []) : FabOnly s s := ⟨Eq.refl _, Eq.refl _, Eq.refl _, Eq.refl _, ⟨Eq.refl _, h⟩, Eq.refl _, Eq.refl _, Eq.refl _, Eq.refl _, fun _ _ => Eq.refl _, Eq.refl _⟩
theorem r32_setR32 (s : State) {a b : Nat} (h : b ≠ a) (v : Nat) : (s.setR32 a v).r32 b = s.r32 b := by
  unfold State.r32 State.setR32
  rw [tget_tset_other _ _ _ _ _ h]
/-- A write of a register of the fabric's page leaves it so. -/
theorem FabOnly.setR32 {s0 s : State} (h : FabOnly s0 s) (a v : Nat) (ha : 0x480000 ≤ a := by decide) : FabOnly s0 (s.setR32 a v) :=
  ⟨h.mem, h.lineErr, h.memStacks, h.dirBusy, h.packets, h.acts, h.routes, h.routeBank, h.dir, fun b hb => (r32_setR32 s (by omega) v).trans (h.low b hb), h.faulty⟩
theorem FabOnly.setF {s0 s : State} (h : FabOnly s0 s) (a lo len v : Nat) (ha : 0x480000 ≤ a := by decide) : FabOnly s0 (s.setF a lo len v) := by
  unfold State.setF
  split
  · exact h.setR32 a _ ha
  · exact (h.setR32 a _ ha).setR32 (a + 4) _ (by omega)
theorem FabOnly.modFab {s0 s : State} (h : FabOnly s0 s) (f : FabState → FabState) (hf : (f s.fab).faulty = s.fab.faulty := by rfl) : FabOnly s0 (s.modFab f) :=
  ⟨h.mem, h.lineErr, h.memStacks, h.dirBusy, h.packets, h.acts, h.routes, h.routeBank, h.dir, h.low, hf.trans h.faulty⟩
theorem FabOnly.fld {s0 s : State} (h : FabOnly s0 s) {a : Nat} (ha : a + 4 < 0x480000) (lo len : Nat) : s.fld a lo len = s0.fld a lo len := by
  unfold State.fld State.r64; rw [h.low a (by omega), h.low (a + 4) ha]
theorem FabOnly.bit {s0 s : State} (h : FabOnly s0 s) {a : Nat} (ha : a + 4 < 0x480000) (k : Nat) : s.bit a k = s0.bit a k := by unfold State.bit; rw [h.fld ha]
theorem FabOnly.cutting {s0 s : State} (h : FabOnly s0 s) (n : Nat) : s.cutting n = s0.cutting n := by unfold State.cutting; rw [h.acts]
theorem FabOnly.noRoute {s0 s : State} (h : FabOnly s0 s) {n : Nat} (hn : n < 4) (src dest : Nat) : s.noRoute n src dest = s0.noRoute n src dest := by
  have hs : s.segOut n = s0.segOut n := by
    funext ring seg
    unfold State.segOut
    rw [h.bit (by simp only [cr]; omega), h.cutting]
  have hr : s.routeOf n src dest = s0.routeOf n src dest := by unfold State.routeOf State.stopBank State.route; rw [h.routeBank, h.routes]
  unfold State.noRoute State.unreachable State.crosses
  rw [hr, hs]
theorem FabOnly.reach {s0 s : State} (h : FabOnly s0 s) : tAt (8, 0) s = tAt (8, 0) s0 := by
  have hk : ∀ k, k ∈ List.range 32 → s.bit (cr 0x41 (0x40 * k)) 31 = s0.bit (cr 0x41 (0x40 * k)) 31 := fun k hk => h.bit (by have := List.mem_range.mp hk; simp only [cr]; omega) 31
  have hp : s.probing = s0.probing := by
    unfold State.probing
    rw [Bool.eq_iff_iff, List.any_eq_true, List.any_eq_true]
    exact ⟨fun ⟨k, m, e⟩ => ⟨k, m, (hk k m).symm.trans e⟩, fun ⟨k, m, e⟩ => ⟨k, m, (hk k m).trans e⟩⟩
  have hb : ∀ d, s.bucket 8 d = s0.bucket 8 d := by
    intro d; unfold State.bucket; cases d <;> simp only [h.fld (show cr 0x40 (0x200 + 8 * 8) + 4 < 0x480000 by decide)]
  have hi : s.isolated 1 1 = s0.isolated 1 1 := h.bit (by decide) 1
  have hd : s.dom 21 = s0.dom 21 := h.fld (by decide) 0 3
  have hr : ((List.range 4).all fun n => s.r64 (cr 0x40 (0x40 + 8 * n)) == 0) = (List.range 4).all fun n => s0.r64 (cr 0x40 (0x40 + 8 * n)) == 0 := by
    have hn : ∀ n, n ∈ List.range 4 → s.r64 (cr 0x40 (0x40 + 8 * n)) = s0.r64 (cr 0x40 (0x40 + 8 * n)) := fun n hn => by
      have hc : cr 0x40 (0x40 + 8 * n) + 4 < 0x480000 := by have := List.mem_range.mp hn; simp only [cr]; omega
      unfold State.r64; rw [h.low _ (by omega), h.low _ hc]
    rw [Bool.eq_iff_iff, List.all_eq_true, List.all_eq_true]
    exact ⟨fun x n m => hn n m ▸ x n m, fun x n m => (hn n m).symm ▸ x n m⟩
  simp only [tAt, tQuiet, h.lineErr, h.memStacks, h.packets.1, h.dirBusy, h.acts, h.routes, h.dir, hp, hb, hi, hd, hr, h.noRoute (n := 0) (by decide)]
/-- The loader reads there what s0 holds. -/
theorem FabOnly.read {s0 s : State} (h : FabOnly s0 s) (hs : tAt (8, 0) s0 = true) {a n : Nat} (ha : a + n < 0x400000000) : memRead (8, 0) .fabric a n s = (.ok, s0.bytes a n, s) := by
  rw [memRead_sound (at_of ha (h.reach.trans hs))]
  simp only [State.bytes, State.byte, h.mem]
/-- One such record loads. -/
theorem loadFrame_ok (h : tFrames) {s0 s : State} (hs : FabOnly s0 s) (x : Nat) (b : List Byte) (hx : ofBytes (b.take 4) = x) :
    ∃ u, loadFrame x b true s = .ok u ∧ FabOnly s0 u ∧ u.failsAt x = none := by
  obtain ⟨z, hd, hsel, hio, hsup, hrb⟩ := h
  have hbad : ioBad (faRegion x) z s = false := by
    obtain ⟨l, hl⟩ := Option.isSome_iff_exists.mp (hsup s.free (faRegion x / 8))
    unfold ioBad State.bankLevel; rw [hl, hio]; rfl
  have hover : ioOver z = false := by unfold ioOver; rw [hio]; rfl
  refine ⟨writeFrame x z s, ?_, hs.modFab _ (by dsimp only; split <;> rfl), ?_⟩
  · unfold loadFrame
    simp only [hd, Option.filter_some, Nat.zero_le, decide_true, if_true, hx, hsel, hbad, hover, ne_eq, not_true_eq_false, if_false, Bool.false_eq_true, and_false]
  · simp [State.failsAt, hrb]
/-- Such records load. -/
theorem loadFrames_ok (h : tFrames) {s0 : State} (h0 : tAt (8, 0) s0 = true) (hq : s0.fab.faulty = []) (all : List Nat) (base : Nat) : ∀ (fuel : Nat) (l : List Nat) (i : Nat) (s : State), FabOnly s0 s →
    base + 72 * (i + l.length) < 0x400000000 → tRecords s0 l (base + 72 * i) → ∃ t, loadFrames none all base fuel l i s = .ok t ∧ FabOnly s0 t
  | 0, _, _, s, hs, _, _ => ⟨s, rfl, hs⟩
  | _ + 1, [], _, s, hs, _, _ => ⟨s, rfl, hs⟩
  | n + 1, x :: xs, i, s, hs, hl, hr => by
    have hl2 : base + 72 * (i + 1 + xs.length) < 0x400000000 := by simp only [List.length_cons] at hl; omega
    obtain ⟨u, hu, hs', hf⟩ := loadFrame_ok h hs x (s0.bytes (base + 72 * i) 72) hr.1
    obtain ⟨t, ht, h1⟩ := loadFrames_ok h h0 hq all base n xs (i + 1) u hs' hl2 (by have := hr.2; rwa [show base + 72 * i + 72 = base + 72 * (i + 1) by omega] at this)
    refine ⟨t, ?_, h1⟩
    have hk : s.noSpare x = false := by simp [State.noSpare, State.faultyCols, hs.faulty, hq, tget, konst] <;> (intro _; decide)
    unfold loadFrames
    simp only [hk, Bool.and_false, Bool.false_eq_true, hs.read h0 (show base + 72 * i + 72 < 0x400000000 by omega), hu, hf, ht, ne_eq, not_true_eq_false, if_false, if_true]
theorem flatMap_bound {f : Nat → List Nat} {k : Nat} (h : ∀ a, (f a).length ≤ k) : ∀ l : List Nat, (l.flatMap f).length ≤ k * l.length
  | [] => Nat.zero_le _
  | a :: l => by
    have h1 := h a
    have h2 := flatMap_bound h l
    simp only [List.flatMap_cons, List.length_append, List.length_cons, Nat.mul_add]
    omega
theorem fullFrames_length : fullFrames.length < 200000 := by
  have h1 := flatMap_bound (f := fun r => (regionFrames r).take 9216) (fun a => List.length_take_le 9216 _) (List.range 16)
  have h2 := flatMap_bound (f := fun r => ((regionFrames r).drop 9216).take 592) (fun a => List.length_take_le 592 _) (List.range 16)
  simp only [List.length_range] at h1 h2
  simp only [fullFrames, List.length_append, List.length_map, List.length_range]
  omega
theorem each_keeps {α : Type} {p : State → Prop} {f : α → State → State} (hf : ∀ a s, p s → p (f a s)) : ∀ (l : List α) (s : State), p s → p (each l f s)
  | [], _, h => h
  | a :: l, s, h => each_keeps hf l (f a s) (hf a s h)
theorem closePorts_calm {s0 s : State} (h : FabOnly s0 s) (r : Nat) : FabOnly s0 (closePorts r s) := by
  have hc : ∀ c st x, FabOnly s0 x → FabOnly s0 (setCop c st x) := by
    intro c st x hx
    unfold setCop
    split
    · split
      · exact hx
      · exact ⟨hx.mem, hx.lineErr, hx.memStacks, hx.dirBusy, hx.packets, hx.acts, hx.routes, hx.routeBank, hx.dir, hx.low, hx.faulty⟩
    · exact hx
  have h1 : FabOnly s0 (each ((List.range 6).filter (fun k => s.portRegion k == r)) (fun k s => setCop k .dropped (s.setMicro k MicroPort.none)) s) :=
    each_keeps (f := fun k s => setCop k .dropped (s.setMicro k MicroPort.none)) (p := FabOnly s0) (fun k x hx => hc k _ _ (hx.modFab (fun f => { f with micro := tset (konst MicroPort.none) f.micro k MicroPort.none }))) _ _ h
  unfold closePorts
  generalize each ((List.range 6).filter (fun k => s.portRegion k == r)) (fun k s => setCop k .dropped (s.setMicro k MicroPort.none)) s = s1 at h1 ⊢
  have hp : s1.packets = [] := h1.packets.1.trans h1.packets.2
  have h2 : each (s1.packets.filter (s1.passed r)) (fun p s => answer p .notReady p.zeros s) s1 = s1 := by rw [hp]; rfl
  simp only [h2]
  unfold when
  split
  · exact ⟨h1.mem, h1.lineErr, h1.memStacks, h1.dirBusy, ⟨by simp [hp, h1.packets.2], h1.packets.2⟩, h1.acts, h1.routes, h1.routeBank, h1.dir, h1.low, h1.faulty⟩
  · exact h1
theorem entering_calm {s0 s : State} (h : FabOnly s0 s) : FabOnly s0 (enterLoading 0xFFFF s) := by
  have h1 : FabOnly s0 (each (loadRegions 0xFFFF) (fun r s => setRegion r 1 0 (closePorts r s)) s) :=
    each_keeps (p := FabOnly s0) (f := fun r s => setRegion r 1 0 (closePorts r s)) (fun r s hs => ((closePorts_calm hs r).setF (fb 0x28) (2 * r) 2 1).modFab _) _ _ h
  unfold enterLoading
  rw [if_pos rfl]
  generalize each (loadRegions 0xFFFF) (fun r s => setRegion r 1 0 (closePorts r s)) s = s1 at h1 ⊢
  have h2 : FabOnly s0 (setFabState 1 s1) := h1.setF (fb 0x20) 16 3 1
  generalize setFabState 1 s1 = s2 at h2 ⊢
  exact h2.modFab _
/-- The frames of a full image at 0 whose header is right load, where they are sound; its CRC is then that of its bytes, right or wrong. -/
theorem test_hyp_FullImage (h : tFrames) (m : Mem) (hh : headerOk (State.bytes { tOn [] with mem := m } 0 256) 0xFFFF none = true) (hr : tRecords { tOn [] with mem := m } fullFrames 256) :
    let s : State := { tOn [] with mem := m }
    let read := memRead (8, 0) .fabric 0 256 (enterLoading 0xFFFF (s.modFab (fun f => { f with cur := some ⟨0, 0xFFFF, none, false⟩ })))
    BitVec.ofNat 64 (s.r64 (fb 0x10)) = 0 ∧ s.domUp 30 = true ∧ s.fab.cur = none ∧ s.fab.waiting = [] ∧ read.1 = .ok ∧ headerOk read.2.1 0xFFFF none = true ∧
      ∃ s4, loadFrames none fullFrames 256 (loadFuel fullFrames) fullFrames 0 (read.2.2.setR32 (fb 0x50) (hf read.2.1 0xC 2)) = .ok s4 ∧
        (memRead (8, 0) .fabric 256 (72 * hf read.2.1 8 4) s4).2.1 = s.bytes 256 (72 * hf read.2.1 8 4) := by
  intro s read
  have ha : tAt (8, 0) s = true := show tAt (8, 0) (tOn []) = true by decide +kernel
  have hk : FabOnly s (enterLoading 0xFFFF (s.modFab (fun f => { f with cur := some ⟨0, 0xFFFF, none, false⟩ }))) := entering_calm ((FabOnly.rfl rfl).modFab _ (by exact Eq.refl _))
  have hn : hf (s.bytes 0 256) 8 4 = 157008 := by
    simp only [headerOk, Bool.and_eq_true, beq_iff_eq] at hh
    exact hh.1.1.1.1.1.1.2
  have e : read = (.ok, s.bytes 0 256, enterLoading 0xFFFF (s.modFab (fun f => { f with cur := some ⟨0, 0xFFFF, none, false⟩ }))) := hk.read ha (by decide)
  clear_value read
  subst e
  obtain ⟨t, ht, h1⟩ := loadFrames_ok h ha rfl fullFrames 256 (loadFuel fullFrames) fullFrames 0 _ (hk.setR32 (fb 0x50) (hf (s.bytes 0 256) 0xC 2)) (by have := fullFrames_length; omega) hr
  refine ⟨show BitVec.ofNat 64 ((tOn []).r64 (fb 0x10)) = 0 by decide +kernel, show (tOn []).domUp 30 = true by decide +kernel, rfl, rfl, rfl, hh, t, ht, ?_⟩
  dsimp only
  rw [h1.read ha (by rw [hn]; omega)]
/-- The first frame of a full image at 0 does not decode. -/
theorem test_hyp_FullImageWrong (h : ∀ l, Config.frameDecode l = none) (m : Mem) : let s : State := { tOn [] with mem := m }
    let read := memRead (8, 0) .fabric 0 256 (enterLoading 0xFFFF (s.modFab (fun f => { f with cur := some ⟨0, 0xFFFF, none, false⟩ })))
    read.1 = .ok ∧ ∃ x s4, loadFrames none fullFrames 256 (loadFuel fullFrames) fullFrames 0 (read.2.2.setR32 (fb 0x50) (hf read.2.1 0xC 2)) = .error (4, 0, x, s4) := by
  intro s read
  have ha : tAt (8, 0) s = true := show tAt (8, 0) (tOn []) = true by decide +kernel
  have hk : FabOnly s (enterLoading 0xFFFF (s.modFab (fun f => { f with cur := some ⟨0, 0xFFFF, none, false⟩ }))) := entering_calm ((FabOnly.rfl rfl).modFab _ (by exact Eq.refl _))
  have e : read = (.ok, s.bytes 0 256, enterLoading 0xFFFF (s.modFab (fun f => { f with cur := some ⟨0, 0xFFFF, none, false⟩ }))) := hk.read ha (by decide)
  clear_value read
  subst e
  have hs := hk.setR32 (fb 0x50) (hf (s.bytes 0 256) 0xC 2)
  refine ⟨rfl, ?_⟩
  dsimp only
  generalize State.setR32 _ (fb 0x50) _ = u at hs ⊢
  cases hl : fullFrames with
  | nil => simp [fullFrames] at hl
  | cons x xs =>
    have hq : u.noSpare x = false := by simp [State.noSpare, State.faultyCols, hs.faulty, show s.fab.faulty = [] from rfl, tget, konst] <;> (intro _; decide)
    refine ⟨x, u, ?_⟩
    unfold loadFuel loadFrames
    simp only [hs.read ha (show 256 + 72 * 0 + 72 < 0x400000000 by decide), hq, loadFrame, h]
    rfl
/-- The loader's first read of an image that lies nowhere, at an address that decodes to nothing. -/
theorem test_hyp_NoImage : let s := tFab .reset [(fb 0x14, 0x20)]
    BitVec.ofNat 64 (s.r64 (fb 0x10)) = 0x2000000000 ∧ (0x2000000000 : Nat) % 64 = 0 ∧ s.domUp 30 = true ∧ s.fab.cur = none ∧ s.fab.waiting = [] ∧
      ∀ t : State, (memRead (8, 0) .fabric 0x2000000000 256 t).1 ≠ .ok := by
  refine ⟨by decide +kernel, by decide, by decide +kernel, rfl, rfl, fun t => ?_⟩
  have h := stagingEnd_le
  unfold memRead
  rw [if_pos (show stagingEnd < 0x2000000000 + 256 by omega)]
  exact (by decide : RStat.unmapped ≠ RStat.ok)

/-- A design that runs, and none, with no command waiting. -/
theorem test_hyp_HardBlocks : let run := tFab { FabState.reset with phase := [(0, 4)] } [(fb 0x20, 0x30000)]
    run.pending = [] ∧ run.dict.tasks = [] ∧ run.designRuns = true ∧ (tFab .reset).dict.tasks = [] ∧ (tFab .reset).pending = [] ∧ (tFab .reset).designRuns = false ∧ (HardBlocks.cleared.uartOf 1).tx.length < 64 := by decide +kernel
/-- An I²C block that is a controller, and a target that is and is not addressed; a flip-flop and a RAM of a region that does not run. -/
theorem test_hyp_HardBuses : let tg : I2cPort := { HardBlocks.cleared.i2cOf 0 with mode := { (HardBlocks.cleared.i2cOf 0).mode with target := true, ten := false }, own := 0x50 }
    let run := tFab { FabState.reset with phase := [(0, 4)] } [(fb 0x20, 0x30000)]
    (HardBlocks.cleared.i2cOf 0).mode.target = false ∧ (tg.mode.target = true ∧ i2cAddr tg.mode 0x3d0 = tg.own) ∧ ¬ (tg.mode.target = false ∨ i2cAddr tg.mode 0x51 = tg.own) ∧
      run.phase (384 / 384) < 2 ∧ run.phase (16 / 16) < 2 ∧ (∀ k : Fin 2, (HardBlocks.cleared.uartOf k).mode.rate ≤ 12500000 ∧ (HardBlocks.cleared.spiOf k).mode.rate ≤ 50000000) := by decide +kernel
/-- A window request that the design has not answered. -/
theorem test_hyp_WindowRequests : let p (op : RingOp) : Packet := { tPkt op with tag := 0, ref := 0, dstop := 8, dport := 0, addr := 0x4400000008, stage := .served }
    let s (op : RingOp) := tSent [p op]
    (∀ op ∈ [RingOp.rd .b8, .wr .b8 3], (s op).asked (.core 0) 8 op = some (p op) ∧ (s op).packet (p op).tag = some (p op) ∧ Returns (p op) (s op) ∧ (∀ x ∈ (s op).packets, x.tag < (s op).nextTag) ∧ tStill (s op) = true ∧
      (tOn []).asked (.core 0) 8 op = none) := by
  unfold Returns; decide +kernel

-- The host and its jobs

/-- Queue 0 as k and queue 1 as c, function 0 with a window over the first 64 KiB of its memory that grants both rights. -/
def tHost (k c : Queue) (r : Table Word := []) : State :=
  { tOn r with host := { HostState.reset with queues := [(0, k), (1, c)], fns := [(0, { Fn.reset with winBase := [(0, 0)], winCtl := [(0, 0xe000000000010000)] })] } }
/-- A queue of function 0 with 16 entries, of a type, naming completion queue 1. -/
def tQueue (type : Nat) (st : QState) : Queue := { Queue.reset with owner := some 0, ctx := BitVec.ofNat 64 (4 * 2 ^ 58 + type * 2 ^ 56 + 1), state := st, ph := true }
/-- A descriptor. -/
def tDesc (fs : List (Nat × Nat)) : List Byte := toBytes 64 (fs.foldl (fun n f => n + f.2 * 2 ^ (8 * f.1)) 0)
/-- A job that waits, and one that has started. -/
def tWaits (b : List Byte) : Job := ⟨b, none, none, 0⟩
@[inherit_doc tWaits] def tStarts (b : List Byte) : Job := ⟨b, some 0, none, 0⟩
/-- Doorbells at the bounds of the ring and in BOOT; fetches of the last descriptor; a queue in each state; room and none; coalescing due; the pages of functions. -/
theorem test_hyp_HostQueues : let s := tHost (tQueue 1 .enabled) (tQueue 2 .enabled)
    let j : Job := tWaits (tDesc [(0, 7)])
    let x := tHost { tQueue 1 .enabled with tail := 1 } (tQueue 2 .enabled)
    let xm := { x with host := { x.host with mem := [(0, 7)] } }
    let far := tHost { tQueue 1 .enabled with tail := 1, base := 0x20000 } (tQueue 2 .enabled)
    let st (k : Queue) := tHost k (tQueue 2 .enabled)
    let named := tHost { tQueue 2 .enabled with head := 0 } { tQueue 1 .enabled with ctx := BitVec.ofNat 64 (4 * 2 ^ 58 + 2 ^ 56) }
    let w (q : QState) : State := { tHost (tQueue 1 .enabled) (tQueue 2 q) with host := { (tHost (tQueue 1 .enabled) (tQueue 2 q)).host with waiting := [(0, 0, List.replicate 60 0)] } }
    let due (f : Fn) := { tHost { tQueue 2 .enabled with unsig := 1 } (tQueue 2 .enabled) with host := { HostState.reset with queues := [(0, { tQueue 2 .enabled with unsig := 1 })], fns := [(0, f)] } }
    let lostEv := tHost (tQueue 1 .enabled) { tQueue 3 .enabled with lost := 1 }
    let vf := { s with host := { s.host with queues := [] } }
    (s.hostUp = true ∧ (s.queue 0).state = .enabled ∧ (s.queue 0).owner = some 0 ∧ stReady ≤ s.devState ∧
      ¬ stReady ≤ (tHost (tQueue 1 .enabled) (tQueue 2 .enabled) [(cr 0 0x18, 2)]).devState ∧ 15 < (s.queue 0).len ∧ (s.queue 0).len ≤ 16 ∧ (s.queue 0).type = 1 ∧
      (s.queue 1).type ≠ 1 ∧ (s.queue 2).owner ≠ some 0 ∧ xm.hostUp = true ∧ (xm.queue 0).head ≠ (xm.queue 0).tail ∧ (xm.queue 0).jobs = [] ∧
      BitVec.ofNat 16 (((xm.queue 0).head.toNat + 1) % (xm.queue 0).len) = (xm.queue 0).tail) ∧
    (xm.window 0 ((xm.queue 0).entry (xm.queue 0).head.toNat) 64 false = true ∧ j = tWaits (xm.hostBytes 0 ((xm.queue 0).entry (xm.queue 0).head.toNat) 64) ∧ 1 ≤ j.op ∧
      j.op ≤ 7 ∧ far.window 0 ((far.queue 0).entry (far.queue 0).head.toNat) 64 false = false ∧ (st (tQueue 1 .disabled)).selQueue 0 = some 0 ∧
      ((st (tQueue 1 .disabled)).queue 0).state = .disabled ∧
      ((st (tQueue 1 .disabled)).setQueue 0 (tQueue 1 .disabled)).enableErr ((st (tQueue 1 .disabled)).acting 0) (tQueue 1 .disabled) = 0 ∧
      (s.setQueue 0 { tQueue 1 .disabled with ctx := 0 }).enableErr (s.acting 0) { tQueue 1 .disabled with ctx := 0 } ≠ 0 ∧ s.selQueue 0 = some 0 ∧
      (tHost Queue.reset Queue.reset).selQueue 0 = none ∧ ((st (tQueue 1 .error)).queue 0).state = .error ∧ (named.queue 0).type = 2 ∧ named.named 0 = true) ∧
    (((st (tQueue 1 .draining)).queue 0).state = .draining ∧ ((st (tQueue 1 .draining)).queue 0).jobs = [] ∧ (∀ y ∈ s.host.waiting, y.1 ≠ 0) ∧
      ((st { tQueue 1 .draining with jobs := [j] }).queue 0).jobs ≠ [] ∧ s.isPf 0 = true ∧ s.isPf 1 = false ∧ s.portQueue (s.portOf 0) 65535 = true ∧
      s.portOf 255 = s.portOf 0 ∧ s.acting 0 = 0 ∧ bits (0x2f000800 : Word).toNat 0 12 = s.nvec 0 ∧ 0 < s.nvec 0 ∧ s.nvec 0 ≤ 2048 ∧
      (s.portFns (s.portOf 0)).foldl (fun n h => n + s.nvec h) 0 ≤ s.portVectors ∧ bits (0 : Word).toNat 0 12 = 0) ∧
    (2048 < bits (2049 : Word).toNat 0 12 ∧ Size.b2.bytes < 4 ∧ (s.bank 0).newOwner = none ∧ s.bankPwr 0 = 0 ∧ (s.bank 0).test = none ∧ s.flaw = [] ∧
      (w .enabled).host.waiting = (0, 0, List.replicate 60 0) :: [] ∧ ((w .enabled).queue 0).cq = 1 ∧ ((w .enabled).queue 1).full = false ∧
      (w .enabled).entryOk 1 = true ∧ ((w .enabled).queue 0).jobs = [] ∧ ((w .error).queue 1).state = .error ∧ 0 < (lostEv.queue 1).lost ∧ lostEv.entryOk 1 = true) ∧
    (lostEv.eventQueue 0 = some 1 ∧ (lostEv.queue 1).full = false ∧ twf (konst Queue.reset) lostEv.host.queues = true ∧ (s.fn 0).d3 = false ∧
      ((due { Fn.reset with d3 := true }).fn 0).d3 = true ∧
      (let full := tHost (tQueue 1 .enabled) { tQueue 3 .enabled with tail := 15 }; (full.queue 1).full = true ∧ (full.queue 1).state = .enabled) ∧
      0 < ((due Fn.reset).queue 0).unsig ∧ ((due Fn.reset).queue 0).first + ((due Fn.reset).queue 0).coalT * 1000 ≤ (due Fn.reset).ran ∧
      ((due { Fn.reset with msixEn := true }).fn 0).msixEn = true ∧ ((due { Fn.reset with msixEn := true }).fn 0).masked = false ∧ ((due Fn.reset).fn 0).msixEn = false ∧
      (s.queue 0).unsig = 0 ∧ vf.queuesOf 255 = []) ∧
    (vf.isPf 255 = false ∧ vf.devState ≠ stRun) := by
  refine ⟨?_, ?_, ?_, ?_, ?_, ?_⟩ <;> decide +kernel

/-- A function in D3hot with the link up; a nap; a request in BOOT. -/
theorem test_hyp_HostPower : let s := tHost (tQueue 1 .enabled) (tQueue 2 .enabled)
    let d := { s with host := { s.host with fns := [(0, { s.fn 0 with d3 := true })] } }
    let nap := { s with boot := { s.boot with nap := true } }
    let b := tHost (tQueue 1 .enabled) (tQueue 2 .enabled) [(cr 0 0x18, 2)]
    (s.hostUp = true ∧ s.boot.nap = false ∧ (s.fn 0).d3 = false) ∧ (d.hostUp = true ∧ d.boot.nap = false ∧ (d.fn 0).d3 = true) ∧ (nap.hostUp = true ∧ nap.boot.nap = true) ∧
      (b.boot.nap = false ∧ ¬ stReady ≤ b.devState) ∧ (Initiator.core 0 ≠ .mgmt ∧ (s.queue 0).state = .enabled) ∧ (1 : Nat) < 64 := by decide +kernel

/-- Job j alone in queue 0, core 0 in WFI of the management firmware. -/
def tJob (j : List Byte) (s : State) : State :=
  { s with cores := [(0, { tCore with run := .waiting .wfi })]
           host := { (tHost (tQueue 1 .enabled) (tQueue 2 .enabled)).host with queues := [(0, { tQueue 1 .enabled with jobs := [tWaits j] }), (1, tQueue 2 .enabled)] } }
/-- The same job once it runs. -/
def tRuns (j : List Byte) (s : State) : State :=
  { tJob j s with host := { (tJob j s).host with queues := [(0, { tQueue 1 .enabled with jobs := [tStarts j] }), (1, tQueue 2 .enabled)] } }
/-- The checks of `Alone` for queue 0. -/
def tAlone (j : Job) (op : Nat) (s : State) : Bool := decide (s.candidate 0 = some (0, j)) && decide ((s.queue 0).jobs = [j]) && decide (j.op = op) && decide (s.atOnce 0 0 j = none)
theorem alone_of {j : Job} {op : Nat} {s : State} (h : tAlone j op s = true) : Alone 0 j op s ∧ s.atOnce 0 0 j = none := by
  simp only [tAlone, Bool.and_eq_true, decide_eq_true_eq] at h
  exact ⟨⟨h.1.1.1, h.1.1.2, h.1.2⟩, h.2⟩
/-- RUN_PROGRAM of 4 KiB of code at 0x1000, with 4,096 rows; LOAD_PLANES and KEY_LOAD of the descriptor at 0; COPY of 65 bytes; FABRIC_LOAD. -/
def tJ1 : List Byte := tDesc [(0, 1), (8, 0x1000), (0x10, 0x1000), (0x26, 4096)]
@[inherit_doc tJ1] def tJ2 : List Byte := tDesc [(0, 2)]
@[inherit_doc tJ1] def tJ4 : List Byte := tDesc [(0, 4), (8, 7), (16, 0x2000), (24, 65)]
@[inherit_doc tJ1] def tJ5 (region : Nat) : List Byte := tDesc [(0, 5), (20, region)]
@[inherit_doc tJ1] def tJ6 : List Byte := tDesc [(0, 6)]
theorem test_hyp_Programs : let j : Job := tWaits tJ1
    let s := tJob tJ1 (tOn [])
    let i : State := { s with cores := [] }
    let p (g : Prog) := { tRuns tJ1 (tOn []) with host := { (tRuns tJ1 (tOn [])).host with progs := [(0, some g)] } }
    let g : Prog := ⟨0, 0, true, none, some (0, 0, 0, 5, 6), false⟩
    let t := { p { g with ended := none, deadline := some 5 } with ran := 5 }
    let w := p ⟨0, BitVec.ofNat 32 j.jobid, false, none, none, false⟩
    (Alone 0 j 1 s ∧ s.atOnce 0 0 j = none) ∧ (Alone 0 j 1 i ∧ i.atOnce 0 0 j = none) ∧
      ((s.prog (s.jobPart 0)).isNone = true ∧ HasTurn (s.jobPart 0) [1] (some (s.jobPart 0)) 0 s ∧ s.coreFree (s.driver (s.jobPart 0)) = true ∧
        (j.f 8 8 % 4096 = 0 ∧ 0x1000 ≤ j.f 8 8 ∧ j.f 0x24 2 + j.f 0x26 2 ≤ 4096)) ∧
      ((i.prog 0).isNone = true ∧ HasTurn 0 [1] (some 0) 0 i ∧ i.coreFree 0 = false) ∧
      (w.prog 0 = some ⟨0, BitVec.ofNat 32 (tStarts tJ1).jobid, false, none, none, false⟩ ∧ w.runningJob 0 [1] = some (0, tStarts tJ1) ∧ (w.queue 0).jobs = [tStarts tJ1] ∧ w.coreFree 0 = true) ∧
      (p g).progOf 0 = some (0, g) ∧ (p g).runningJob 0 [1] = some (0, tStarts tJ1) ∧ ((p g).queue 0).jobs = [tStarts tJ1] ∧ (p g).settled 0 = true ∧
      t.prog 0 = some { g with ended := none, deadline := some 5 } ∧ 5 ≤ t.ran ∧ ({ g with ended := none, deadline := some 5 } : Prog).taken = true ∧ ({ g with ended := none, deadline := some 5 } : Prog).stop = false ∧ (t.core (t.driver 0)).atPoint = true ∧ (t.seq (t.driver 0)).susp = false ∧
      ¬ ((tWaits (tDesc [(0, 1), (8, 0x1004)])).f 8 8 % 4096 = 0) := by
  unfold HasTurn
  exact ⟨alone_of (by decide +kernel), alone_of (by decide +kernel), by decide +kernel⟩
/-- The program's block in sound staging memory; a timeout that a stop has not met; a program that has ended; READY. -/
theorem test_hyp_ProgramBlock : let s := tJob tJ1 (tOn [])
    let g : Prog := ⟨0, 0, true, some 5000, none, false⟩
    SoundAt (sourcePort (.core (Fin.ofNat 6 (s.driver (s.jobPart 0))))) ((tWaits tJ1).f 8 8 - 4096) 4096 s ∧ s.devState = stReady ∧ g.stop = false ∧ (∀ x, g.deadline = some x → s.ran < x) ∧ s.prog 0 = none :=
  ⟨at_of (by decide +kernel) (by decide +kernel), by decide +kernel, rfl, fun x h => by cases h; decide +kernel, by decide +kernel⟩
/-- Links: a rate that trains and one that does not, port 1 in the one mode and in the other, the block in reset. -/
theorem test_hyp_Links : let two : State := { tOn [] with creg := (cr 0 0x10, 0x40) :: (tOn []).creg }
    let ext := { tOn [] with boot := { (tOn []).boot with tap := .extestTrain } }
    (tOn []).boot.tap.disturbs = false ∧ ext.boot.tap.disturbs = true ∧ linkLegal (tOn []).bif .l0 64 16 = true ∧ linkLegal (tOn []).bif .l0 10 16 = false ∧ (tOn []).bif = false ∧
      two.bif = true ∧ linkLegal two.bif .l0 64 8 = true := by decide +kernel
theorem test_hyp_ProgramRegions : let j : Job := tWaits tJ1
    (regionOk (j.f 8 8 - 4096) (j.f 0x10 4 + 4096) = true ∧ regionOk (j.f 0x18 8) (j.f 0x20 4) = true ∧ regionOk (j.f 0x28 8) (j.f 0x14 4) = true) ∧ regionOk 0x1800000000 1 = false := by
  have h1 := stagingEnd_pos
  have h2 := stagingEnd_le
  have ok {a n : Nat} (h : a + n ≤ 0x1000000000) : regionOk a n = true := by simp [regionOk]; omega
  exact ⟨⟨ok (by decide +kernel), ok (by decide +kernel), ok (by decide +kernel)⟩, by simp [regionOk]; omega⟩
/-- A fence alone in its queue ends with OK at once, with room for its entry; with nothing fetched there is no candidate. -/
theorem test_hyp_Fence : let j : Job := tWaits (tDesc [(0, 7)])
    let s := tJob j.desc (tOn [])
    s.candidate 0 = some (0, j) ∧ (s.queue 0).jobs = [j] ∧ j.op = 7 ∧ s.atOnce 0 0 j = some 0 ∧ j.cs = false ∧ s.devState ≠ stRun ∧ (s.queue 1).state ≠ .error ∧ (s.queue 1).full = false ∧
      s.host.waiting = [] ∧ s.entryOk 1 = true ∧ (tOn []).candidate 0 = none ∧ (s.queue 0).cq = 1 := by
  decide +kernel

/-- The descriptor of `tPtd`, IN, or OUT by its flags, with its one record in key window 0. -/
def tPlanes (j : List Byte) (out : Bool) (r : Table Word := []) : State :=
  let s := tJob j { tPtd with creg := r ++ (tOn []).creg }
  { s with mem := s.mem ++ (if out then [(0x33, 1)] else []), host := { s.host with fns := [(0, { Fn.reset with fcfg := some 0x8f000020 })] } }
/-- The engine of partition p reads the descriptor at 0 of memory. -/
def tReads (p : Nat) (s : State) : Bool := tLow (.engine (Fin.ofNat 4 p)) 16 0 64 s && tLow (.engine (Fin.ofNat 4 p)) 80 64 8 s
/-- What such a descriptor reads as. -/
theorem peek_of {p : Nat} {s : State} (h : tReads p s = true) (hn : bits (ofBytes (s.bytes 0 64)) (8 * 0x32) 8 = 1) :
    peekPtd p 0 s = some (readPtd (s.quads p) (ofBytes (s.bytes 0 64)) ((List.range 1).map (fun i => bits (ofBytes (s.bytes 64 8)) (64 * i) 64))) := by
  simp only [tReads, Bool.and_eq_true] at h
  have e1 := read_of h.1
  have e2 := read_of h.2
  have m1 : mapped 0 64 = true := mapped_low (by decide)
  have m2 : mapped 64 8 = true := mapped_low (by decide)
  unfold peekPtd
  generalize Initiator.engine (Fin.ofNat 4 p) = i at e1 e2 ⊢
  simp [e1, hn, m1, m2, e2]
theorem addresses_of {qs : List Nat} {t : Transfer} (h : qs.all (fun q => decide (t.cnt_ q = 0) || decide (t.base_ q + t.cnt_ q * t.stride ≤ 0x1000000000)) = true) : addressBad qs t = false := by
  refine List.any_eq_false.mpr (fun q hq => ?_)
  have h4 := List.all_eq_true.mp h q hq
  simp only [Bool.or_eq_true, decide_eq_true_eq] at h4
  rcases h4 with h | h
  · simp [h]
  · simp [mapped_low h]
theorem launches_of {p : Nat} {key : Bool} {s : State} (h : tReads p s = true) (hn : bits (ofBytes (s.bytes 0 64)) (8 * 0x32) 8 = 1)
    (hf : (s.quads p).all (fun k => !(s.stack k).failed) = true)
    (hb : (let d := ptdOf (s.quads p) (s.bytes 0 64) (s.bytes 64 8); !d.bad && (key || !keyBad s p d.t) && !d.t.fab &&
      (s.quads p).all (fun q => decide (d.t.cnt_ q = 0) || decide (d.t.base_ q + d.t.cnt_ q * d.t.stride ≤ 0x1000000000))) = true) :
    Launches p 0 key (s.bytes 0 64) (s.bytes 64 8) s := by
  simp only [tReads, Bool.and_eq_true] at h
  have e1 := read_of h.1
  have e2 := read_of h.2
  simp only [Bool.and_eq_true, Bool.not_eq_true', Bool.or_eq_true] at hb
  obtain ⟨⟨⟨h1, h2⟩, h3⟩, h4⟩ := hb
  unfold Launches
  rw [hn]
  refine ⟨fun k hk => by simpa using List.all_eq_true.mp hf k hk, mapped_low (by decide), by decide, by decide, mapped_low (by decide), ⟨s, s, e1, e2⟩, h1, addresses_of h4, fun hk => ?_, h3⟩
  rcases h2 with h | h
  · rw [hk] at h; cases h
  · exact h
/-- A partition's descriptor at 0, as it reads. -/
def tRead (s : State) : Ptd := readPtd (s.quads 0) (ofBytes (s.bytes 0 64)) ((List.range 1).map (fun i => bits (ofBytes (s.bytes 64 8)) (64 * i) 64))
/-- The state once queue 0 has begun its plane job in turn. -/
def tBegan (s : State) : State := enginesRun ((beginJob 0 0 (turned 4 0 s)).quads 0) (beginJob 0 0 (turned 4 0 s))
/-- LOAD_PLANES and STORE_PLANES with their descriptor, and with the other one; the transfer over; one that runs. -/
theorem test_hyp_PlaneJobs : let s := tPlanes tJ2 false
    let o := tPlanes (tDesc [(0, 3)]) true
    let j := tWaits tJ2
    let k := tWaits (tDesc [(0, 3)])
    (Alone 0 j 2 s ∧ s.atOnce 0 0 j = none) ∧ (Alone 0 k 3 o ∧ o.atOnce 0 0 k = none) ∧ peekPtd 0 0 (turned 4 0 s) = some (tRead s) ∧ peekPtd 0 0 (turned 4 0 o) = some (tRead o) ∧
      Launches 0 0 false ((tBegan s).bytes 0 64) ((tBegan s).bytes 64 8) (tBegan s) ∧ Launches 0 0 false ((tBegan o).bytes 0 64) ((tBegan o).bytes 64 8) (tBegan o) ∧
      HasTurn 4 [2, 3, 6] (some 0) 0 s ∧ HasTurn 4 [2, 3, 6] (some 0) 0 o ∧ s.planeFree 0 = true ∧ s.jobPart 0 = 0 ∧ j.f 8 8 = 0 ∧ (tRead s).t.out = false ∧ (tRead s).bad = false ∧
      o.planeFree 0 = true ∧ (tRead o).t.out = true ∧ (tRead o).bad = false ∧ (tRuns tJ2 (tOn [])).xfer 0 = none ∧ (tRuns tJ2 (tOn [])).runningJob 0 [2] = some (0, tStarts tJ2) ∧
      ((tRuns tJ2 (tOn [])).queue 0).jobs = [tStarts tJ2] ∧ ((tMoves (tXfer false)).xfer ((tMoves (tXfer false)).jobPart 0)).isSome = true := by
  unfold HasTurn
  refine ⟨alone_of ?_, alone_of ?_, peek_of ?_ ?_, peek_of ?_ ?_, launches_of ?_ ?_ ?_ ?_, launches_of ?_ ?_ ?_ ?_, ?_⟩ <;> decide +kernel

/-- KEY_LOAD: a descriptor that goes OUT, a key segment that ends before the map and one that holds it, no key window and one that holds the record. -/
theorem test_hyp_KeyLoad : let j := tWaits tJ6
    let seg : Table Word := [(cr 9 0x200, 0x10000000)]
    let win : Table Word := [(cr 3 0x100, 0), (cr 3 0x104, 0x80000001)]
    let s (r : Table Word) := tPlanes tJ6 false r
    let o := tPlanes tJ6 true
    let segment := fun (s : State) => (tRead s).t.map.any (fun m => decide (m.daddr.toNat < s.keyBase 0) || decide (s.keyBase 0 + s.keyLen 0 < m.daddr.toNat + m.dlen))
    let outside := fun (s : State) => ((tRead s).t.records (s.quads 0)).any (fun r => !s.inOneWindow r.1 r.2)
    let keyIn := fun (s : State) => (turned 4 0 s).modHost (fun h => { h with keyZero := tset (konst []) h.keyZero 0 (if j.f 16 1 = 1 then (tRead s).t.records (s.quads 0) else []) })
    let began := fun (s : State) => enginesRun ((beginJob 0 0 s).quads 0) (beginJob 0 0 s)
    let good := began (keyIn (s (seg ++ win)))
    (∀ r ∈ [seg ++ win, seg, win], (Alone 0 j 6 (s r) ∧ (s r).atOnce 0 0 j = none)) ∧
      (peekPtd 0 0 (turned 4 0 (s (seg ++ win))) = some (tRead (s (seg ++ win))) ∧ peekPtd 0 0 (turned 4 0 o) = some (tRead o)) ∧
      (addressBad ((s (seg ++ win)).quads 0) (tRead (s (seg ++ win))).t = false ∧ addressBad (o.quads 0) (tRead o).t = false) ∧
      Launches 0 0 true (good.bytes 0 64) (good.bytes 64 8) good ∧ HasTurn 4 [2, 3, 6] (some 0) 0 (s (seg ++ win)) ∧ HasTurn 4 [2, 3, 6] (some 0) 0 o ∧
      (tRead (s (seg ++ win))).bad = false ∧ (tRead o).bad = false ∧ (tRead o).t.out = true ∧ (tRead (s [])).t.out = false ∧ (tRead (s [])).t.manual = false ∧
      segment (s [(cr 9 0x200, 5)]) = true ∧ segment (s (seg ++ win)) = false ∧ outside (s seg) = true ∧ outside (s (seg ++ win)) = false := by
  unfold HasTurn
  refine ⟨fun r hr => alone_of ?_, ⟨peek_of ?_ ?_, peek_of ?_ ?_⟩, ⟨addresses_of ?_, addresses_of ?_⟩, launches_of ?_ ?_ ?_ ?_, ?_⟩ <;> (try revert r) <;> decide +kernel

/-- COPY into staging memory, at its start and under way: its host range in a window and not, a forbidden destination; FABRIC_LOAD out of range, of a region,
and of the whole. -/
theorem test_hyp_CopyAndFabric : let j := tWaits tJ4
    let s := { tJob tJ4 (tOn []) with creg := (cr 0 0x18, 4) :: (tOn []).creg }
    let under := { tRuns tJ4 (tOn []) with host := { (tRuns tJ4 (tOn [])).host with queues := [(0, { tQueue 1 .enabled with jobs := [{ tStarts tJ4 with moved := 40 }] }), (1, tQueue 2 .enabled)] } }
    let far : List Byte := tDesc [(0, 4), (8, 0x10000), (16, 0x2000), (24, 65)]
    let nvm : List Byte := tDesc [(0, 4), (8, 7), (16, nvmBase), (24, 65)]
    let sn := { tJob nvm (tOn []) with creg := (cr 0 0x18, 4) :: (tOn []).creg }
    (Alone 0 j 4 s ∧ s.atOnce 0 0 j = none) ∧ (Alone 0 (tWaits far) 4 (tJob far (tOn [])) ∧ (tJob far (tOn [])).atOnce 0 0 (tWaits far) = none) ∧
      (Alone 0 (tWaits nvm) 4 sn ∧ sn.atOnce 0 0 (tWaits nvm) = none) ∧
      (∀ r ∈ [15, 16, 0xFFFF], (Alone 0 (tWaits (tJ5 r)) 5 (tJob (tJ5 r) (tOn [])) ∧ (tJob (tJ5 r) (tOn [])).atOnce 0 0 (tWaits (tJ5 r)) = none)) ∧
      Landing (j.f 16 8) (j.f 24 8) s ∧ Landing (j.f 16 8 + 40) (j.f 24 8 - 40) under ∧ HasTurn 8 [4] none 0 s ∧ HasTurn 8 [4] none 0 (tJob far (tOn [])) ∧ HasTurn 8 [4] none 0 sn ∧
      s.channels < 16 ∧ j.f 32 1 = 0 ∧ j.moved = 0 ∧ s.devState ≠ stReady ∧ s.hostRangeOk 0 (j.f 8 8) (j.f 24 8) false = true ∧ copyBad 0 (j.f 16 8) (j.f 24 8) true = false ∧
      64 < j.f 24 8 ∧ j.f 24 8 ≤ 65 ∧ under.runningJob 0 [4] = some (0, { tStarts tJ4 with moved := 40 }) ∧ (under.queue 0).jobs = [{ tStarts tJ4 with moved := 40 }] ∧
      under.hostRangeOk 0 (j.f 8 8 + 40) (j.f 24 8 - 40) false = true ∧ (tJob far (tOn [])).hostRangeOk 0 ((tWaits far).f 8 8) ((tWaits far).f 24 8) false = false ∧
      sn.hostRangeOk 0 ((tWaits nvm).f 8 8) ((tWaits nvm).f 24 8) false = true ∧ copyBad 0 ((tWaits nvm).f 16 8) ((tWaits nvm).f 24 8) true = true ∧
      (∀ r ∈ [15, 16, 0xFFFF], (tWaits (tJ5 r)).f 20 2 = r) ∧ ({ tJob (tJ5 15) (tOn []) with fab := { FabState.reset with cur := some ⟨0, 1, none, false⟩ } }).fab.cur ≠ none := by
  unfold HasTurn
  refine ⟨alone_of ?_, alone_of ?_, alone_of ?_, fun r hr => alone_of ?_, at_of ?_ ?_, at_of ?_ ?_, ?_⟩ <;> (try revert r) <;> decide +kernel

/-- A queue of commands with a front, and an empty one; the state at reset is kept. -/
theorem test_hyp_Step : ({ State.reset with pending := [.pilotPowerLoss, .timeAlarm] }).pending = .pilotPowerLoss :: [.timeAlarm] ∧ State.reset.pending = [] ∧ State.reset.dict.tasks = [] ∧ Kept State.reset := by
  refine ⟨rfl, rfl, rfl, ?_, ?_, ?_, ?_⟩ <;> decide +kernel

end Sys2Proof.Machine
end

section
/-! PROOFS. APRE, ARES and the withdrawal of a stop request (R103, R104, R108). -/
open Sys2Proof Sys2Proof.Machine
namespace Sys2Proof.Machine

-- What an instruction's result does to a core that may issue it

/-- An instruction that waits, and changes nothing before. -/
theorem issue_waits {c : CoreId} {len : Nat} {b : Body} {s : State} {w : CoreWait} (h : Ready c len s)
    (hb : b ⟨c, (s.core c).pc, len, 0⟩ (begins c s) = .wait w (begins c s)) : issue c len b s = waits c w id s := by
  rw [issue_ready c len b s h, hb]
  simp [settleOne, begins, waits]

/-- An instruction that raises an exception of its own offset before any effect. -/
theorem issue_raises {c : CoreId} {len vec sub info : Nat} {b : Body} {s : State} (h : Ready c len s)
    (hb : b ⟨c, (s.core c).pc, len, 0⟩ (begins c s) = .exc vec sub info false (begins c s)) :
    issue c len b s = raised c vec sub info (s.core c).pc (begins c s) := by
  rw [issue_ready c len b s h, hb]
  rfl

@[simp] theorem State.core_modSeq (s : State) (q c : Nat) (f : Seq → Seq) : (s.modSeq q f).core c = s.core c := rfl

/-- An instruction that changes a sequencer alone: its core goes on behind it. -/
theorem issue_modSeq {c : CoreId} {len q : Nat} {b : Body} {s : State} {f : Seq → Seq} (h : Ready c len s)
    (hb : b ⟨c, (s.core c).pc, len, 0⟩ (begins c s) = .done false ((begins c s).modSeq q f)) :
    issue c len b s = (advance c len id s).modSeq q f := by
  rw [issue_ready c len b s h, hb]
  obtain ⟨he, ht, -, -, hst⟩ := h
  have hg : GoesOn c ((begins c s).modSeq q f) := ⟨alive_begins he, by simpa using ht, hst⟩
  show completed c (s.core c).pc ((s.core c).pc + BitVec.ofNat 32 len) false ((begins c s).modSeq q f) = _
  rw [completed_plain c _ _ _ _ hg (.inl rfl)]
  have hpc : setPc c ((s.core c).pc + BitVec.ofNat 32 len) (begins c s) = advance c len id s := by
    simp [setPc, begins, advance, State.modCore]
  rw [← hpc]
  rfl

-- The bodies of APRE and ARES outside the management core

section
variable {a : At} {d : Reg} {s : State} (hc : a.c ≠ 5)
include hc

theorem bodyApre_wait (hd : s.drives a.c.val ≠ none) (hs : (s.seq a.c.val).susp = false) : bodyApre d a s = .wait (.apre d) s := by
  simp [bodyApre, hc, hd, hs]

theorem bodyApre_illegalState (h : s.drives a.c.val = none ∨ (s.seq a.c.val).susp = true) : bodyApre d a s = illegalState a s := by
  simp [bodyApre, hc, h]

theorem bodyAres_illegalState (h : s.drives a.c.val = none ∨ (s.seq a.c.val).susp = false) : bodyAres a s = illegalState a s := by
  simp [bodyAres, hc, h]

theorem bodyAres_done (hd : s.drives a.c.val ≠ none) (hs : (s.seq a.c.val).susp = true) :
    bodyAres a s = .done false (s.modSeq a.c.val (fun x => { x with resuming := true })) := by
  simp [bodyAres, hc, hd, hs]

end

/-- APRE completes: its status in gd, and the next instruction follows unless the core's program is ordered to stop (R104). -/
theorem apreDone_waiting {q status : Nat} {d : Reg} {s : State} (h : (s.core q).run = .waiting (.apre d)) :
    apreDone q status s = stopHere q (s.modCore q (fun k => { k.setReg d (BitVec.ofNat 32 status) with pc := k.pc + 4, run := .running })) := by
  have hk : ∀ k : Core, ({ k with g := if d.val = 0 then k.g else tset (konst 0) k.g d.val (BitVec.ofNat 32 status), pc := k.pc + 4, run := .running } : Core) =
      { k.setReg d (BitVec.ofNat 32 status) with pc := k.pc + 4, run := .running } := by
    intro k
    by_cases hd : d = 0 <;> simp [Core.setReg, hd]
  simp only [apreDone, h, hk]

end Sys2Proof.Machine

/-- Settles O21: each instruction issues at a core that is ready, and what it does is its body's one branch; a withdrawn stop request completes the APRE that waits. -/
theorem suspendAndResumeRequests : Obligations.SuspendAndResumeRequests := by
  intro c d p s hc hr
  refine ⟨fun hd hs => ?_, fun h => ?_, fun h => ?_, fun hd hs => ?_, fun u hu => ?_⟩
  · exact congrArg Host.Outcome.next (issue_waits hr (bodyApre_wait hc hd hs))
  · exact congrArg Host.Outcome.next (issue_raises hr (bodyApre_illegalState hc h))
  · exact congrArg Host.Outcome.next (issue_raises hr (bodyAres_illegalState hc h))
  · exact congrArg Host.Outcome.next (issue_modSeq hr (bodyAres_done hc hd hs))
  · have hreq : u.stopReq (u.driver p.val) = true := by simp [State.stopReq, hu]
    show execApreNoRp p u = _
    rw [execApreNoRp, if_pos hreq, apreDone_waiting hu]
    rfl

end

section
/-! PROOFS. The parity of microwords and the microstore window (R86–R89). -/
open Sys2Proof Sys2Proof.Machine
namespace Sys2Proof.Machine

-- Parity (R89)

/-- The ones of the low n bits are the places below n whose bit is set. -/
theorem ones_eq_countP (n v : Nat) : ones n v = (List.range n).countP v.testBit := by
  induction n generalizing v with
  | zero => rfl
  | succ n ih =>
    have htail : ((List.range n).map Nat.succ).countP v.testBit = (List.range n).countP (v / 2).testBit := by
      rw [List.countP_map]
      exact List.countP_congr fun k _ => by simp [Nat.testBit_succ]
    rw [ones, ih, List.range_succ_eq_map, List.countP_cons, htail, Nat.add_comm, Nat.testBit_zero]
    rcases Nat.mod_two_eq_zero_or_one v with h | h <;> simp [h]

/-- A number summed up from its bits lies below 2^n and has those bits. -/
theorem foldl_bits (b : Nat → Nat) (hb : ∀ j, b j ≤ 1) (n : Nat) :
    (List.range n).foldl (fun p j => p + b j * 2 ^ j) 0 < 2 ^ n ∧
      ∀ j, j < n → ((List.range n).foldl (fun p j => p + b j * 2 ^ j) 0).testBit j = decide (b j = 1) := by
  induction n with
  | zero => simp
  | succ n ih =>
    obtain ⟨hlt, hbit⟩ := ih
    rw [List.range_succ, List.foldl_append, List.foldl_cons, List.foldl_nil, Nat.add_comm, Nat.mul_comm]
    have hn := hb n
    refine ⟨?_, fun j hj => ?_⟩
    · have := Nat.mul_le_mul_left (2 ^ n) hn
      rw [Nat.pow_succ]
      omega
    · rw [Nat.testBit_two_pow_mul_add _ hlt]
      by_cases h : j < n
      · rw [if_pos h, hbit j h]
      · obtain rfl : j = n := by omega
        rw [if_neg h, Nat.sub_self, Nat.testBit_zero, Nat.mod_eq_of_lt (by omega)]

theorem parity_lt (f : Nat) : parity f < 32 := (foldl_bits _ (fun _ => by omega) 5).1

/-- Parity bit j is set where the ones of its group are even. -/
theorem testBit_parity (f : Nat) {j : Nat} (hj : j < 5) : (parity f).testBit j = decide (ones 32 (f / 2 ^ (32 * j)) % 2 = 0) := by
  rw [parity, (foldl_bits _ (fun _ => by omega) 5).2 j hj]
  exact decide_eq_decide.mpr (by omega)

/-- The ones of group j are those of the stored word, whatever stands above its function bits. -/
theorem ones_group (w : Nat) {j : Nat} (hj : j < 5) :
    ones 32 (w % 2 ^ 160 / 2 ^ (32 * j)) = (List.range 32).countP (fun k => w.testBit (32 * j + k)) := by
  rw [ones_eq_countP]
  refine List.countP_congr fun k hk => ?_
  have hk := List.mem_range.mp hk
  rw [Nat.testBit_div_two_pow, Nat.testBit_mod_two_pow, Nat.add_comm k, decide_eq_true (by omega : 32 * j + k < 160), Bool.true_and]

/-- Group j fails where its ones and its stored parity bit together are even. -/
theorem testBit_badGroups (w : Nat) {j : Nat} (hj : j < 5) :
    (badGroups w).testBit j = decide (((List.range 32).countP (fun k => w.testBit (32 * j + k)) + b2n (w.testBit (160 + j))) % 2 = 0) := by
  have hxor : (badGroups w).testBit j = ((parity (w % 2 ^ 160)).testBit j ^^ w.testBit (160 + j)) := by
    rw [badGroups, show 32 = 2 ^ 5 from rfl, Nat.testBit_mod_two_pow, Nat.testBit_xor, Nat.testBit_div_two_pow, Nat.add_comm j, decide_eq_true hj, Bool.true_and]
  rw [hxor, testBit_parity _ hj, ones_group _ hj]
  cases w.testBit (160 + j)
  · simp [b2n]
  · simp only [b2n, if_true, Bool.xor_true, ← decide_not]
    exact decide_eq_decide.mpr (by omega)

/-- A word of zeros fails its parity. -/
theorem badGroups_zero_ne : badGroups 0 ≠ 0 := by
  intro h
  have h0 := testBit_badGroups 0 (j := 0) (by decide)
  simp [h, b2n] at h0

theorem withParity_toNat (f : Nat) : (withParity f).toNat = 2 ^ 160 * parity (f % 2 ^ 160) + f % 2 ^ 160 := by
  have := parity_lt (f % 2 ^ 160)
  have := Nat.mod_lt f (show 0 < 2 ^ 160 by decide)
  rw [withParity, BitVec.toNat_ofNat, Nat.mod_eq_of_lt (by omega)]
  omega

/-- A word with fresh parity keeps its function bits. -/
theorem withParity_mod (f : Nat) : (withParity f).toNat % 2 ^ 160 = f % 2 ^ 160 := by
  rw [withParity_toNat, Nat.mul_add_mod, Nat.mod_mod]

/-- A word with fresh parity passes. -/
theorem badGroups_withParity (f : Nat) : badGroups (withParity f).toNat = 0 := by
  have hdiv : (withParity f).toNat / 2 ^ 160 = parity (f % 2 ^ 160) := by rw [withParity_toNat]; omega
  rw [badGroups, withParity_mod, hdiv, Nat.xor_self]

-- Bits of control registers

theorem bits_one (v i : Nat) : (bits v i 1 == 1) = v.testBit i := by
  rw [Nat.testBit_eq_decide_div_mod_eq]
  rfl

/-- A bit of a register's low word. -/
theorem State.bit_low (s : State) (a : Nat) {i : Nat} (hi : i < 32) : s.bit a i = (s.r32 a).testBit i := by
  have hlt : s.r32 a < 2 ^ 32 := (tget regReset s.creg a).isLt
  rw [State.bit, State.fld, bits_one, State.r64, Nat.add_comm, Nat.testBit_two_pow_mul_add _ hlt, if_pos hi]

theorem testBit_setBits_one (v i : Nat) : (setBits v i 1 1).testBit i = true := by
  have hr := Nat.mod_lt v (Nat.two_pow_pos i)
  have hset : setBits v i 1 1 = 2 ^ i * (2 * (v / 2 ^ i / 2) + 1) + v % 2 ^ i := by
    have hv := Nat.div_add_mod v (2 ^ i)
    have hd := Nat.div_add_mod (v / 2 ^ i) 2
    simp only [setBits, bits, Nat.pow_one]
    generalize v % 2 ^ i = r at *
    generalize v / 2 ^ i = d at *
    generalize 2 ^ i = m at *
    rcases Nat.mod_two_eq_zero_or_one d with h | h
    · rw [h, Nat.add_zero] at hd
      rw [h, hd, Nat.mul_add]
      omega
    · rw [h] at hd
      have hm := Nat.le_mul_of_pos_right m (show 0 < d by omega)
      rw [h, hd]
      omega
  rw [hset, Nat.testBit_two_pow_mul_add _ hr, if_neg (Nat.lt_irrefl i), Nat.sub_self, Nat.testBit_zero]
  simp

/-- Setting a bit of a register's low word writes that word alone. -/
theorem State.setB_low (s : State) (a : Nat) {i : Nat} (hi : i < 32) : s.setB a i = s.setR32 a (setBits (s.r32 a) i 1 1) := by
  rw [State.setB, State.setF, if_pos (by omega)]

/-- A bit of a register's low word that has been set reads 1. -/
theorem State.bit_setB (s : State) (a : Nat) {i : Nat} (hi : i < 32) : (s.setB a i).bit a i = true := by
  rw [State.bit_low _ _ hi, State.setB_low _ _ hi, State.r32_setR32_same, Nat.testBit_mod_two_pow, testBit_setBits_one, decide_eq_true hi]
  rfl

-- Stored microwords

@[simp] theorem State.uword_modSeq (s : State) (q p u : Nat) (f : Seq → Seq) : (s.modSeq q f).uword p u = s.uword p u := rfl

/-- What a microword is after a commit. -/
theorem uword_commitWord (q upc f u : Nat) (s : State) :
    (commitWord q upc f s).uword q u = if u = upc then (withParity f).toNat else s.uword q u := by
  have hkey : uwKey q u = uwKey q upc ↔ u = upc := by unfold uwKey; omega
  rw [commitWord, State.uword_modSeq, State.uword, State.setUword, tget_tset, apply_ite BitVec.toNat]
  simp only [hkey, State.uword]

-- Stores to a slot (R87, R88)

/-- What an initiator's assembly buffers of a microstore hold: the slot and the double-word of the last store at 0x00 and at 0x08. -/
def State.buffer0 (s : State) (i : Initiator) (q : Nat) : Nat × Dword := tget (konst (32768, 0)) (s.seq q).buf0 (respKey i)
@[inherit_doc State.buffer0] def State.buffer1 (s : State) (i : Initiator) (q : Nat) : Nat × Dword := tget (konst (32768, 0)) (s.seq q).buf1 (respKey i)

/-- A double-word stored at 0x00 of a slot, and at 0x08. -/
def storeBuffer0 (i : Initiator) (q upc : Nat) (v : Dword) (s : State) : State :=
  s.modSeq q (fun x => { x with buf0 := tset (konst (32768, 0)) x.buf0 (respKey i) (upc, v) })
@[inherit_doc storeBuffer0] def storeBuffer1 (i : Initiator) (q upc : Nat) (v : Dword) (s : State) : State :=
  s.modSeq q (fun x => { x with buf1 := tset (konst (32768, 0)) x.buf1 (respKey i) (upc, v) })

/-- Both assembly buffers of an initiator emptied. -/
def emptyBuffers (i : Initiator) (q : Nat) (s : State) : State :=
  s.modSeq q (fun x => { x with buf0 := tset (konst (32768, 0)) x.buf0 (respKey i) (32768, 0), buf1 := tset (konst (32768, 0)) x.buf1 (respKey i) (32768, 0) })

/-- The function bits of a slot's three stores. -/
def assembled (a b c : Dword) : Nat := a.toNat + b.toNat * 2 ^ 64 + c.toNat % 2 ^ 32 * 2 ^ 128

theorem assembled_lt (a b c : Dword) : assembled a b c < 2 ^ 160 := by
  have := a.isLt
  have := b.isLt
  have := Nat.mod_lt c.toNat (show 0 < 2 ^ 32 by decide)
  unfold assembled
  omega

/-- A word kept for the next instruction boundary. -/
def keepWord (q upc f : Nat) (s : State) : State := s.modSeq q (fun x => { x with newWords := tset (konst 0) x.newWords upc (withParity f) })

@[simp] theorem buffer0_storeBuffer0 (i : Initiator) (q upc : Nat) (v : Dword) (s : State) : (storeBuffer0 i q upc v s).buffer0 i q = (upc, v) := by
  simp [State.buffer0, storeBuffer0]
@[simp] theorem buffer0_storeBuffer1 (i : Initiator) (q upc : Nat) (v : Dword) (s : State) : (storeBuffer1 i q upc v s).buffer0 i q = s.buffer0 i q := by
  simp [State.buffer0, storeBuffer1]
@[simp] theorem buffer1_storeBuffer1 (i : Initiator) (q upc : Nat) (v : Dword) (s : State) : (storeBuffer1 i q upc v s).buffer1 i q = (upc, v) := by
  simp [State.buffer1, storeBuffer1]

@[simp] theorem executing_storeBuffer0 (i : Initiator) (q upc : Nat) (v : Dword) (s : State) : (storeBuffer0 i q upc v s).executing q = s.executing q := by
  simp [State.executing, storeBuffer0]
@[simp] theorem executing_storeBuffer1 (i : Initiator) (q upc : Nat) (v : Dword) (s : State) : (storeBuffer1 i q upc v s).executing q = s.executing q := by
  simp [State.executing, storeBuffer1]

@[simp] theorem uword_storeBuffer0 (i : Initiator) (q upc p u : Nat) (v : Dword) (s : State) : (storeBuffer0 i q upc v s).uword p u = s.uword p u := rfl
@[simp] theorem uword_storeBuffer1 (i : Initiator) (q upc p u : Nat) (v : Dword) (s : State) : (storeBuffer1 i q upc v s).uword p u = s.uword p u := rfl
@[simp] theorem uword_emptyBuffers (i : Initiator) (q p u : Nat) (s : State) : (emptyBuffers i q s).uword p u = s.uword p u := rfl
@[simp] theorem uword_keepWord (q upc f p u : Nat) (s : State) : (keepWord q upc f s).uword p u = s.uword p u := rfl

/-- The word that waits after it has been kept. -/
@[simp] theorem newWords_keepWord (q upc f : Nat) (s : State) : tget (konst 0) ((keepWord q upc f s).seq q).newWords upc = withParity f := by
  simp [keepWord]

/-- A microstore write is a store at its offset, where slot and part lie in the window. -/
theorem exec_microstoreWrite (i : Initiator) (q : SeqId) (upc : Fin 16384) {k : Nat} (hk : k < 4) (v : Dword) (s : State) :
    exec (.microstoreWrite i q (BitVec.ofNat 24 (32 * upc.val + 8 * k)) v) s = .next (microStore i q.val (32 * upc.val + 8 * k) v.toNat s) := by
  have hoff : (BitVec.ofNat 24 (32 * upc.val + 8 * k)).toNat = 32 * upc.val + 8 * k := by
    rw [BitVec.toNat_ofNat, Nat.mod_eq_of_lt (by omega)]
  show execMicrostoreWrite _ _ _ _ _ = _
  rw [execMicrostoreWrite, hoff]

section
variable {i : Initiator} {q upc off : Nat} {s : State} (hm : mayMicro i q upc = true) (hslot : off / 32 = upc)
include hm hslot

theorem microStore_part0 (hpart : off % 32 = 0) (v : Dword) : microStore i q off v.toNat s = storeBuffer0 i q upc v s := by
  have hal : off % 8 = 0 := by omega
  simp [microStore, storeBuffer0, hslot, hpart, hal, hm]

theorem microStore_part1 (hpart : off % 32 = 8) (v : Dword) : microStore i q off v.toNat s = storeBuffer1 i q upc v s := by
  have hal : off % 8 = 0 := by omega
  simp [microStore, storeBuffer1, hslot, hpart, hal, hm]

/-- The store at 0x10: with both parts of its slot the word commits, or waits for the boundary of the routine that runs; else it is discarded (log entry 34). -/
theorem microStore_part2 (hpart : off % 32 = 16) (v : Dword) :
    let f := assembled (s.buffer0 i q).2 (s.buffer1 i q).2 v
    microStore i q off v.toNat s = if (s.buffer0 i q).1 = upc ∧ (s.buffer1 i q).1 = upc then
      (if s.executing q then keepWord q upc f (emptyBuffers i q s) else commitWord q upc f (emptyBuffers i q s)) else s.setB (sq q 0x860) 31 := by
  have hal : off % 8 = 0 := by omega
  simp only [microStore, hslot, hpart, hal, hm, ne_eq, not_true_eq_false, Bool.not_true, Bool.false_eq_true, or_self, if_false]
  rfl

end

/-- What the store at 0x10 of a slot with both parts leaves: the word waits where a routine runs, and is committed where none does. -/
def Committed (q upc f : Nat) (s t : State) : Prop :=
  if s.executing q then t.uword q upc = s.uword q upc ∧ (tget (konst 0) (t.seq q).newWords upc).toNat % 2 ^ 160 = f
  else t.uword q upc % 2 ^ 160 = f ∧ badGroups (t.uword q upc) = 0

/-- The three stores of a slot, in order, commit their word, and no other word changes. -/
theorem microStore_parts {i : Initiator} {q upc o0 o1 o2 : Nat} (hm : mayMicro i q upc = true) (h0 : o0 / 32 = upc ∧ o0 % 32 = 0)
    (h1 : o1 / 32 = upc ∧ o1 % 32 = 8) (h2 : o2 / 32 = upc ∧ o2 % 32 = 16) (a b c : Dword) (s : State) :
    let t := microStore i q o2 c.toNat (microStore i q o1 b.toNat (microStore i q o0 a.toNat s))
    (∀ u, u ≠ upc → t.uword q u = s.uword q u) ∧ Committed q upc (assembled a b c) s t := by
  have hf : assembled a b c % 2 ^ 160 = assembled a b c := Nat.mod_eq_of_lt (assembled_lt a b c)
  simp only [microStore_part0 hm h0.1 h0.2, microStore_part1 hm h1.1 h1.2, microStore_part2 hm h2.1 h2.2, buffer0_storeBuffer1, buffer0_storeBuffer0,
    buffer1_storeBuffer1, executing_storeBuffer1, executing_storeBuffer0, and_self, if_true, Committed]
  cases he : s.executing q
  case true =>
    simp only [if_true, uword_keepWord, uword_emptyBuffers, uword_storeBuffer1, uword_storeBuffer0, newWords_keepWord, withParity_mod, hf, implies_true, and_self]
  case false =>
    simp only [Bool.false_eq_true, if_false, uword_commitWord, if_true, uword_emptyBuffers, uword_storeBuffer1, uword_storeBuffer0]
    exact ⟨fun u hu => if_neg hu, by rw [withParity_mod, hf], badGroups_withParity _⟩

/-- A store at 0x10 of a slot whose part at 0x00 is not there changes WERR alone. -/
theorem microStore_discards {i : Initiator} {q upc off : Nat} {s : State} (hm : mayMicro i q upc = true) (ho : off / 32 = upc ∧ off % 32 = 16)
    (h0 : (s.buffer0 i q).1 ≠ upc) (v : Dword) : microStore i q off v.toNat s = s.setB (sq q 0x860) 31 := by
  rw [microStore_part2 hm ho.1 ho.2, if_neg (fun h => h0 h.1)]

end Sys2Proof.Machine

/-- Settles O33: the slot's stores by `microStore_parts` and `microStore_discards`, the parity by the ones of each group. -/
theorem microstoreWrites : Obligations.MicrostoreWrites := by
  refine ⟨fun i q upc a b c s hm => ?_, fun w j => testBit_badGroups w.toNat j.isLt, badGroups_zero_ne⟩
  have part : ∀ k, k < 3 → (32 * upc.val + 8 * k) / 32 = upc.val ∧ (32 * upc.val + 8 * k) % 32 = 8 * k := by omega
  have h2 := part 2 (by decide)
  obtain ⟨hother, hword⟩ := microStore_parts hm (part 0 (by decide)) (part 1 (by decide)) h2 a b c s
  refine ⟨⟨_, _, _, exec_microstoreWrite i q upc (by decide) a _, exec_microstoreWrite i q upc (by decide) b _, exec_microstoreWrite i q upc (by decide) c _,
    fun u _ hu => hother u hu, hword⟩, fun h0 => ⟨_, exec_microstoreWrite i q upc (by decide) c s, ?_⟩⟩
  rw [microStore_discards hm h2 h0]
  refine ⟨?_, ?_, State.bit_setB _ _ (by decide)⟩
  · rw [State.setB_low _ _ (by decide), State.setR32_micro]
  · rw [State.setB_low _ _ (by decide), State.setR32_seqs]

end
